-- ==== Sys2Proof/Word.lean ====
section
/-! DEFINITION. The words of the device: a byte, a register word, a register pair. -/

namespace Sys2Proof

/-- A byte of memory or of a frame. -/
abbrev Byte := BitVec 8

/-- A 32-bit register word (00_scope.md, Notation: registers are 4 B or 8 B). -/
abbrev Word := BitVec 32

/-- A 64-bit register or a 64-bit field of a structure. -/
abbrev DWord := BitVec 64

end Sys2Proof
end

