-- ==== Sys2Proof/Syntax.lean ====
section
/-! DEFINITION. The commands the block takes, as a closed inductive, and the types of their operands. -/

namespace Sys2Proof

/-- A function of a host link: PF0 (`num = 0`) or VF `num` (R152, R200). -/
structure Func where
  link : Nat
  num : Nat
deriving DecidableEq, Repr

/-- The parties that may request a shared resource, in the order of R41 (01_architecture.md). -/
inductive Party where
  /-- PF0 of HIF0 (order 1). -/
  | hif0
  /-- PF0 of HIF1 (order 2). -/
  | hif1
  /-- The pair link (order 3). -/
  | pair
  /-- Control-core cluster `c` (order 4 to 7). -/
  | core (c : Nat)
  /-- Pipeline `p` (order 8 to 15). -/
  | pipe (p : Nat)
  /-- Block engine `e` (order 16 to 19). -/
  | engine (e : Nat)
  /-- A VF through its control page (R548): the offsets of its accesses are those of VF BAR0; it has the order of its link. -/
  | vf (f : Func)
deriving DecidableEq, Repr

/-- Why the link of a port leaves UP (17_ports_and_pair.md R567). -/
inductive LinkFault where
  | alignment
  | localFault
  | remoteFault
deriving DecidableEq, Repr

/-- How a frame arrived (R562, R564): its FCS as the MAC finds it where FEC corrected all it had to, and the codewords that FEC
corrected and could not correct since the frame before; a codeword it cannot correct touches this frame.
[log 203: DESIGN CHOICE] -/
structure RxCheck where
  fcs : Bool := true
  corrected : Nat := 0
  uncorrectable : Nat := 0
deriving DecidableEq, Repr

/-- The FCS check passes (R562). -/
def RxCheck.ok (c : RxCheck) : Bool := c.fcs && decide (c.uncorrectable = 0)

/-- A unit that reports an uncorrectable error in its own state (18_firmware_and_faults.md R610, R612). -/
inductive FaultUnit where
  | pipeline (p : Nat)
  | engine (e : Nat)
  | lane (cluster lane : Nat)
  | cluster (c : Nat)
  /-- Another PD0 unit, named by the BAR0 offset of its page 0 (R612: logged, not fenced). -/
  | other (page : Nat)
deriving DecidableEq, Repr

/-- The messages the fantail sends on network port `n` as a slave-only clock (03_time.md R96): requests, and answers to peer
delay requests. -/
inductive PtpSend where
  | delayReq (n : Nat)
  | peerReq (n : Nat)
  | peerResp (n : Nat)
  | peerFollowUp (n : Nat)
deriving DecidableEq, Repr

/-- A register of configuration space that CONFIG_WRITE names (15_host_link.md R513 to R520, R527): of PF0, of the SR-IOV
capability, or of function `num`. -/
inductive CfgReg where
  | numVfs
  | pageSize
  /-- Memory Space Enable of PF0: bit 1. -/
  | command
  /-- VF Memory Space Enable: bit 3. -/
  | sriovControl
  /-- Device Control of PF0. -/
  | control
  /-- Device Control 2 of function `num`. -/
  | control2 (num : Nat)
  /-- Dword `i` of PF0's BARs. -/
  | bar (i : Nat)
  /-- Dword `i` of the VF BARs. -/
  | vfBar (i : Nat)
  /-- The dword at `off` of the capabilities of function `num` (R517): Power Management, MSI-X, Device Status, Link Control,
  Advanced Error Reporting, TPH Requester, Address Translation Services. -/
  | cap (num off : Nat)
deriving DecidableEq, Repr

/-- An inbound request a link does not support (15_host_link.md R513). -/
inductive Inbound where
  | atomicOp (link : Nat)
  | io (link : Nat)
  | type1 (link : Nat)
  /-- A memory request to an address, which is unsupported where it hits no BAR. -/
  | memory (link addr : Nat)
deriving DecidableEq, Repr

/-- A completion without good data for read `id` (15_host_link.md R529). -/
inductive BadCpl where
  | poisoned (id : Nat)
  | unsupported (id : Nat)
  | aborted (id : Nat)
deriving DecidableEq, Repr

/-- The commands of the block, one constructor per row of the table of operations and events
(`spec/opcode_table.json`), each with its row's operands; the rows without operands come last.  The doc line of a
constructor names its row and rule. -/
inductive Instr where
  /-- REGISTER_WRITE (R670). -/
  | registerWrite (pt : Party) (off width : Nat) (v : BitVec 64)
  /-- PG_ENABLE_WRITE (R671). -/
  | pgEnableWrite (pt : Party) (page : Nat) (v : BitVec 32)
  /-- PG_QUIESCE_WRITE (R671). -/
  | pgQuiesceWrite (pt : Party) (page : Nat) (v : BitVec 32)
  /-- PG_RESET (R54). -/
  | pgReset (pt : Party) (page : Nat) (v : BitVec 32)
  /-- PG_INT_FORCE (R61). -/
  | pgIntForce (pt : Party) (page : Nat) (v : BitVec 32)
  /-- PG_INT_STATUS_CLEAR (R61). -/
  | pgIntStatusClear (pt : Party) (page : Nat) (v : BitVec 32)
  /-- PG_INT_ENABLE_WRITE (R61). -/
  | pgIntEnableWrite (pt : Party) (page : Nat) (v : BitVec 32)
  /-- PG_INT_ROUTE_WRITE (R61). -/
  | pgIntRouteWrite (pt : Party) (page : Nat) (v : BitVec 32)
  /-- ERR_LOG_CLEAR (R65). -/
  | errLogClear (pt : Party) (page : Nat) (v : BitVec 32)
  /-- MSIX_UNMASK (R63). -/
  | msixUnmask (f : Func) (vec : Option Nat)
  /-- TIM_NOW_CAPTURE (R78). -/
  | timNowCapture (pt : Party) (width : Nat)
  /-- TIM_INCR_WRITE (R79). -/
  | timIncrWrite (pt : Party) (o width : Nat) (v : BitVec 64)
  /-- TIM_SLEW_INCR_WRITE (R79). -/
  | timSlewIncrWrite (pt : Party) (o width : Nat) (v : BitVec 64)
  /-- TIM_STEP (R82). -/
  | timStep (pt : Party) (o width : Nat) (v : BitVec 64)
  /-- TIM_LOAD (R84). -/
  | timLoad (pt : Party) (v : BitVec 32)
  /-- TIM_SLEW_START (R85). -/
  | timSlewStart (pt : Party) (v : BitVec 32)
  /-- SERVO_KICK (R88). -/
  | servoKick (pt : Party) (v : BitVec 32)
  /-- TIM_OWNER_CHANGE (R92). -/
  | timOwnerChange (pt : Party) (v : BitVec 32)
  /-- VALID_SET (R89). -/
  | validSet (pt : Party) (v : BitVec 32)
  /-- FANTAIL_SYNC (R95): the Sync message by its port, its sender's port identity and its sequence number. -/
  | fantailSync (port : Nat) (sender : BitVec 80) (seq : BitVec 16)
  /-- FANTAIL_SEND (R97). -/
  | fantailSend (m : PtpSend)
  /-- TPO_ENABLE (R111). -/
  | tpoEnable (pt : Party) (n : Nat) (v : BitVec 32)
  /-- TPO_EDGE (R112). -/
  | tpoEdge (n : Nat)
  /-- TPO_PULSE_END (R112). -/
  | tpoPulseEnd (n : Nat)
  /-- TCI_EDGE (R115). -/
  | tciEdge (n : Nat) (rising : Bool)
  /-- TCI_READ (R116): of input `n` mod 4; from 4 on the access is to the high half of the register. -/
  | tciRead (pt : Party) (n width : Nat)
  /-- TURN_BOUNDARY (R123). -/
  | turnBoundary (cycles : Nat)
  /-- PERIOD_CHANGE (R119). -/
  | periodChange (pt : Party) (v : BitVec 32)
  /-- RING_ENABLE (R156). -/
  | ringEnable (pt : Party) (r : Nat) (v : BitVec 32)
  /-- RING_DISABLE (R177). -/
  | ringDisable (pt : Party) (r : Nat) (v : BitVec 32)
  /-- RING_RESET (R177). -/
  | ringReset (pt : Party) (r : Nat) (v : BitVec 32)
  /-- RING_DRAIN_DONE (R177). -/
  | ringDrainDone (r : Nat)
  /-- DOORBELL (R167). -/
  | doorbell (f : Func) (off width : Nat) (v : BitVec 32)
  /-- ENTRY_FETCH (R161). -/
  | entryFetch (r : Nat) (data : List Byte)
  /-- SEND_GATHER (R162). -/
  | sendGather (r : Nat)
  /-- SEND_INLINE (R162). -/
  | sendInline (r : Nat)
  /-- TX_FRAME_READ_DONE (R162). -/
  | txFrameReadDone (r : Nat)
  /-- HOST_READ_COMPLETE (R34). -/
  | hostReadComplete (id : Nat) (data : List Byte)
  /-- RX_DELIVER (R164). -/
  | rxDeliver (r : Nat)
  /-- RX_HOLD_EXPIRE (R164). -/
  | rxHoldExpire (r : Nat)
  /-- RING_IRQ_TIMER (R176). -/
  | ringIrqTimer (r : Nat)
  /-- SLUICE_WAIT_EXPIRE (R363). -/
  | sluiceWaitExpire (id : Nat)
  /-- SLUICE_ADMIT (R362). -/
  | sluiceAdmit (p : Nat)
  /-- PATTERN_SCAN (R283). -/
  | patternScan (p : Nat)
  /-- SCAN_CUT (R288). -/
  | scanCut (p scanned : Nat)
  /-- STAGE7_START (R220). -/
  | stage7Start (p : Nat)
  /-- END (R252). -/
  | endRecord (p : Nat) (w : BitVec 64)
  /-- SET_FIELD (R256). -/
  | setField (p : Nat) (w : BitVec 64)
  /-- ADD_FIELD (R256). -/
  | addField (p : Nat) (w : BitVec 64)
  /-- COPY_FIELD (R256). -/
  | copyField (p : Nat) (w : BitVec 64)
  /-- PUSH_HDR (R268). -/
  | pushHdr (p : Nat) (w : BitVec 64)
  /-- POP_HDR (R268). -/
  | popHdr (p : Nat) (w : BitVec 64)
  /-- SET_PORT (R257). -/
  | setPort (p : Nat) (w : BitVec 64)
  /-- SET_QUEUE (R257). -/
  | setQueue (p : Nat) (w : BitVec 64)
  /-- TO_RING (R258). -/
  | toRing (p : Nat) (w : BitVec 64)
  /-- MIRROR (R260). -/
  | mirror (p : Nat) (w : BitVec 64)
  /-- COUNT (R261). -/
  | count (p : Nat) (w : BitVec 64)
  /-- GOVERN (R366). -/
  | govern (p : Nat) (w : BitVec 64)
  /-- CIPHER (R257). -/
  | cipher (p : Nat) (w : BitVec 64)
  /-- INSPECT (R263). -/
  | inspect (p : Nat) (w : BitVec 64)
  /-- LEARN (R264). -/
  | learn (p : Nat) (w : BitVec 64)
  /-- LEAT (R274). -/
  | leat (p : Nat) (w : BitVec 64)
  /-- TO_CORE (R238). -/
  | toCore (p : Nat) (w : BitVec 64)
  /-- DROP (R257). -/
  | drop (p : Nat) (w : BitVec 64)
  /-- TIMESTAMP_ONE_STEP (R265). -/
  | timestampOneStep (p : Nat) (w : BitVec 64)
  /-- PRS_IMG_READ (R207). -/
  | prsImgRead (pt : Party) (p : Nat) (v : BitVec 32)
  /-- PRS_IMG_WRITE (R208). -/
  | prsImgWrite (pt : Party) (p : Nat) (v : BitVec 32)
  /-- CLS_IMG_READ (R242). -/
  | clsImgRead (pt : Party) (p : Nat) (v : BitVec 32)
  /-- CLS_IMG_WRITE (R242). -/
  | clsImgWrite (pt : Party) (p : Nat) (v : BitVec 32)
  /-- ACT_IMG_READ (R279). -/
  | actImgRead (pt : Party) (p : Nat) (v : BitVec 32)
  /-- ACT_IMG_WRITE (R279). -/
  | actImgWrite (pt : Party) (p : Nat) (v : BitVec 32)
  /-- PAT_IMG_READ (R309). -/
  | patImgRead (pt : Party) (p : Nat) (v : BitVec 32)
  /-- PAT_IMG_WRITE (R309). -/
  | patImgWrite (pt : Party) (p : Nat) (v : BitVec 32)
  /-- HSH_IND_READ (R245). -/
  | hshIndRead (pt : Party) (p : Nat) (v : BitVec 32)
  /-- HSH_IND_WRITE (R245). -/
  | hshIndWrite (pt : Party) (p : Nat) (v : BitVec 32)
  /-- PAT_COMPILE (R673). -/
  | patCompile (r : Nat)
  /-- PAT_RELEASE (R295). -/
  | patRelease (r : Nat)
  /-- TABLE_CREATE (R313). -/
  | tableCreate (pt : Party) (t : Nat) (v : BitVec 32)
  /-- INIT_DONE (R313). -/
  | initDone (t : Nat)
  /-- TABLE_DESTROY (R313). -/
  | tableDestroy (pt : Party) (t : Nat) (v : BitVec 32)
  /-- TABLE_DRAIN_DONE (R313). -/
  | tableDrainDone (t : Nat)
  /-- INSERT (R320). -/
  | insert (r : Nat)
  /-- REPLACE (R317). -/
  | replace (r : Nat)
  /-- DELETE (R317). -/
  | delete (r : Nat)
  /-- REFRESH (R317). -/
  | refresh (r : Nat)
  /-- TBLC_READ (R317). -/
  | tblcRead (r : Nat)
  /-- WRITE_BUCKET (R317). -/
  | writeBucket (r : Nat)
  /-- LEARN_KEY (R339). -/
  | learnKey (r : Nat)
  /-- SWEEP_VISIT (R327). -/
  | sweepVisit (t : Nat)
  /-- SWEEP_DELETE (R328). -/
  | sweepDelete (t : Nat)
  /-- SCRUB_VISIT (R329). -/
  | scrubVisit (t : Nat) (shadow : List (List Byte))
  /-- SCRUB_RECHECK (R330). -/
  | scrubRecheck (t bucket : Nat) (shadow : List Byte)
  /-- FAULT_REPAIR (R333). -/
  | faultRepair (t bucket : Nat) (shadow : List Byte)
  /-- LEARN_TOKEN_REFILL (R337). -/
  | learnTokenRefill (t : Nat)
  /-- LRN_RESYNC_RETRY (R348). -/
  | lrnResyncRetry (sender : Nat)
  /-- FRAME_RECEIVE (R564). -/
  | frameReceive (port : Nat) (frame : List Byte) (chk : RxCheck)
  /-- FRAME_TRANSMIT (R371). -/
  | frameTransmit (port : Nat)
  /-- PFC_RECEIVE (R377). -/
  | pfcReceive (port : Nat) (enables : BitVec 8) (quanta : List Nat)
  /-- PFC_PAUSE_EXPIRE (R377). -/
  | pfcPauseExpire (port pri : Nat)
  /-- PFC_REFRESH (R378). -/
  | pfcRefresh (port pri : Nat)
  /-- GOV_ACC_READ (R369). -/
  | govAccRead (pt : Party) (v : BitVec 32)
  /-- GOV_ACC_WRITE (R369). -/
  | govAccWrite (pt : Party) (v : BitVec 32)
  /-- INLINE_START (R387). -/
  | inlineStart (lane : Nat)
  /-- INLINE_COMPLETE (R400). -/
  | inlineComplete (lane : Nat)
  /-- SA_WRITE (R392). -/
  | saWrite (r : Nat)
  /-- SA_READ (R392). -/
  | saRead (r : Nat)
  /-- SA_INVALIDATE (R392). -/
  | saInvalidate (r : Nat)
  /-- KEY_UNWRAP (R429). -/
  | keyUnwrap (r : Nat)
  /-- KEY_ZEROISE (R429). -/
  | keyZeroise (r : Nat)
  /-- KEY_INFO (R429). -/
  | keyInfo (r : Nat)
  /-- LOAD (R428). -/
  | keyLoad (pt : Party) (v : BitVec 32)
  /-- ZEROISE_SLOT (R430). -/
  | zeroiseSlot (pt : Party) (v : BitVec 32)
  /-- ZEROISE_FUNC (R430). -/
  | zeroiseFunc (pt : Party) (v : BitVec 32)
  /-- ZEROISE_ALL (R430). -/
  | zeroiseAll (pt : Party) (v : BitVec 32)
  /-- KEY_ENABLE (R432). -/
  | keyEnable (pt : Party) (v : BitVec 32)
  /-- KEY_DISABLE (R432). -/
  | keyDisable (pt : Party) (v : BitVec 32)
  /-- SA_REGION_DISABLE (R433). -/
  | saRegionDisable (pt : Party) (v : BitVec 32)
  /-- ENCRYPT (R413). -/
  | encrypt (r : Nat)
  /-- DECRYPT (R413). -/
  | decrypt (r : Nat)
  /-- MAC (R413). -/
  | macJob (r : Nat)
  /-- LOOK_VERIFY (R413). -/
  | lookVerify (r : Nat)
  /-- HASH (R413). -/
  | hashJob (r : Nat)
  /-- LOOK_JOB_COMPLETE (R415). -/
  | lookJobComplete (r : Nat)
  /-- STORE_JOB_COMPLETE (R421). -/
  | storeJobComplete (id : Nat)
  /-- ENT_HEALTH_FAIL (R423). -/
  | entHealthFail (apt : Bool)
  /-- ENT_RAND_READ (R425). -/
  | entRandRead (pt : Party) (width : Nat)
  /-- PUSH (R482). -/
  | push (f : Func) (off : Nat) (data : List Byte) (whole : Bool)
  /-- REFUSAL_COMPLETION (R483). -/
  | refusalCompletion (q : Nat)
  /-- COMMAND_START (R488). -/
  | commandStart (q : Nat)
  /-- READ (R459). -/
  | read (id : Nat)
  /-- WRITE (R447). -/
  | write (id : Nat)
  /-- FLUSH (R497). -/
  | flush (id : Nat)
  /-- DEALLOCATE (R439). -/
  | deallocate (id : Nat)
  /-- WRITE_ZEROES (R439). -/
  | writeZeroes (id : Nat)
  /-- VERIFY (R459). -/
  | verify (id : Nat)
  /-- COMPARE_AND_WRITE (R498). -/
  | compareAndWrite (id : Nat)
  /-- STORE_ACK (R446). -/
  | storeAck (store id : Nat)
  /-- STORE_READ_COMPLETE (R459). -/
  | storeReadComplete (id : Nat) (ok : Bool) (data : List Byte)
  /-- QUERN_COMPLETE (R492). -/
  | quernComplete (id : Nat)
  /-- STORE_FAIL (R443). -/
  | storeFail (store : Nat)
  /-- SUBSTITUTE_TIMEOUT (R449). -/
  | substituteTimeout (id : Nat)
  /-- NO_EXTENT_TIMEOUT (R451). -/
  | noExtentTimeout (id : Nat)
  /-- BLK_SCRUB (R461). -/
  | blkScrub (vol grain : Nat) (copies : List (Option (List Byte)))
  /-- REBUILD (R462). -/
  | rebuild (store : Nat)
  /-- SEGMENT_CLEAN (R468). -/
  | segmentClean (vol seg : Nat)
  /-- STORE_ADD (R471). -/
  | storeAdd (r : Nat)
  /-- STORE_REMOVE (R471). -/
  | storeRemove (r : Nat)
  /-- STORE_REMOVED (R443). -/
  | storeRemoved (store : Nat)
  /-- VOL_CREATE (R471). -/
  | volCreate (r : Nat)
  /-- VOL_STATE (R470). -/
  | volState (r : Nat)
  /-- VOLUME_QUIESCED (R470). -/
  | volumeQuiesced (vol : Nat)
  /-- VOL_MIGRATE (R470). -/
  | volMigrate (r : Nat)
  /-- MIGRATION_DONE (R470). -/
  | migrationDone (vol : Nat)
  /-- VOL_RESIZE (R471). -/
  | volResize (r : Nat)
  /-- VOL_DELETE (R471). -/
  | volDelete (r : Nat)
  /-- VOL_INFO (R471). -/
  | volInfo (r : Nat)
  /-- VOL_RECOVER (R464). -/
  | volRecover (r : Nat)
  /-- SCRUB_NOW (R471). -/
  | scrubNow (r : Nat)
  /-- HOME_ENGINE_RETURN (R39). -/
  | homeEngineReturn (vol : Nat)
  /-- QUEUE_ENABLE (R500). -/
  | queueEnable (pt : Party) (q : Nat) (v : BitVec 32)
  /-- QUEUE_DISABLE (R499). -/
  | queueDisable (pt : Party) (q : Nat) (v : BitVec 32)
  /-- QUEUE_DRAIN_DONE (R499). -/
  | queueDrainDone (q : Nat)
  /-- QUEUE_RESET (R501). -/
  | queueReset (pt : Party) (q : Nat) (v : BitVec 32)
  /-- RESET_TIMEOUT (R501). -/
  | resetTimeout (id : Nat)
  /-- RESET_DONE (R499). -/
  | resetDone (q : Nat)
  /-- QS_IDLE_TIMEOUT (R504). -/
  | qsIdleTimeout (f : Func)
  /-- PS_MAX_WRITE (R504). -/
  | psMaxWrite (pt : Party) (f : Func) (v : BitVec 32)
  /-- LINK_FUNDAMENTAL_RESET (R532). -/
  | linkFundamentalReset (link : Nat)
  /-- PERST_DEASSERT (R534). -/
  | perstDeassert (link : Nat)
  /-- HOT_RESET (R532). -/
  | hotReset (link : Nat)
  /-- FLR (R532). -/
  | flr (f : Func)
  /-- FLR_COMPLETE (R534). -/
  | flrComplete (f : Func)
  /-- VF_ENABLE_SET (R551). -/
  | vfEnableSet (link : Nat)
  /-- VF_ENABLE_CLEAR (R553). -/
  | vfEnableClear (link : Nat)
  /-- LINK_UP (R535). -/
  | linkUp (link rate width : Nat) (flit : Bool)
  /-- LINK_DOWN (R538). -/
  | linkDown (link : Nat)
  /-- BME_CLEAR (R523). -/
  | bmeClear (f : Func)
  /-- BME_SET (R525). -/
  | bmeSet (f : Func)
  /-- COMPLETION_TIMEOUT (R528). -/
  | completionTimeout (id : Nat)
  /-- LATE_COMPLETION (R528). -/
  | lateCompletion (id : Nat)
  /-- POISONED_COMPLETION (R529). -/
  | poisonedCompletion (c : BadCpl)
  /-- INVALIDATE_REQUEST (R531). -/
  | invalidateRequest (f : Func) (itag addr : Nat)
  /-- UNSUPPORTED_REQUEST (R513). -/
  | unsupportedRequest (q : Inbound)
  /-- APERTURE_ACCESS (R522). -/
  | apertureAccess (link off : Nat) (data : Option (BitVec 64))
  /-- CONFIG_WRITE (R518). -/
  | configWrite (link : Nat) (reg : CfgReg) (v : BitVec 32)
  /-- VFM_GRANT (R544). -/
  | vfmGrant (r : Nat)
  /-- VFM_QUIESCE (R552). -/
  | vfmQuiesce (r : Nat)
  /-- VF_QUIESCED (R552). -/
  | vfQuiesced (f : Func)
  /-- VFM_RESUME (R551). -/
  | vfmResume (r : Nat)
  /-- VFM_DIRTY_START (R555). -/
  | vfmDirtyStart (r : Nat)
  /-- VFM_DIRTY_HARVEST (R557). -/
  | vfmDirtyHarvest (r : Nat)
  /-- HARVEST_DONE (R557). -/
  | harvestDone (f : Func)
  /-- VFM_DIRTY_STOP (R558). -/
  | vfmDirtyStop (r : Nat)
  /-- VFM_INFO (R540). -/
  | vfmInfo (r : Nat)
  /-- VF_MBX_SEND (R550). -/
  | vfMbxSend (f : Func) (v : BitVec 32)
  /-- VF_MBX_ACK (R550). -/
  | vfMbxAck (f : Func) (v : BitVec 32)
  /-- VFM_MBX_SEND (R550). -/
  | vfmMbxSend (pt : Party) (link : Nat) (v : BitVec 32)
  /-- VFM_MBX_ACK (R550). -/
  | vfmMbxAck (pt : Party) (link : Nat) (v : BitVec 32)
  /-- PORT_LINK_UP (R567). -/
  | portLinkUp (port : Nat)
  /-- PORT_LINK_FAULT (R567). -/
  | portLinkFault (port : Nat) (kind : LinkFault)
  /-- TRAINING_TIMEOUT (R567). -/
  | trainingTimeout (port : Nat)
  /-- PORT_ENABLE (R567). -/
  | portEnable (port : Nat)
  /-- PORT_DISABLE (R567). -/
  | portDisable (port : Nat)
  /-- MODPRS_CHANGE (R569). -/
  | modprsChange (port : Nat) (present : Bool)
  /-- MODINT_ASSERT (R569). -/
  | modintAssert (port : Nat)
  /-- FORCE_RECAL (R614). -/
  | forceRecal (pt : Party) (quad lane : Nat) (v : BitVec 32)
  /-- HEARTBEAT (R583). -/
  | heartbeat (alt : Bool)
  /-- ACK (R577). -/
  | ack (alt : Bool)
  /-- ROLE (R590). -/
  | role (alt : Bool)
  /-- RETRANSMIT (R579). -/
  | retransmit (stream : Nat)
  /-- SWITCH (R590). -/
  | switchRole (pt : Party) (v : BitVec 32)
  /-- FORCE (R590). -/
  | forceRole (pt : Party) (v : BitVec 32)
  /-- GROUP_KIND_WRITE (R582). -/
  | groupKindWrite (pt : Party) (g : Nat) (v : BitVec 32)
  /-- FW_INFO (R607). -/
  | fwInfo (r : Nat)
  /-- FW_STAGE (R604). -/
  | fwStage (r : Nat)
  /-- FW_ACTIVATE (R605). -/
  | fwActivate (r : Nat)
  /-- FW_ROLLBACK_COMMIT (R607). -/
  | fwRollbackCommit (r : Nat)
  /-- DEBUG_UNLOCK (R609). -/
  | debugUnlock (r : Nat)
  /-- DEBUG_LOCK (R609). -/
  | debugLock (r : Nat)
  /-- REBOOT (R600). -/
  | reboot (pt : Party) (v : BitVec 32)
  /-- FLASH_READ (R615). -/
  | flashRead (pt : Party) (v : BitVec 32)
  /-- FLASH_PROGRAM (R615). -/
  | flashProgram (pt : Party) (v : BitVec 32)
  /-- FLASH_ERASE (R615). -/
  | flashErase (pt : Party) (v : BitVec 32)
  /-- UNCORRECTABLE_ERROR (R610). -/
  | uncorrectableError (u : FaultUnit)
  /-- TRANSIT_BOUND_EXCEEDED (R127). -/
  | transitBoundExceeded (p : Nat)
  /-- ENGINE_NO_PROGRESS (R610). -/
  | engineNoProgress (e : Nat)
  /-- LANE_BOUND_EXCEEDED (R610). -/
  | laneBoundExceeded (cluster lane : Nat)
  /-- WATCHDOG_EXPIRE (R610). -/
  | watchdogExpire (c : Nat)
  /-- JUDGE_WINDOW (R619). -/
  | judgeWindow (iosc : Nat)
  /-- VIN_OUT_OF_RANGE (R628). -/
  | vinOutOfRange (mv : Nat)
  /-- IIN_WINDOW (R628). -/
  | iinWindow (ma : Nat)
  /-- TJ_WARN (R634). -/
  | tjWarn (tj : Int)
  /-- THERMAL_TRIP (R633). -/
  | thermalTrip (tj : Int)
  /-- DOMAIN_OFF (R637). -/
  | domainOff (pt : Party) (v : BitVec 32)
  /-- LEAT_WITHDRAW_EXPIRE (R637). -/
  | leatWithdrawExpire (p : Nat)
  /-- DOMAIN_ON (R638). -/
  | domainOn (pt : Party) (v : BitVec 32)
  /-- SAMPLE_PRELOAD (R663). -/
  | samplePreload (cells : List Bool)
  /-- REG_ACCESS (R665). -/
  | regAccess (dr : BitVec 62)
  /-- MB_TRANSFER (R656). -/
  | mbTransfer (bus : Nat) (offset : BitVec 8) (len : Nat) (extra : Bool)
  /-- DYNAMIC_ADDRESS_ASSIGN (R656). -/
  | dynamicAddressAssign (bus : Nat) (addr : BitVec 7)
  /-- UART_RX (R657). -/
  | uartRx (b : Byte)
  /-- DRP_PRESENCE_CHANGE (R477). -/
  | drpPresenceChange (j : Nat) (present : Bool)
  /-- VIN_RETURN_TO_RANGE (R628). -/
  | vinReturnToRange (mv : Nat)
  /-- SLEW_DONE (R85). -/
  | slewDone
  /-- ABSORB_DONE (R83). -/
  | absorbDone
  /-- HOLDOVER_TIMEOUT (R91). -/
  | holdoverTimeout
  /-- HOLD_LIMIT_EXPIRE (R93). -/
  | holdLimitExpire
  /-- STAGE_OPEN (R137). -/
  | stageOpen
  /-- DISTRIBUTE (R236). -/
  | distribute
  /-- LRN_FRAME_SEND (R341). -/
  | lrnFrameSend
  /-- LRN_FRAME_RECEIVE (R345). -/
  | lrnFrameReceive
  /-- LRN_RESYNC_REQUEST (R348). -/
  | lrnResyncRequest
  /-- ZEROISE_DONE (R430). -/
  | zeroiseDone
  /-- KEY_LOAD_DATA_EXPIRE (R428). -/
  | keyLoadDataExpire
  /-- ENT_RECOVERED (R423). -/
  | entRecovered
  /-- MIRROR_FRAME (R579). -/
  | mirrorFrame
  /-- PARTNER_LOST (R583). -/
  | partnerLost
  /-- ACTIVATION_COMPLETE (R605). -/
  | activationComplete
  /-- ACT_DEFERRED (R606). -/
  | actDeferred
  /-- FLASH_DONE (R615). -/
  | flashDone
  /-- BOOT_COMPLETE (R599). -/
  | bootComplete
  /-- REF_ACCEPTED (R620). -/
  | refAccepted
  /-- REF_LOST (R624). -/
  | refLost
  /-- BROWN_OUT (R628). -/
  | brownOut
  /-- VIO_FAULT (R629). -/
  | vioFault
  /-- DOMAIN_OFF_COMPLETE (R637). -/
  | domainOffComplete
  /-- DOMAIN_ON_COMPLETE (R638). -/
  | domainOnComplete
  /-- POR (R640). -/
  | por
  /-- DEVICE_RESET (R640). -/
  | deviceReset
  /-- IDCODE (R663). -/
  | idcode
  /-- EXTEST (R664). -/
  | extest
  /-- EXTEST_PULSE (R664). -/
  | extestPulse
  /-- EXTEST_TRAIN (R664). -/
  | extestTrain
  /-- HIGHZ (R663). -/
  | highz
  /-- CLAMP (R663). -/
  | clamp
  /-- BYPASS (R663). -/
  | bypass
  /-- PLL_LOCK_TIMEOUT (R620). -/
  | pllLockTimeout
  /-- REF_EDGES_RESUME (R626). -/
  | refEdgesResume
  /-- SYS_RST_N_RELEASE (R641). -/
  | sysRstNRelease
  /-- ACTIVATION_RETRY (R606). -/
  | activationRetry
  /-- PAIR_LINK_FRAMES_LOST (R583). -/
  | pairLinkFramesLost
deriving DecidableEq, Repr

end Sys2Proof
end

