-- ==== Sys2Proof/Decode.lean ====
section
/-! DEFINITION. The decoder of the rows of the command table that give bits.  No row of this hardware's table gives any,
so no word spells a command. -/

namespace Sys2Proof

/-- The command a word of `nbits` bits spells by the table: none, as no row has bits. -/
def decodeTableWord (_nbits _w : Nat) : Option Instr := none

end Sys2Proof
end

