-- ==== Sys2Proof/Config.lean ====
section
/-! DEFINITION. What the manual fixes per device and what it leaves open: constants and functions without a body, so that
no proof can lean on a value of theirs. -/

namespace Sys2Proof.Config

/-- SYS_SERIAL of the device, from OTP (R71). [log 15: DESIGN CHOICE] -/
opaque serial : DWord

/-- SYS_MAC_BASE of the device, from OTP (R71). -/
opaque macBase : BitVec 48

/-- The IP addresses of the fantail's messages on network port `n`, which the manual gives nowhere (R96).
[log 179: DESIGN CHOICE] -/
opaque ftIp4 : Nat → BitVec 32

/-- The same for UDP/IPv6. -/
opaque ftIp6 : Nat → BitVec 128

/-- Output of the entropy source, an input of the device in the sense of R3: the 32 bits of draw `n`. -/
opaque entropy : Nat → BitVec 32

/-- Values the manual leaves to the device, one for each draw: slews and rates the fantail chooses (R91, R99), choices
among allowed orders. [log 10: DESIGN CHOICE] -/
opaque free : Nat → Nat

/-- The header of the transaction that header log `n` of AER takes, which no command of the model carries (R517).
[log 221: DESIGN CHOICE] -/
opaque tlpHeader : Nat → BitVec 128

/-- What a lane of a quad finds while its link trains, by boundary count: signal and lock (R573).  Free. [log 84: DEDUCED] -/
opaque laneFound (bounds quad lane : Nat) : BitVec 2

/-- The public key of Talmund key `i`, whose hash is held in OTP (R597). [log 150: DESIGN CHOICE] -/
opaque signerKey : Nat → Nat × Nat

/-- Talmund key `i` is held in OTP and has not been revoked there (R598). -/
opaque signerHeld : Nat → Bool

end Sys2Proof.Config
end

