-- ==== Sys2Proof/Machine/Bytes.lean ====
section
/-! DEFINITION. Byte strings, bit fields, the CRC-32C of R234 and the ones-complement sum of the IP checksums. -/

namespace Sys2Proof.Machine

/-- Bits `lo` to `lo + len - 1` of `v`. -/
def bitsOf (v lo len : Nat) : Nat := v / 2 ^ lo % 2 ^ len

/-- Bit `i` of `v`. -/
def bitOf (v i : Nat) : Bool := v / 2 ^ i % 2 = 1

/-- `v` with the field of `len` bits at `lo` replaced. -/
def putBits (v lo len x : Nat) : Nat :=
  v / 2 ^ (lo + len) * 2 ^ (lo + len) + x % 2 ^ len * 2 ^ lo + v % 2 ^ lo

/-- 1 for true. -/
def b2n (b : Bool) : Nat := if b then 1 else 0

/-- A byte from a number. -/
def byteN (n : Nat) : Byte := BitVec.ofNat 8 n

/-- The number of a little-endian byte string. -/
def leNat : List Byte → Nat
  | [] => 0
  | b :: r => b.toNat + 256 * leNat r

/-- The number of a big-endian byte string. -/
def beNat (bs : List Byte) : Nat := bs.foldl (fun a b => a * 256 + b.toNat) 0

/-- `n` bytes of `v`, least significant first. -/
def toLE : Nat → Nat → List Byte
  | 0, _ => []
  | n + 1, v => byteN v :: toLE n (v / 256)

/-- `n` bytes of `v`, most significant first. -/
def toBE (n v : Nat) : List Byte := (toLE n v).reverse

/-- `n` zero bytes. -/
def zeros (n : Nat) : List Byte := List.replicate n 0

/-- `n` bytes of `bs` from `off`, zero-padded where `bs` ends. -/
def slice (bs : List Byte) (off n : Nat) : List Byte :=
  let t := (bs.drop off).take n
  t ++ zeros (n - t.length)

/-- Byte `i` of `bs` as a number, 0 past its end. -/
def byteAt (bs : List Byte) (i : Nat) : Nat := ((bs[i]?).getD 0).toNat

/-- The little-endian field of `n` bytes at `off`. -/
def leAt (bs : List Byte) (off n : Nat) : Nat := leNat (slice bs off n)

/-- The big-endian field of `n` bytes at `off`. -/
def beAt (bs : List Byte) (off n : Nat) : Nat := beNat (slice bs off n)

/-- `bs` with `new` written at `off`, as far as `bs` reaches. -/
def splice (bs : List Byte) (off : Nat) (new : List Byte) : List Byte :=
  (bs.take off ++ new ++ bs.drop (off + new.length)).take bs.length

/-- A byte string of which the little-endian field of `n` bytes at `off` keeps its lowest `k` bits. -/
def keepBits (bs : List Byte) (off n k : Nat) : List Byte := splice bs off (toLE n (leAt bs off n % 2 ^ k))

/-- `k` bits of the field at bit offset `off`, first bit the most significant, of a byte string (R192). -/
def bitField (bs : List Byte) (off k : Nat) : Nat :=
  let b0 := off / 8
  let nb := (off % 8 + k + 7) / 8
  beNat (slice bs b0 nb) / 2 ^ (nb * 8 - off % 8 - k) % 2 ^ k

/-- `n` rounded up to a multiple of `m`. -/
def roundUp (n m : Nat) : Nat := (n + m - 1) / m * m

/-- `n` divided by `m`, rounded up. -/
def ceilDiv (n m : Nat) : Nat := (n + m - 1) / m

/-- One bit of the CRC of R234. -/
def crcBit (c : Nat) : Nat := if c % 2 = 1 then (c / 2) ^^^ 0x82F63B78 else c / 2

/-- One byte of the CRC of R234. -/
def crcByte (c : Nat) (d : Byte) : Nat :=
  crcBit (crcBit (crcBit (crcBit (crcBit (crcBit (crcBit (crcBit (c ^^^ d.toNat))))))))

/-- CRC(seed, bytes) of R234. -/
def crc32c (seed : Nat) (bs : List Byte) : Nat := bs.foldl crcByte seed ^^^ 0xFFFFFFFF

/-- The sum of the 16-bit words of a byte string, an odd last byte taken as the high byte of a word. -/
def sum16 : List Byte → Nat
  | [] => 0
  | [a] => a.toNat * 256
  | a :: b :: r => a.toNat * 256 + b.toNat + sum16 r

/-- A sum folded to 16 bits with end-around carry. -/
def fold16 (s : Nat) : Nat :=
  let a := s % 65536 + s / 65536
  let b := a % 65536 + a / 65536
  b % 65536 + b / 65536

/-- The ones-complement checksum of a byte string. -/
def checksum (bs : List Byte) : Nat := 0xFFFF - fold16 (sum16 bs)

/-- The checksum updated under RFC 1624 from the sums of the bytes covered before and after. -/
def checksumUpdate (old sOld sNew : Nat) : Nat :=
  0xFFFF - fold16 ((0xFFFF - old) + (0xFFFF - fold16 sOld) + fold16 sNew)

/-- A checksum that covered `was`, once the bytes are `new`: unchanged where they are the same. -/
def checksumOn (old : Nat) (was new : List Byte) : Nat :=
  if was = new then old else checksumUpdate old (sum16 was) (sum16 new)

/-- A 32-bit word from a number. -/
def w32 (n : Nat) : Word := BitVec.ofNat 32 n

/-- A 64-bit word from a number. -/
def w64 (n : Nat) : DWord := BitVec.ofNat 64 n

/-- 2^32. -/
abbrev p32 : Nat := 4294967296

/-- 2^64. -/
abbrev p64 : Nat := 18446744073709551616

/-- (a - b) mod 2^32. -/
def sub32 (a b : Nat) : Nat := (a % p32 + p32 - b % p32) % p32

/-- Insertion of an entry into a list sorted by `le` (stable). -/
def insertBy {α : Type} (le : α → α → Bool) (x : α) : List α → List α
  | [] => [x]
  | y :: r => if le y x then y :: insertBy le x r else x :: y :: r

/-- A list sorted by `le` (stable). -/
def sortBy {α : Type} (le : α → α → Bool) (l : List α) : List α := l.foldl (fun a x => insertBy le x a) []

/-- The numbers from `a` to `a + n - 1`. -/
def rangeFrom (a : Nat) : Nat → List Nat
  | 0 => []
  | n + 1 => a :: rangeFrom (a + 1) n

/-- The element at index `i` replaced by `f` of it. -/
def modifyAt {α : Type} (f : α → α) : List α → Nat → List α
  | [], _ => []
  | x :: r, 0 => f x :: r
  | x :: r, n + 1 => x :: modifyAt f r n

/-- The first element that satisfies `p`, and the list without it. -/
def takeFirst {α : Type} (p : α → Bool) : List α → Option (α × List α)
  | [] => none
  | x :: r => if p x then some (x, r) else (takeFirst p r).map fun q => (q.1, x :: q.2)

end Sys2Proof.Machine
end

