-- ==== Sys2Proof/Machine/Map.lean ====
section
/-! DEFINITION. Sparse maps in one canonical form: keys strictly rising, no entry equal to the default.  They hold the
register file, HBM, flash and every table of records kept by number. -/

namespace Sys2Proof.Machine

/-- A sparse map from numbers; what an unlisted key reads as is given at each read and write. -/
structure NMap (V : Type) where
  cells : List (Nat × V) := []
deriving DecidableEq, Repr

variable {V : Type}

/-- The value listed at `k`. -/
def cellsFind : List (Nat × V) → Nat → Option V
  | [], _ => none
  | (j, v) :: r, k => if j = k then some v else cellsFind r k

/-- The list without key `k`. -/
def cellsErase : List (Nat × V) → Nat → List (Nat × V)
  | [], _ => []
  | (j, v) :: r, k => if j = k then cellsErase r k else (j, v) :: cellsErase r k

/-- `v` put at key `k` before the first larger key. -/
def cellsInsert : List (Nat × V) → Nat → V → List (Nat × V)
  | [], k, v => [(k, v)]
  | (j, w) :: r, k, v => if k < j then (k, v) :: (j, w) :: r else (j, w) :: cellsInsert r k v

/-- The value at `k`, `d` where nothing is listed. -/
def NMap.getD (m : NMap V) (k : Nat) (d : V) : V := (cellsFind m.cells k).getD d

/-- The listed value at `k`. -/
def NMap.find (m : NMap V) (k : Nat) : Option V := cellsFind m.cells k

/-- The map without key `k`. -/
def NMap.erase (m : NMap V) (k : Nat) : NMap V := ⟨cellsErase m.cells k⟩

/-- The map with `v` at `k`; `d` is what the unlisted key reads as, so writing it lists nothing. -/
def NMap.set [DecidableEq V] (m : NMap V) (k : Nat) (v d : V) : NMap V :=
  if v = d then ⟨cellsErase m.cells k⟩ else ⟨cellsInsert (cellsErase m.cells k) k v⟩

/-- The map with `v` listed at `k` whatever `v` is (maps without a default). -/
def NMap.put (m : NMap V) (k : Nat) (v : V) : NMap V := ⟨cellsInsert (cellsErase m.cells k) k v⟩

/-- The listed keys, rising. -/
def NMap.keys (m : NMap V) : List Nat := m.cells.map (·.1)

/-- The listed values in the order of their keys. -/
def NMap.values (m : NMap V) : List V := m.cells.map (·.2)

/-- The listed entries that satisfy `p`. -/
def NMap.filter (m : NMap V) (p : Nat → V → Bool) : NMap V := ⟨m.cells.filter fun c => p c.1 c.2⟩

/-- Every listed value replaced. -/
def NMap.mapVal (m : NMap V) (f : Nat → V → V) : NMap V := ⟨m.cells.map fun c => (c.1, f c.1 c.2)⟩

/-- The canonical form: keys strictly rising and no entry equal to the default of its key. -/
abbrev NMap.wf [DecidableEq V] (m : NMap V) (d : Nat → V) : Prop :=
  (m.cells.map (·.1)).Pairwise (· < ·) ∧ ∀ c ∈ m.cells, c.2 ≠ d c.1

end Sys2Proof.Machine
end

