-- ==== Sys2Proof/Machine/Pages.lean ====
section
/-! DEFINITION. The BAR0 page map (R73), the parts of a page (R48, R49, R59) and the form of a register row. -/

namespace Sys2Proof.Machine

/-- The block kinds of the page map (R73); BLK global and the BLK engines are told apart. -/
inductive Blk where
  | sys | clk | pwr | tim | trn | ent | sec | obs | fwc | hif | vfm | mac | sds | prl | drp | dst | prs | cls | act
  | hsh | pat | tbl | lrn | mpd | gov | egr | cip | key | blkg | blke | qrn | rng | hbm
deriving DecidableEq, Repr

/-- One line of the page map: the first offset, the block, its code, instances, the distance of two instances,
pages for each instance (R73). -/
structure PageRow where
  base : Nat
  blk : Blk
  code : Nat
  insts : Nat := 1
  stride : Nat := 0x10000
  pages : Nat := 1
deriving DecidableEq, Repr

/-- The BAR0 page map of R73. -/
def pageMap : List PageRow :=
  [{ base := 0x00000000, blk := .sys, code := 0x01 },
   { base := 0x00010000, blk := .clk, code := 0x02 },
   { base := 0x00020000, blk := .pwr, code := 0x03 },
   { base := 0x00030000, blk := .tim, code := 0x04 },
   { base := 0x00040000, blk := .trn, code := 0x05 },
   { base := 0x00050000, blk := .ent, code := 0x06 },
   { base := 0x00060000, blk := .sec, code := 0x07 },
   { base := 0x00070000, blk := .obs, code := 0x08 },
   { base := 0x00080000, blk := .fwc, code := 0x09, stride := 0x40000, pages := 4 },
   { base := 0x00100000, blk := .hif, code := 0x0A, insts := 2 },
   { base := 0x00120000, blk := .vfm, code := 0x0B, insts := 2, stride := 0x80000, pages := 8 },
   { base := 0x00300000, blk := .mac, code := 0x0C, insts := 4 },
   { base := 0x00340000, blk := .sds, code := 0x0D, stride := 0x80000, pages := 8 },
   { base := 0x003C0000, blk := .prl, code := 0x0E },
   { base := 0x003D0000, blk := .drp, code := 0x0F },
   { base := 0x00400000, blk := .dst, code := 0x10 },
   { base := 0x01000000, blk := .prs, code := 0x11, insts := 8, stride := 0x100000, pages := 4 },
   { base := 0x01040000, blk := .cls, code := 0x12, insts := 8, stride := 0x100000, pages := 4 },
   { base := 0x01080000, blk := .act, code := 0x13, insts := 8, stride := 0x100000, pages := 4 },
   { base := 0x010C0000, blk := .hsh, code := 0x14, insts := 8, stride := 0x100000, pages := 1 },
   { base := 0x010D0000, blk := .pat, code := 0x15, insts := 8, stride := 0x100000, pages := 2 },
   { base := 0x02000000, blk := .tbl, code := 0x16, stride := 0x100000, pages := 16 },
   { base := 0x02100000, blk := .lrn, code := 0x17, stride := 0x20000, pages := 2 },
   { base := 0x02200000, blk := .mpd, code := 0x18 },
   { base := 0x02210000, blk := .gov, code := 0x19, stride := 0x40000, pages := 4 },
   { base := 0x02260000, blk := .egr, code := 0x1A, stride := 0x40000, pages := 4 },
   { base := 0x03000000, blk := .cip, code := 0x1B, insts := 3, stride := 0x40000, pages := 4 },
   { base := 0x03100000, blk := .key, code := 0x1C, stride := 0x20000, pages := 2 },
   { base := 0x04000000, blk := .blkg, code := 0x1D, stride := 0x40000, pages := 4 },
   { base := 0x04040000, blk := .blke, code := 0x1D, insts := 4, stride := 0x40000, pages := 4 },
   { base := 0x04200000, blk := .qrn, code := 0x1E, stride := 0x40000, pages := 4 },
   { base := 0x05000000, blk := .rng, code := 0x1F, stride := 0x400000, pages := 64 },
   { base := 0x06000000, blk := .hbm, code := 0x20, insts := 4 }]

/-- A place in the page map: the block, its code, the instance, the page index in the instance, the BAR0 offset of
the instance and of the page, and the offset in the page. -/
structure Loc where
  blk : Blk
  code : Nat
  inst : Nat
  page : Nat
  pages : Nat
  instBase : Nat
  pageBase : Nat
  off : Nat
deriving DecidableEq, Repr

/-- The place of `off` in one line of the page map. -/
def PageRow.loc (r : PageRow) (off : Nat) : Option Loc :=
  let d := off - r.base
  let i := d / r.stride
  let q := d % r.stride
  if r.base ≤ off ∧ i < r.insts ∧ q < r.pages * 0x10000 then
    some { blk := r.blk, code := r.code, inst := i, page := q / 0x10000, pages := r.pages,
           instBase := r.base + i * r.stride, pageBase := off - q % 0x10000, off := q % 0x10000 }
  else none

/-- The place of a BAR0 offset; none outside every page (R48). -/
def locIn : List PageRow → Nat → Option Loc
  | [], _ => none
  | r :: rs, off => match r.loc off with
    | some l => some l
    | none => locIn rs off

/-- The place of a BAR0 offset in the page map (R73). -/
def locate (off : Nat) : Option Loc := locIn pageMap off

/-- The first BAR0 offset of an instance of a block. -/
def blkBase (b : Blk) (i : Nat) : Nat :=
  match pageMap.find? (fun r => r.blk = b) with
  | some r => r.base + i * r.stride
  | none => 0

/-- The instance field of PG_ID (R73): BLK global shows 0xFF, BLK engine e shows e. -/
def instField (b : Blk) (i : Nat) : Nat := if b = .blkg then 0xFF else i

/-- The power domain of the block-specific registers of a page (R73); the pages of SDS lie in several domains. -/
def blkDomain (b : Blk) (i page : Nat) : Nat :=
  match b with
  | .mac => 27 + i
  | .sds => 27 + page / 2
  | .prl => 31
  | .drp => 32
  | .prs | .cls | .act => 1 + i
  | .pat => 9 + i
  | .cip => 17 + i
  | .blke => 20 + i
  | _ => 0

/-- PG_CTRL.ENABLE resets to 1 for these blocks (R52). -/
def blkEnabledAtReset : Blk → Bool
  | .sys | .clk | .pwr | .tim | .trn | .ent | .sec | .fwc | .hif | .hbm => true
  | _ => false

/-- Blocks of which ENABLE = 0 is a reserved encoding (R53). -/
def blkAlwaysEnabled : Blk → Bool
  | .sys | .clk | .pwr | .sec => true
  | _ => false

/-- A field of a register with reserved encodings: its low bit, its length, the least and the greatest value that is
not reserved, and whether 0 is not reserved either. -/
structure FieldRange where
  lo : Nat
  len : Nat
  min : Nat
  max : Nat
  zeroOk : Bool := false
deriving DecidableEq, Repr

/-- A row of a page listing: `off` in the block instance (page index times 0x10000 included), an array of `n` by `n2`
registers, 8 B or 4 B, turn-latched or not, the bits a write replaces (`rw`), clears with 1 (`w1c`) or sets with 1
(`w1s`), write-only, bits that must be zero, reserved encodings, the reset value, `need8` for registers that only an
8 B access writes (R81), and the distance to the snapshot register (R146; 0: not snapshotted).  A row with no bit to
write that is not write-only is read-only. -/
structure RegRow where
  off : Nat
  n : Nat := 1
  stride : Nat := 0
  n2 : Nat := 1
  stride2 : Nat := 0
  w64 : Bool := false
  tl : Bool := false
  rw : Nat := 0
  w1c : Nat := 0
  w1s : Nat := 0
  wo : Bool := false
  must0 : Nat := 0
  reset : Nat := 0
  need8 : Bool := false
  snap : Nat := 0
  ranges : List FieldRange := []
deriving DecidableEq, Repr

/-- A row is read-only. -/
def RegRow.readOnly (r : RegRow) : Bool := !r.tl && !r.wo && r.rw = 0 && r.w1c = 0 && r.w1s = 0

/-- Bytes of one register of the row. -/
def RegRow.bytes (r : RegRow) : Nat := if r.w64 then 8 else 4

/-- The start of the register of the row that holds offset `x`, if one does. -/
def RegRow.hit (r : RegRow) (x : Nat) : Option Nat :=
  let d := x - r.off
  let i := if r.n ≤ 1 then 0 else d / r.stride
  let d2 := d - i * r.stride
  let j := if r.n2 ≤ 1 then 0 else d2 / r.stride2
  let e := d2 - j * r.stride2
  if r.off ≤ x ∧ i < r.n ∧ j < r.n2 ∧ e < r.bytes then some (r.off + i * r.stride + j * r.stride2) else none

/-- The first row that holds offset `x`, with the start of the register. -/
def rowAt : List RegRow → Nat → Option (RegRow × Nat)
  | [], _ => none
  | r :: rs, x => match r.hit x with
    | some a => some (r, a)
    | none => rowAt rs x

end Sys2Proof.Machine
end

