-- ==== Sys2Proof/Machine/RegTable.lean ====
section
/-! DEFINITION. The registers of every block, row by row as the page listings of the chapters give them: offset
within the block instance, arrays, width, access, reset value, bits that take what is written, bits that must be
zero (R672), fields with reserved encodings (R20), and where a snapshot of a counter goes (R146). -/

namespace Sys2Proof.Machine

/-- Registers of sys (R71). -/
def rowsSys : List RegRow :=
  [

   -- SYS_ID
    { off := 0x100, reset := 0x940B000 },
   -- SYS_COMPAT
    { off := 0x104, reset := 1 },
   -- SYS_SERIAL
    { off := 0x108, w64 := true },
   -- SYS_MAC_BASE
    { off := 0x110, w64 := true },
   -- SYS_OWNER
    { off := 0x120, rw := 3, reset := 2 },
   -- SYS_DEVICE_ID
    { off := 0x128, tl := true, rw := 0x3FFF },
   -- SYS_INT_SUMMARY
    { off := 0x200 },
   -- SYS_INT_MISROUTE
    { off := 0x204, w1c := 1 },
   -- SYS_INT_BLOCK[c]
    { off := 0x300, n := 32, stride := 8, w64 := true }]

/-- Registers of clk (R643). -/
def rowsClk : List RegRow :=
  [

   -- CLK_STATUS
    { off := 0x100 },
   -- CLK_JUDGE_LAST
    { off := 0x104 },
   -- CLK_JUDGE_FAILS
    { off := 0x108 },
   -- CLK_REF_LOSSES
    { off := 0x10C },
   -- CLK_LOSS_TURN
    { off := 0x110, w64 := true }]

/-- Registers of pwr (R646). -/
def rowsPwr : List RegRow :=
  [

   -- PWR_STATUS
    { off := 0x100 },
   -- PWR_VIN
    { off := 0x104 },
   -- PWR_IIN
    { off := 0x108 },
   -- PWR_TJ
    { off := 0x10C },
   -- PWR_ALERT_EN
    { off := 0x110, rw := 0x7F, reset := 0x3F },
   -- PWR_TJ_WARN
    { off := 0x114, rw := 0xFFFF, reset := 0x5F0, ranges := [⟨0, 16, 0, 0x6E0, false⟩] },
   -- PWR_SW_CMD
    { off := 0x120, rw := 0x33F, wo := true },
   -- PWR_SW_RESULT
    { off := 0x124 },
   -- PWR_DOMAIN_ON
    { off := 0x128, w64 := true, reset := 1 },
   -- PWR_DOMAIN_FENCED
    { off := 0x130, w64 := true },
   -- PWR_THROTTLE_TURNS
    { off := 0x200, w64 := true, snap := 0x400 },
   -- PWR_THROTTLE_TURNS_SNAP
    { off := 0x600, w64 := true }]

/-- Registers of tim (R88, R110, R114). -/
def rowsTim : List RegRow :=
  [

   -- TIM_CTRL
    { off := 0x100, rw := 1, w1s := 2 },
   -- TIM_STATUS
    { off := 0x104, reset := 4 },
   -- TIM_HOLD_TIMEOUT
    { off := 0x108, rw := 0xFFFFFF, reset := 0x3D0900, ranges := [⟨0, 24, 0x3E8, 0xFFFFFF, false⟩] },
   -- TIM_HOLD_LIMIT
    { off := 0x10C, rw := 0xFFFFFFFF, reset := 0xE10 },
   -- TIM_NOW0
    { off := 0x110, w64 := true },
   -- TIM_NOW1
    { off := 0x118, w64 := true },
   -- TIM_INCR
    { off := 0x120, w64 := true, rw := 0x3FFFFFFFF, reset := 0x100000000, ranges := [⟨0, 34, 0x80000000, 0x180000000, false⟩] },
   -- TIM_STEP
    { off := 0x128, w64 := true, rw := 0xFFFFFFFFFFFFFFFF, wo := true, need8 := true },
   -- TIM_STEP_REMAIN
    { off := 0x130, w64 := true },
   -- TIM_SLEW_INCR
    { off := 0x138, w64 := true, rw := 0x3FFFFFFFF, reset := 0x100000000, ranges := [⟨0, 34, 0x80000000, 0x180000000, false⟩] },
   -- TIM_SLEW_CYCLES
    { off := 0x140, rw := 0xFFFFFFFF },
   -- TIM_LOAD0
    { off := 0x148, w64 := true, rw := 0xFFFFFFFF3FFFFFFF, wo := true, need8 := true },
   -- TIM_LOAD1
    { off := 0x150, rw := 0xFFFF, wo := true },
   -- TIM_SERVO_KICK
    { off := 0x154, rw := 1, wo := true },
   -- TIM_FT_CTRL
    { off := 0x160, rw := 0x7F7F, reset := 0xF, ranges := [⟨4, 2, 0, 2, false⟩] },
   -- TIM_FT_LOCK_NS
    { off := 0x164, rw := 0xFFFF, reset := 0x64, ranges := [⟨0, 16, 0xA, 0xFFFF, false⟩] },
   -- TIM_FT_SLEW_MAX
    { off := 0x168, rw := 0x3FF, reset := 0x64, ranges := [⟨0, 10, 1, 0x3E8, false⟩] },
   -- TIM_FT_OFFSET
    { off := 0x170, w64 := true },
   -- TIM_FT_MASTER
    { off := 0x178, w64 := true },
   -- TIM_TPO_CTRL[n]
    { off := 0x200, n := 8, stride := 0x20, rw := 0xFFFF0007 },
   -- TIM_TPO_WIDTH[n]
    { off := 0x204, n := 8, stride := 0x20, rw := 0xFFFFFFFF },
   -- TIM_TPO_START[n]
    { off := 0x208, n := 8, stride := 0x20, w64 := true, rw := 0xFFFFFFFF3FFFFFFF },
   -- TIM_TPO_PERIOD[n]
    { off := 0x210, n := 8, stride := 0x20, w64 := true, rw := 0xFFFFFFFFFFFFFFFF },
   -- TIM_TPO_STATUS[n]
    { off := 0x218, n := 8, stride := 0x20, w1c := 6 },
   -- TIM_TCI_CTRL[n]
    { off := 0x300, n := 4, stride := 0x20, rw := 3 },
   -- TIM_TCI_STATUS[n]
    { off := 0x304, n := 4, stride := 0x20, w1c := 0x100 },
   -- TIM_TCI_DATA0[n]
    { off := 0x308, n := 4, stride := 0x20, w64 := true },
   -- TIM_TCI_DATA1[n]
    { off := 0x310, n := 4, stride := 0x20, w64 := true }]

/-- Registers of trn (R148). -/
def rowsTrn : List RegRow :=
  [

   -- TRN_PERIOD
    { off := 0x100, rw := 7, reset := 1, ranges := [⟨0, 3, 0, 4, false⟩] },
   -- TRN_STATUS
    { off := 0x104, reset := 0x11 },
   -- TRN_BUDGET
    { off := 0x108, reset := 0xA00 },
   -- TRN_NOW
    { off := 0x110, w64 := true },
   -- TRN_STEP_SKIPPED
    { off := 0x118, w64 := true },
   -- TRN_EPOCH_CTRL
    { off := 0x120, tl := true, rw := 0x10F },
   -- TRN_EPOCH_ACTIVE_AT
    { off := 0x128, w64 := true },
   -- TRN_EPOCH_RETAIN_END
    { off := 0x130, w64 := true },
   -- TRN_EPOCH_COUNT
    { off := 0x138 },
   -- TRN_SNAP_AT
    { off := 0x140, w64 := true, tl := true, rw := 0xFFFFFFFFFFFFFFFF },
   -- TRN_SNAP_CTRL
    { off := 0x148, tl := true, rw := 1 },
   -- TRN_SNAP_TURN
    { off := 0x150, w64 := true },
   -- TRN_SNAP_SEQ
    { off := 0x158 },
   -- TRN_COMMIT_AT[g]
    { off := 0x200, n := 16, stride := 0x10, w64 := true, tl := true, rw := 0xFFFFFFFFFFFFFFFF },
   -- TRN_COMMIT_CTRL[0]
    { off := 0x208, tl := true, rw := 3, ranges := [⟨1, 1, 0, 0, false⟩] },
   -- TRN_COMMIT_CTRL[g], g = 1 to 15
    { off := 0x218, n := 15, stride := 0x10, tl := true, rw := 3, reset := 2 },
   -- TRN_COMMIT_LAST[g]
    { off := 0x300, n := 16, stride := 0x10, w64 := true },
   -- TRN_COMMIT_STATUS[g]
    { off := 0x308, n := 16, stride := 0x10, w1c := 3 }]

/-- Registers of ent (R425). -/
def rowsEnt : List RegRow :=
  [

   -- ENT_STATUS
    { off := 0x100 },
   -- ENT_RESEED
    { off := 0x104, rw := 0x1FFFFF, reset := 0x10000, ranges := [⟨0, 21, 1, 0x100000, false⟩] },
   -- ENT_RAND
    { off := 0x108, w64 := true },
   -- ENT_RCT_FAIL
    { off := 0x110, w64 := true },
   -- ENT_APT_FAIL
    { off := 0x118, w64 := true }]

/-- Registers of sec (R617). -/
def rowsSec : List RegRow :=
  [

   -- SEC_DEBUG_STATE
    { off := 0x100 },
   -- SEC_DEBUG_CHALLENGE
    { off := 0x110, n := 4, stride := 4 }]

/-- Registers of obs (R668). -/
def rowsObs : List RegRow :=
  [

   -- OBS_CTRL
    { off := 0x100, rw := 3 },
   -- OBS_SEL
    { off := 0x104, rw := 0xFFF },
   -- OBS_STATUS
    { off := 0x108 }]

/-- Registers of fwc (R615). -/
def rowsFwc : List RegRow :=
  [

   -- FWC_STATUS
    { off := 0x100 },
   -- FWC_VERSION
    { off := 0x104 },
   -- FWC_EVT
    { off := 0x108, rw := 0x8000FFFF },
   -- FWC_CTRL
    { off := 0x10C, rw := 1, wo := true },
   -- FWC_FLASH_ADDR
    { off := 0x10100, rw := 0x3FFFFC0, must0 := 0x3F },
   -- FWC_FLASH_CMD
    { off := 0x10104, rw := 7, wo := true },
   -- FWC_FLASH_STATUS
    { off := 0x10108 },
   -- FWC_FLASH_DATA[i]
    { off := 0x10140, n := 16, stride := 4, rw := 0xFFFFFFFF }]

/-- Registers of hif (R537). -/
def rowsHif : List RegRow :=
  [

   -- HIF_CFG
    { off := 0x100, reset := 0x31 },
   -- HIF_STATUS
    { off := 0x104 },
   -- HIF_APT_BASE
    { off := 0x108, w64 := true, rw := 0xFFFFFFFFFFFFFFFF },
   -- HIF counters: CPL_TIMEOUT, LATE_CPL, POISONED, STRAY_DB, APT_DENIED, LINK_DOWN, FLR
    { off := 0x200, n := 7, stride := 8, w64 := true, snap := 0x400 },
   -- HIF counters: CPL_TIMEOUT, LATE_CPL, POISONED, STRAY_DB, APT_DENIED, LINK_DOWN, FLR_SNAP
    { off := 0x600, n := 7, stride := 8, w64 := true }]

/-- Registers of vfm (R559). -/
def rowsVfm : List RegRow :=
  [

   -- VFM_STATUS
    { off := 0x100 },
   -- VFM_EVT
    { off := 0x104, rw := 0x8000FFFF },
   -- VFM_PF_WT
    { off := 0x108, rw := 0xFFFF, reset := 0x808, ranges := [⟨0, 8, 1, 0xFF, false⟩, ⟨8, 8, 1, 0xFF, false⟩] },
   -- VFM_VF_SEL
    { off := 0x110, rw := 0xFFF, reset := 1, ranges := [⟨0, 12, 1, 0x800, false⟩] },
   -- VFM_VF_WIN
    { off := 0x140, n := 16, stride := 4 },
   -- VFM_VF_STATE
    { off := 0x180 },
   -- VFM_VF_FLOW_USED
    { off := 0x184 },
   -- VFM_VF_KEY_USED
    { off := 0x188 },
   -- VFM_MBX_PENDING[w]
    { off := 0x200, n := 64, stride := 4 },
   -- VFM_MBX_SEL
    { off := 0x300, rw := 0xFFF, reset := 1 },
   -- VFM_MBX_CMD
    { off := 0x304, rw := 3, wo := true },
   -- VFM_MBX_RX[i]
    { off := 0x340, n := 16, stride := 4 },
   -- VFM_MBX_TX[i]
    { off := 0x380, n := 16, stride := 4, rw := 0xFFFFFFFF },
   -- VFM_EVT_LOST
    { off := 0x400, w64 := true }]

/-- Registers of mac (R104, R411, R570, R571). -/
def rowsMac : List RegRow :=
  [

   -- MAC_CFG
    { off := 0x100, rw := 0x3FFF003F, reset := 0x24000000, ranges := [⟨0, 3, 0, 4, false⟩, ⟨16, 14, 0x5EA, 0x3F00, false⟩] },
   -- MAC_STATUS
    { off := 0x104 },
   -- MAC_UP_HOLD
    { off := 0x108, rw := 0xFFFF, reset := 0x100, ranges := [⟨0, 16, 1, 0xFFFF, false⟩] },
   -- MAC_MOD_CTRL
    { off := 0x10C, rw := 1, reset := 1 },
   -- MAC counter k
    { off := 0x200, n := 14, stride := 8, w64 := true, snap := 0x400 },
   -- MAC counter k_SNAP
    { off := 0x600, n := 14, stride := 8, w64 := true },
   -- MAC_SEC_CTRL
    { off := 0xC00, rw := 7 },
   -- MAC_SEC_TX_SCI
    { off := 0xC08, w64 := true, rw := 0xFFFFFFFFFFFFFFFF },
   -- MAC_SEC_TX_AN
    { off := 0xC10, rw := 3 },
   -- MAC_SEC_TX_SA[a]
    { off := 0xC20, n := 4, stride := 4, rw := 0x801FFFFF },
   -- MAC_SEC counter k
    { off := 0xC40, n := 8, stride := 8, w64 := true, snap := 0x40 },
   -- MAC_SEC counter k_SNAP
    { off := 0xC80, n := 8, stride := 8, w64 := true },
   -- MAC_SEC_RX_SCI[i]
    { off := 0x1000, n := 32, stride := 0x20, w64 := true, rw := 0xFFFFFFFFFFFFFFFF },
   -- MAC_SEC_RX_CTRL[i]
    { off := 0x1008, n := 32, stride := 0x20, rw := 1 },
   -- MAC_SEC_RX_SA[i][a]
    { off := 0x1010, n := 32, stride := 0x20, n2 := 4, stride2 := 4, rw := 0x801FFFFF },
   -- MAC_TS_CTRL
    { off := 0xE00, rw := 3, reset := 2 },
   -- MAC_TS_RING
    { off := 0xE04, rw := 0x8000FFFF },
   -- MAC_TS_LOST
    { off := 0xE08 },
   -- MAC_TS_ING_CORR[s]
    { off := 0xE10, n := 4, stride := 4, rw := 0xFFFFFFFF },
   -- MAC_TS_EGR_CORR[s]
    { off := 0xE20, n := 4, stride := 4, rw := 0xFFFFFFFF }]

/-- Registers of sds (R573). -/
def rowsSds : List RegRow :=
  [

   -- SDS_LANE_STATUS[j] of quad 0
    { off := 0x100, n := 4, stride := 4 },
   -- SDS_LANE_CTRL[j] of quad 0
    { off := 0x120, n := 4, stride := 4, rw := 3, w1s := 0x100 },
   -- SDS_LANE_STATUS[j] of quad 1
    { off := 0x10100, n := 4, stride := 4 },
   -- SDS_LANE_CTRL[j] of quad 1
    { off := 0x10120, n := 4, stride := 4, rw := 3, w1s := 0x100 },
   -- SDS_LANE_STATUS[j] of quad 2
    { off := 0x20100, n := 4, stride := 4 },
   -- SDS_LANE_CTRL[j] of quad 2
    { off := 0x20120, n := 4, stride := 4, rw := 3, w1s := 0x100 },
   -- SDS_LANE_STATUS[j] of quad 3
    { off := 0x30100, n := 4, stride := 4 },
   -- SDS_LANE_CTRL[j] of quad 3
    { off := 0x30120, n := 4, stride := 4, rw := 3, w1s := 0x100 },
   -- SDS_LANE_STATUS[j] of quad 4
    { off := 0x40100, n := 4, stride := 4 },
   -- SDS_LANE_CTRL[j] of quad 4
    { off := 0x40120, n := 4, stride := 4, rw := 3, w1s := 0x100 },
   -- SDS_LANE_STATUS[j] of quad 5
    { off := 0x50100, n := 4, stride := 4 },
   -- SDS_LANE_CTRL[j] of quad 5
    { off := 0x50120, n := 4, stride := 4, rw := 3, w1s := 0x100 },
   -- SDS_LANE_STATUS[j] of quad 6
    { off := 0x60100, n := 4, stride := 4 },
   -- SDS_LANE_CTRL[j] of quad 6
    { off := 0x60120, n := 4, stride := 4, rw := 3, w1s := 0x100 },
   -- SDS_LANE_STATUS[j] of quad 7
    { off := 0x70100, n := 4, stride := 4 },
   -- SDS_LANE_CTRL[j] of quad 7
    { off := 0x70120, n := 4, stride := 4, rw := 3, w1s := 0x100 }]

/-- Registers of prl (R104, R573, R592). -/
def rowsPrl : List RegRow :=
  [

   -- PRL_CFG
    { off := 0x100, rw := 0x3FFF0001 },
   -- PRL_STATUS
    { off := 0x104 },
   -- PRL_ETHERTYPE
    { off := 0x108, rw := 0xFFFF, reset := 0x88B6, ranges := [⟨0, 16, 0x600, 0xFFFF, false⟩] },
   -- PRL_ALT
    { off := 0x10C, rw := 0x80003F03 },
   -- PRL_RETX
    { off := 0x110, rw := 0xFF, reset := 4, ranges := [⟨0, 8, 1, 0xFF, false⟩] },
   -- PRL_BUF_BASE
    { off := 0x118, w64 := true, rw := 0xFFFFFFFFFC000000, must0 := 0x3FFFFFF },
   -- PRL_COMMIT_MASK
    { off := 0x120, rw := 0xFFFE },
   -- PRL_EVT
    { off := 0x124, rw := 0x8000FFFF },
   -- PRL_ROLE_CMD
    { off := 0x128, rw := 0x37, wo := true },
   -- PRL_ROLE_AT
    { off := 0x130, w64 := true, rw := 0xFFFFFFFFFFFFFFFF },
   -- PRL_ROLE_RESULT
    { off := 0x138 },
   -- PRL_GROUP_CFG[g]
    { off := 0x140, n := 8, stride := 4, rw := 0xFFFF001F },
   -- PRL_GROUP_STATUS[g]
    { off := 0x160, n := 8, stride := 4 },
   -- PRL counter k
    { off := 0x200, n := 8, stride := 8, w64 := true, snap := 0x400 },
   -- PRL counter k_SNAP
    { off := 0x600, n := 8, stride := 8, w64 := true },
   -- SDS_LANE_STATUS[j] of the pair link
    { off := 0x300, n := 4, stride := 4 },
   -- SDS_LANE_CTRL[j] of the pair link
    { off := 0x320, n := 4, stride := 4, rw := 3, w1s := 0x100 },
   -- PRL_TS_CTRL
    { off := 0xE00, rw := 3, reset := 2 },
   -- PRL_TS_RING
    { off := 0xE04, rw := 0x8000FFFF },
   -- PRL_TS_LOST
    { off := 0xE08 },
   -- PRL_TS_ING_CORR[1]
    { off := 0xE14, rw := 0xFFFFFFFF },
   -- PRL_TS_EGR_CORR[1]
    { off := 0xE24, rw := 0xFFFFFFFF }]

/-- Registers of drp (R477). -/
def rowsDrp : List RegRow :=
  [

   -- DRP_CFG
    { off := 0x100, rw := 0x73, reset := 0x60, ranges := [⟨0, 2, 0, 2, false⟩, ⟨4, 3, 1, 6, false⟩] },
   -- DRP_LINK[j]
    { off := 0x110, n := 4, stride := 4 }]

/-- Registers of dst (R185, R244). -/
def rowsDst : List RegRow :=
  [

   -- DST_PP_CTRL
    { off := 0x100, tl := true, rw := 7, reset := 7 },
   -- DST_VXLAN_PORT
    { off := 0x104, tl := true, rw := 0xFFFF, reset := 0x12B5 },
   -- DST_GENEVE_PORT
    { off := 0x108, tl := true, rw := 0xFFFF, reset := 0x17C1 },
   -- DST_HASH_SEED
    { off := 0x110, tl := true, rw := 0xFFFFFFFF, reset := 0xFFFFFFFF },
   -- DST_PIPE_IND[w]
    { off := 0x1000, n := 512, stride := 4, tl := true, rw := 0x77777777, reset := 0x76543210 }]

/-- Registers of prs (R206). -/
def rowsPrs : List RegRow :=
  [

   -- PRS_IMG_SEL
    { off := 0x100, rw := 0x33, ranges := [⟨0, 2, 0, 2, false⟩, ⟨4, 2, 0, 2, false⟩] },
   -- PRS_IMG_INDEX
    { off := 0x104, rw := 0xFFFF },
   -- PRS_IMG_CMD
    { off := 0x108, rw := 3, wo := true },
   -- PRS_IMG_DATA[i]
    { off := 0x140, n := 16, stride := 4, rw := 0xFFFFFFFF },
   -- PRS_EXC_COUNT[c]
    { off := 0x200, n := 12, stride := 8, w64 := true, snap := 0x80 },
   -- PRS_EXC_COUNT[c]_SNAP
    { off := 0x280, n := 12, stride := 8, w64 := true },
   -- PRS_EXC_SUPPRESSED
    { off := 0x300, w64 := true },
   -- PRS_DEST_BAD
    { off := 0x308, w64 := true }]

/-- Registers of cls (R240, R243). -/
def rowsCls : List RegRow :=
  [

   -- CLS_IMG_SEL
    { off := 0x100, rw := 0x37, ranges := [⟨0, 3, 0, 5, false⟩, ⟨4, 2, 0, 2, false⟩] },
   -- CLS_IMG_INDEX
    { off := 0x104, rw := 0xFFFF },
   -- CLS_IMG_CMD
    { off := 0x108, rw := 3, wo := true },
   -- CLS_IMG_DATA[i]
    { off := 0x140, n := 48, stride := 4, rw := 0xFFFFFFFF },
   -- CLS_EXACT_HIT[s]
    { off := 0x10100, n := 12, stride := 0x20, w64 := true, snap := 0x400 },
   -- CLS_EXACT_HIT[s]_SNAP
    { off := 0x10500, n := 12, stride := 0x20, w64 := true },
   -- CLS_TERN_HIT[s]
    { off := 0x10108, n := 12, stride := 0x20, w64 := true, snap := 0x400 },
   -- CLS_TERN_HIT[s]_SNAP
    { off := 0x10508, n := 12, stride := 0x20, w64 := true },
   -- CLS_MISS[s]
    { off := 0x10110, n := 12, stride := 0x20, w64 := true, snap := 0x400 },
   -- CLS_MISS[s]_SNAP
    { off := 0x10510, n := 12, stride := 0x20, w64 := true },
   -- CLS_TABLE_FAULT
    { off := 0x10300, w64 := true },
   -- CLS_LOOKUP_DEFER
    { off := 0x10308, w64 := true },
   -- CLS_ECC_CORRECTED
    { off := 0x10310, w64 := true }]

/-- Registers of act (R278, R280, R281). -/
def rowsAct : List RegRow :=
  [

   -- ACT_IMG_SEL
    { off := 0x100, rw := 0x33, ranges := [⟨0, 2, 0, 2, false⟩, ⟨4, 2, 0, 2, false⟩] },
   -- ACT_IMG_INDEX
    { off := 0x104, rw := 0xFFFF },
   -- ACT_IMG_CMD
    { off := 0x108, rw := 3, wo := true },
   -- ACT_IMG_DATA[i]
    { off := 0x140, n := 20, stride := 4, rw := 0xFFFFFFFF },
   -- ACT_HBM_BASE
    { off := 0x10100, w64 := true, tl := true, rw := 0xFFFFFFFFFFFF0000, must0 := 0xFFFF },
   -- ACT_HBM_CFG
    { off := 0x10108, tl := true, rw := 0x1F, ranges := [⟨0, 5, 0xD, 0x18, true⟩] },
   -- ACT_CNT_BASE
    { off := 0x10110, w64 := true, tl := true, rw := 0xFFFFFFFFFFFF0000, must0 := 0xFFFF },
   -- ACT_CNT_CFG
    { off := 0x10118, tl := true, rw := 0x1F, ranges := [⟨0, 5, 0xA, 0x18, true⟩] },
   -- ACT_DISP[d]
    { off := 0x20100, n := 7, stride := 8, w64 := true, snap := 0x400 },
   -- ACT_DISP[d]_SNAP
    { off := 0x20500, n := 7, stride := 8, w64 := true },
   -- ACT_FAULT[c]
    { off := 0x20140, n := 7, stride := 8, w64 := true, snap := 0x400 },
   -- ACT_FAULT[c]_SNAP
    { off := 0x20540, n := 7, stride := 8, w64 := true },
   -- ACT_IGNORED, ACT_MIRROR_LOST, ACT_DEST_BAD, ACT_ECC_CORRECTED
    { off := 0x20180, n := 4, stride := 8, w64 := true, snap := 0x400 },
   -- ACT_IGNORED, ACT_MIRROR_LOST, ACT_DEST_BAD, ACT_ECC_CORRECTED_SNAP
    { off := 0x20580, n := 4, stride := 8, w64 := true }]

/-- Registers of hsh (R245). -/
def rowsHsh : List RegRow :=
  [

   -- HSH_IND_SEL
    { off := 0x100, rw := 0x11FFF, ranges := [⟨0, 12, 0, 0x800, false⟩] },
   -- HSH_IND_INDEX
    { off := 0x104, rw := 0xFFF },
   -- HSH_IND_CMD
    { off := 0x108, rw := 3, wo := true },
   -- HSH_IND_DATA
    { off := 0x10C, rw := 0xFFFF }]

/-- Registers of pat (R308, R310). -/
def rowsPat : List RegRow :=
  [

   -- PAT_IMG_SEL
    { off := 0x100, rw := 0x33, ranges := [⟨0, 2, 0, 1, false⟩, ⟨4, 2, 0, 2, false⟩] },
   -- PAT_IMG_INDEX
    { off := 0x104, rw := 0xFFFF },
   -- PAT_IMG_CMD
    { off := 0x108, rw := 3, wo := true },
   -- PAT_IMG_DATA[i]
    { off := 0x140, n := 4, stride := 4, rw := 0xFFFFFFFF },
   -- PAT_STREAM_BASE
    { off := 0x10100, w64 := true, tl := true, rw := 0xFFFFFFFFFFFF0000, must0 := 0xFFFF },
   -- PAT_STREAM_CFG
    { off := 0x10108, tl := true, rw := 0x1F, ranges := [⟨0, 5, 0xA, 0x18, true⟩] },
   -- PAT_STREAM_AGE
    { off := 0x1010C, tl := true, rw := 0xFFFFFFFF, reset := 0x1000000, ranges := [⟨0, 32, 1, 0xFFFFFFFF, false⟩] },
   -- PAT_STREAM_SEED0
    { off := 0x10110, tl := true, rw := 0xFFFFFFFF, reset := 0xFFFFFFFF },
   -- PAT_STREAM_SEED1
    { off := 0x10114, tl := true, rw := 0xFFFFFFFF, reset := 0xA5A5A5A5 },
   -- PAT counters: SCANNED, BYTES, MATCHED, CUT, GAP, STREAM_NEW, STREAM_EVICT, STREAM_BUSY, ECC_CORRECTED, STATE_FAULT
    { off := 0x10200, n := 10, stride := 8, w64 := true, snap := 0x400 },
   -- PAT counters: SCANNED, BYTES, MATCHED, CUT, GAP, STREAM_NEW, STREAM_EVICT, STREAM_BUSY, ECC_CORRECTED, STATE_FAULT_SNAP
    { off := 0x10600, n := 10, stride := 8, w64 := true }]

/-- Registers of tbl (R350, R352). -/
def rowsTbl : List RegRow :=
  [

   -- TBL_LEARN_HOLDOFF
    { off := 0x100, rw := 0xFFFFFF, reset := 0x800, ranges := [⟨0, 24, 1, 0xFFFFFF, false⟩] },
   -- TBL_LEARN_SEED
    { off := 0x104, rw := 0xFFFFFFFF, reset := 0xFFFFFFFF },
   -- TBL_SCRUB_HOLD
    { off := 0x108, rw := 0xFFFFFF, reset := 0x10000, ranges := [⟨0, 24, 0x10, 0xFFFFFF, false⟩] },
   -- TBL_CAP_USED
    { off := 0x10C },
   -- TBL_TAB_BASE[t]
    { off := 0x1000, n := 16, stride := 0x40, w64 := true, rw := 0xFFFFFFFFFFFF0000, must0 := 0xFFFF },
   -- TBL_TAB_CFG[t]
    { off := 0x1008, n := 16, stride := 0x40, rw := 0x137F3F, ranges := [⟨16, 2, 0, 2, false⟩] },
   -- TBL_TAB_CTRL[t]
    { off := 0x100C, n := 16, stride := 0x40, rw := 0x3F },
   -- TBL_TAB_SEED0[t]
    { off := 0x1010, n := 16, stride := 0x40, rw := 0xFFFFFFFF, reset := 0xFFFFFFFF },
   -- TBL_TAB_SEED1[t]
    { off := 0x1014, n := 16, stride := 0x40, rw := 0xFFFFFFFF, reset := 0x1EDC6F41 },
   -- TBL_TAB_AGE[t]
    { off := 0x1018, n := 16, stride := 0x40, rw := 0x3FFFFFFF },
   -- TBL_TAB_EVT[t]
    { off := 0x101C, n := 16, stride := 0x40, rw := 0x8000FFFF },
   -- TBL_TAB_SHADOW[t]
    { off := 0x1020, n := 16, stride := 0x40, w64 := true, rw := 0xFFFFFFFFFFFFF000, must0 := 0xFFF },
   -- TBL_TAB_SHADOW_FN[t]
    { off := 0x1028, n := 16, stride := 0x40, rw := 0x1FFF },
   -- TBL_TAB_PACE[t]
    { off := 0x102C, n := 16, stride := 0x40, rw := 0xFFFFFFFF },
   -- TBL_TAB_LEARN_RATE[t]
    { off := 0x1030, n := 16, stride := 0x40, rw := 0xFFFFFFFF, reset := 0x400100 },
   -- TBL_TAB_STATUS[t]
    { off := 0x1034, n := 16, stride := 0x40 },
   -- TBL_TAB_CMD[t]
    { off := 0x1038, n := 16, stride := 0x40, rw := 3, wo := true },
   -- TBL_TAB_ENTRIES[t]
    { off := 0x103C, n := 16, stride := 0x40 },
   -- TBL counters of table t
    { off := 0x10100, n := 16, stride := 0x80, n2 := 15, stride2 := 8, w64 := true, snap := 0x1000 },
   -- TBL counters of table t, snapshots
    { off := 0x11100, n := 16, stride := 0x80, n2 := 15, stride2 := 8, w64 := true }]

/-- Registers of lrn (R354). -/
def rowsLrn : List RegRow :=
  [

   -- LRN_CTRL
    { off := 0x100, rw := 0xFF0F, reset := 8 },
   -- LRN_ETHERTYPE
    { off := 0x104, rw := 0xFFFF, reset := 0x88B5, ranges := [⟨0, 16, 0x600, 0xFFFF, false⟩] },
   -- LRN_DST_MAC
    { off := 0x108, w64 := true, rw := 0xFFFFFFFFFFFF, reset := 0xF2B94000001 },
   -- LRN_PORTS
    { off := 0x110, rw := 0x3F0F0F },
   -- LRN_LEAD_MIN
    { off := 0x114, rw := 0xFFFF, reset := 0x40, ranges := [⟨0, 16, 1, 0xFFFF, false⟩] },
   -- LRN_TX_HOLD
    { off := 0x118, rw := 0xFF, reset := 1, ranges := [⟨0, 8, 1, 0xFF, false⟩] },
   -- LRN_EVT
    { off := 0x11C, rw := 0x8000FFFF },
   -- LRN_RESYNC
    { off := 0x120, rw := 0xFFFFF, reset := 0x30100, ranges := [⟨0, 16, 1, 0xFFFF, false⟩, ⟨16, 4, 1, 0xF, false⟩] },
   -- LRN_MTU
    { off := 0x124, rw := 0x3FFF, reset := 0x5EA, ranges := [⟨0, 14, 0x100, 0x2400, false⟩] },
   -- LRN_TX_SEQ
    { off := 0x128 },
   -- LRN counter k
    { off := 0x10200, n := 13, stride := 8, w64 := true }]

/-- Registers of mpd (R380). -/
def rowsMpd : List RegRow :=
  [

   -- MPD_FREE
    { off := 0x100, reset := 0x100000 },
   -- MPD_WAIT_MAX
    { off := 0x104, rw := 0xFFFF, reset := 0x40, ranges := [⟨0, 16, 1, 0xFFFF, false⟩] },
   -- MPD_SRC_CFG[s]
    { off := 0x200, n := 10, stride := 8, w64 := true, rw := 0x1FFFFF001FFFFF, reset := 0x10000000002000 },
   -- MPD_SRC_USED[s]
    { off := 0x280, n := 10, stride := 4 },
   -- MPD_SLUICE_WT[s], s = 0 to 3
    { off := 0x300, n := 4, stride := 4, tl := true, rw := 0xFF, reset := 8, ranges := [⟨0, 8, 1, 0xFF, false⟩] },
   -- MPD_SLUICE_WT[s], s = 4 to 6
    { off := 0x310, n := 3, stride := 4, tl := true, rw := 0xFF, reset := 4, ranges := [⟨0, 8, 1, 0xFF, false⟩] },
   -- MPD_SLUICE_WT[7]
    { off := 0x31C, tl := true, rw := 0xFF, reset := 2, ranges := [⟨0, 8, 1, 0xFF, false⟩] },
   -- MPD_SLUICE_WT[8]
    { off := 0x320, tl := true, rw := 0xFF, reset := 1, ranges := [⟨0, 8, 1, 0xFF, false⟩] },
   -- MPD_PFC[p] word 0
    { off := 0x400, n := 4, stride := 0x10, rw := 0x7FFFF },
   -- MPD_PFC[p] word 1, XOFF
    { off := 0x404, n := 4, stride := 0x10, rw := 0x1FFFFF, reset := 0x4000, ranges := [⟨0, 21, 0, 0x100000, false⟩] },
   -- MPD_PFC[p] word 2, XON
    { off := 0x408, n := 4, stride := 0x10, rw := 0x1FFFFF, reset := 0x3000, ranges := [⟨0, 21, 0, 0x100000, false⟩] },
   -- MPD_PFC[p] word 3, REFRESH
    { off := 0x40C, n := 4, stride := 0x10, rw := 0xFFFF, reset := 0x10, ranges := [⟨0, 16, 1, 0xFFFF, false⟩] },
   -- MPD_DROP[c]
    { off := 0x800, n := 12, stride := 8, w64 := true, snap := 0x400 },
   -- MPD_DROP[c]_SNAP
    { off := 0xC00, n := 12, stride := 8, w64 := true }]

/-- Registers of gov (R381). -/
def rowsGov : List RegRow :=
  [

   -- GOV_BASE
    { off := 0x100, w64 := true, tl := true, rw := 0xFFFFFFFFFFFF0000, must0 := 0xFFFF },
   -- GOV_CFG
    { off := 0x108, tl := true, rw := 1 },
   -- GOV_ACC_SEL
    { off := 0x110, rw := 0xFFFFF },
   -- GOV_ACC_CMD
    { off := 0x114, rw := 3, wo := true },
   -- GOV_ACC_DATA[i]
    { off := 0x140, n := 8, stride := 4, rw := 0xFFFFFFFF },
   -- GOV counters: GREEN, YELLOW, RED, GOV_DISABLED
    { off := 0x200, n := 4, stride := 8, w64 := true, snap := 0x400 },
   -- GOV counters: GREEN, YELLOW, RED, GOV_DISABLED_SNAP
    { off := 0x600, n := 4, stride := 8, w64 := true },
   -- GOV_UPD[j] word 0 of page 0
    { off := 0x1000, n := 64, stride := 0x20, tl := true, rw := 0x30FFFFF },
   -- GOV_UPD[j] word 1 of page 0
    { off := 0x1004, n := 64, stride := 0x20, tl := true, rw := 0xFFFFFFFF },
   -- GOV_UPD[j] word 2 of page 0
    { off := 0x1008, n := 64, stride := 0x20, tl := true, rw := 0xFFFFFFFF },
   -- GOV_UPD[j] word 3 of page 0
    { off := 0x100C, n := 64, stride := 0x20, tl := true, rw := 0xFFFFFF },
   -- GOV_UPD[j] word 4 of page 0
    { off := 0x1010, n := 64, stride := 0x20, tl := true, rw := 0xFFFFFF },
   -- GOV_UPD[j] word 5 of page 0
    { off := 0x1014, n := 64, stride := 0x20, tl := true, rw := 7 },
   -- GOV_UPD[j] words 6 and 7 of page 0, reserved
    { off := 0x1018, n := 64, stride := 0x20, n2 := 2, stride2 := 4, tl := true },
   -- GOV_UPD[j] word 0 of page 1
    { off := 0x11000, n := 64, stride := 0x20, tl := true, rw := 0x30FFFFF },
   -- GOV_UPD[j] word 1 of page 1
    { off := 0x11004, n := 64, stride := 0x20, tl := true, rw := 0xFFFFFFFF },
   -- GOV_UPD[j] word 2 of page 1
    { off := 0x11008, n := 64, stride := 0x20, tl := true, rw := 0xFFFFFFFF },
   -- GOV_UPD[j] word 3 of page 1
    { off := 0x1100C, n := 64, stride := 0x20, tl := true, rw := 0xFFFFFF },
   -- GOV_UPD[j] word 4 of page 1
    { off := 0x11010, n := 64, stride := 0x20, tl := true, rw := 0xFFFFFF },
   -- GOV_UPD[j] word 5 of page 1
    { off := 0x11014, n := 64, stride := 0x20, tl := true, rw := 7 },
   -- GOV_UPD[j] words 6 and 7 of page 1, reserved
    { off := 0x11018, n := 64, stride := 0x20, n2 := 2, stride2 := 4, tl := true },
   -- GOV_UPD[j] word 0 of page 2
    { off := 0x21000, n := 64, stride := 0x20, tl := true, rw := 0x30FFFFF },
   -- GOV_UPD[j] word 1 of page 2
    { off := 0x21004, n := 64, stride := 0x20, tl := true, rw := 0xFFFFFFFF },
   -- GOV_UPD[j] word 2 of page 2
    { off := 0x21008, n := 64, stride := 0x20, tl := true, rw := 0xFFFFFFFF },
   -- GOV_UPD[j] word 3 of page 2
    { off := 0x2100C, n := 64, stride := 0x20, tl := true, rw := 0xFFFFFF },
   -- GOV_UPD[j] word 4 of page 2
    { off := 0x21010, n := 64, stride := 0x20, tl := true, rw := 0xFFFFFF },
   -- GOV_UPD[j] word 5 of page 2
    { off := 0x21014, n := 64, stride := 0x20, tl := true, rw := 7 },
   -- GOV_UPD[j] words 6 and 7 of page 2, reserved
    { off := 0x21018, n := 64, stride := 0x20, n2 := 2, stride2 := 4, tl := true },
   -- GOV_UPD[j] word 0 of page 3
    { off := 0x31000, n := 64, stride := 0x20, tl := true, rw := 0x30FFFFF },
   -- GOV_UPD[j] word 1 of page 3
    { off := 0x31004, n := 64, stride := 0x20, tl := true, rw := 0xFFFFFFFF },
   -- GOV_UPD[j] word 2 of page 3
    { off := 0x31008, n := 64, stride := 0x20, tl := true, rw := 0xFFFFFFFF },
   -- GOV_UPD[j] word 3 of page 3
    { off := 0x3100C, n := 64, stride := 0x20, tl := true, rw := 0xFFFFFF },
   -- GOV_UPD[j] word 4 of page 3
    { off := 0x31010, n := 64, stride := 0x20, tl := true, rw := 0xFFFFFF },
   -- GOV_UPD[j] word 5 of page 3
    { off := 0x31014, n := 64, stride := 0x20, tl := true, rw := 7 },
   -- GOV_UPD[j] words 6 and 7 of page 3, reserved
    { off := 0x31018, n := 64, stride := 0x20, n2 := 2, stride2 := 4, tl := true }]

/-- Registers of egr (R382). -/
def rowsEgr : List RegRow :=
  [

   -- EGR_PORT_CTRL of port 0
    { off := 0x100, tl := true, rw := 1 },
   -- EGR_GATE_LEN of port 0
    { off := 0x104, tl := true, rw := 0x1FF, reset := 1, ranges := [⟨0, 9, 1, 0x100, false⟩] },
   -- EGR_GATE_BASE of port 0
    { off := 0x108, w64 := true, tl := true, rw := 0xFFFFFFFFFFFFFFFF },
   -- EGR_Q_CFG[q] of port 0
    { off := 0x400, n := 64, stride := 8, w64 := true, tl := true, rw := 0x1FFFFF00FFFF1F, reset := 0x1801, ranges := [⟨8, 16, 1, 0xFFFF, false⟩] },
   -- EGR_GATE_MASK[i] of port 0
    { off := 0x1000, n := 256, stride := 0x10, w64 := true, tl := true, rw := 0xFFFFFFFFFFFFFFFF, reset := 0xFFFFFFFFFFFFFFFF },
   -- EGR_GATE_DUR[i] of port 0
    { off := 0x1008, n := 256, stride := 0x10, tl := true, rw := 0xFFFF, reset := 1, ranges := [⟨0, 16, 1, 0xFFFF, false⟩] },
   -- EGR_Q_TX[q], EGR_Q_DROP[q] of port 0
    { off := 0x4000, n := 128, stride := 8, w64 := true, snap := 0x1000 },
   -- EGR_Q_TX[q], EGR_Q_DROP[q] of port 0_SNAP
    { off := 0x5000, n := 128, stride := 8, w64 := true },
   -- EGR_Q_DEPTH[q] of port 0
    { off := 0x6000, n := 64, stride := 4 },
   -- EGR_PORT_CTRL of port 1
    { off := 0x10100, tl := true, rw := 1 },
   -- EGR_GATE_LEN of port 1
    { off := 0x10104, tl := true, rw := 0x1FF, reset := 1, ranges := [⟨0, 9, 1, 0x100, false⟩] },
   -- EGR_GATE_BASE of port 1
    { off := 0x10108, w64 := true, tl := true, rw := 0xFFFFFFFFFFFFFFFF },
   -- EGR_Q_CFG[q] of port 1
    { off := 0x10400, n := 64, stride := 8, w64 := true, tl := true, rw := 0x1FFFFF00FFFF1F, reset := 0x1801, ranges := [⟨8, 16, 1, 0xFFFF, false⟩] },
   -- EGR_GATE_MASK[i] of port 1
    { off := 0x11000, n := 256, stride := 0x10, w64 := true, tl := true, rw := 0xFFFFFFFFFFFFFFFF, reset := 0xFFFFFFFFFFFFFFFF },
   -- EGR_GATE_DUR[i] of port 1
    { off := 0x11008, n := 256, stride := 0x10, tl := true, rw := 0xFFFF, reset := 1, ranges := [⟨0, 16, 1, 0xFFFF, false⟩] },
   -- EGR_Q_TX[q], EGR_Q_DROP[q] of port 1
    { off := 0x14000, n := 128, stride := 8, w64 := true, snap := 0x1000 },
   -- EGR_Q_TX[q], EGR_Q_DROP[q] of port 1_SNAP
    { off := 0x15000, n := 128, stride := 8, w64 := true },
   -- EGR_Q_DEPTH[q] of port 1
    { off := 0x16000, n := 64, stride := 4 },
   -- EGR_PORT_CTRL of port 2
    { off := 0x20100, tl := true, rw := 1 },
   -- EGR_GATE_LEN of port 2
    { off := 0x20104, tl := true, rw := 0x1FF, reset := 1, ranges := [⟨0, 9, 1, 0x100, false⟩] },
   -- EGR_GATE_BASE of port 2
    { off := 0x20108, w64 := true, tl := true, rw := 0xFFFFFFFFFFFFFFFF },
   -- EGR_Q_CFG[q] of port 2
    { off := 0x20400, n := 64, stride := 8, w64 := true, tl := true, rw := 0x1FFFFF00FFFF1F, reset := 0x1801, ranges := [⟨8, 16, 1, 0xFFFF, false⟩] },
   -- EGR_GATE_MASK[i] of port 2
    { off := 0x21000, n := 256, stride := 0x10, w64 := true, tl := true, rw := 0xFFFFFFFFFFFFFFFF, reset := 0xFFFFFFFFFFFFFFFF },
   -- EGR_GATE_DUR[i] of port 2
    { off := 0x21008, n := 256, stride := 0x10, tl := true, rw := 0xFFFF, reset := 1, ranges := [⟨0, 16, 1, 0xFFFF, false⟩] },
   -- EGR_Q_TX[q], EGR_Q_DROP[q] of port 2
    { off := 0x24000, n := 128, stride := 8, w64 := true, snap := 0x1000 },
   -- EGR_Q_TX[q], EGR_Q_DROP[q] of port 2_SNAP
    { off := 0x25000, n := 128, stride := 8, w64 := true },
   -- EGR_Q_DEPTH[q] of port 2
    { off := 0x26000, n := 64, stride := 4 },
   -- EGR_PORT_CTRL of port 3
    { off := 0x30100, tl := true, rw := 1 },
   -- EGR_GATE_LEN of port 3
    { off := 0x30104, tl := true, rw := 0x1FF, reset := 1, ranges := [⟨0, 9, 1, 0x100, false⟩] },
   -- EGR_GATE_BASE of port 3
    { off := 0x30108, w64 := true, tl := true, rw := 0xFFFFFFFFFFFFFFFF },
   -- EGR_Q_CFG[q] of port 3
    { off := 0x30400, n := 64, stride := 8, w64 := true, tl := true, rw := 0x1FFFFF00FFFF1F, reset := 0x1801, ranges := [⟨8, 16, 1, 0xFFFF, false⟩] },
   -- EGR_GATE_MASK[i] of port 3
    { off := 0x31000, n := 256, stride := 0x10, w64 := true, tl := true, rw := 0xFFFFFFFFFFFFFFFF, reset := 0xFFFFFFFFFFFFFFFF },
   -- EGR_GATE_DUR[i] of port 3
    { off := 0x31008, n := 256, stride := 0x10, tl := true, rw := 0xFFFF, reset := 1, ranges := [⟨0, 16, 1, 0xFFFF, false⟩] },
   -- EGR_Q_TX[q], EGR_Q_DROP[q] of port 3
    { off := 0x34000, n := 128, stride := 8, w64 := true, snap := 0x1000 },
   -- EGR_Q_TX[q], EGR_Q_DROP[q] of port 3_SNAP
    { off := 0x35000, n := 128, stride := 8, w64 := true },
   -- EGR_Q_DEPTH[q] of port 3
    { off := 0x36000, n := 64, stride := 4 }]

/-- Registers of cip (R434). -/
def rowsCip : List RegRow :=
  [

   -- CIP_STATUS
    { off := 0x100 },
   -- CIP_HOLD_USED
    { off := 0x104 },
   -- CIP_HOLD_SIZE
    { off := 0x108 },
   -- CIP counters: OPS, BYTES, AUTH_FAIL, REPLAY, TOO_LONG, RAND_STALL, HOLD_STALL
    { off := 0x10100, n := 7, stride := 8, w64 := true, snap := 0x400 },
   -- CIP counters: OPS, BYTES, AUTH_FAIL, REPLAY, TOO_LONG, RAND_STALL, HOLD_STALL_SNAP
    { off := 0x10500, n := 7, stride := 8, w64 := true },
   -- CIP_UNUSABLE[r]
    { off := 0x10140, n := 7, stride := 8, w64 := true, snap := 0x400 },
   -- CIP_UNUSABLE[r]_SNAP
    { off := 0x10540, n := 7, stride := 8, w64 := true }]

/-- Registers of key (R432, R433). -/
def rowsKey : List RegRow :=
  [

   -- KEY_CFG
    { off := 0x100, rw := 1 },
   -- KEY_BASE
    { off := 0x108, w64 := true, rw := 0xFFFFFFFFF0000000, must0 := 0xFFFFFFF },
   -- KEY_LOAD_DATA[i]
    { off := 0x140, n := 16, stride := 4, rw := 0xFFFFFFFF, wo := true },
   -- KEY_LOAD_SLOT
    { off := 0x180, w64 := true, rw := 0x3FFF37F9FFFFF, wo := true },
   -- KEY_LOAD_CMD
    { off := 0x188, rw := 0xF, wo := true },
   -- KEY_LOAD_STATUS
    { off := 0x18C },
   -- KEY_SLOTS_USED
    { off := 0x190 },
   -- KEY_KEK_STATUS
    { off := 0x194 },
   -- KEY_INTEGRITY
    { off := 0x200, w64 := true },
   -- KEY_SA_BASE
    { off := 0x10100, w64 := true, rw := 0xFFFFFFFFFFFF0000, must0 := 0xFFFF },
   -- KEY_SA_CFG
    { off := 0x10108, rw := 0x1F, ranges := [⟨0, 5, 0xA, 0x15, true⟩] },
   -- KEY_RPL_BASE
    { off := 0x10110, w64 := true, rw := 0xFFFFFFFFFFFF0000, must0 := 0xFFFF },
   -- KEY_SA_EVT
    { off := 0x10118, rw := 0x8000FFFF }]

/-- Registers of blkg (R473, R474). -/
def rowsBlkg : List RegRow :=
  [

   -- BLK_MAP_BASE
    { off := 0x100, w64 := true, rw := 0xFFFFFFFFC0000000, must0 := 0x3FFFFFFF },
   -- BLK_MAP_CFG
    { off := 0x108, rw := 0x3F, ranges := [⟨0, 6, 0, 0x30, false⟩] },
   -- BLK_STAGE_BASE
    { off := 0x110, w64 := true, rw := 0xFFFFFFFFF0000000, must0 := 0xFFFFFFF },
   -- BLK_STAGE_CFG
    { off := 0x118, rw := 0x1F, ranges := [⟨0, 5, 0x1C, 0x22, true⟩] },
   -- BLK_EVT
    { off := 0x120, rw := 0x8000FFFF },
   -- BLK_SCRUB_RATE
    { off := 0x124, rw := 0xFFFFFF, reset := 0x400 },
   -- BLK_CLEAN_SHARE
    { off := 0x128, rw := 0x3F, reset := 0x14, ranges := [⟨0, 6, 1, 0x32, false⟩] },
   -- BLK_STORE_TIMEOUT
    { off := 0x12C, rw := 0xFFFF, reset := 0x1388, ranges := [⟨0, 16, 0x64, 0xEA60, false⟩] },
   -- BLK_REPAIR_TRIES
    { off := 0x130, rw := 0x1FFF, reset := 0x40, ranges := [⟨0, 13, 1, 0x12ED, false⟩] },
   -- BLK_VOLUMES
    { off := 0x134 },
   -- BLK_STORE_STATUS[i]
    { off := 0x10100, n := 96, stride := 8, w64 := true },
   -- BLK counters: READS, WRITES, MERGES, REPAIRED, INTEGRITY_FAIL, MEDIA_ERROR, DURABILITY_LOST, MOVED, SCRUBBED, EVT_LOST
    { off := 0x20100, n := 10, stride := 8, w64 := true, snap := 0x400 },
   -- BLK counters: READS, WRITES, MERGES, REPAIRED, INTEGRITY_FAIL, MEDIA_ERROR, DURABILITY_LOST, MOVED, SCRUBBED, EVT_LOST_SNAP
    { off := 0x20500, n := 10, stride := 8, w64 := true }]

/-- Registers of blke (R475). -/
def rowsBlke : List RegRow :=
  [

   -- BLK_ENG_STATUS
    { off := 0x100 },
   -- BLK_ENG_GRAINS
    { off := 0x108, w64 := true }]

/-- Registers of qrn (R507, R510); QRN_F_SEL takes FUNC 2,049 to 4,095 as any other value. [log 186: DESIGN CHOICE] -/
def rowsQrn : List RegRow :=
  [

   -- QRN_RESET_TIMEOUT
    { off := 0x100, rw := 0xFFFF, reset := 0x7D0, ranges := [⟨0, 16, 0x64, 0xEA60, false⟩] },
   -- QRN_STATUS
    { off := 0x104 },
   -- QRN_Q_SEL
    { off := 0x108, rw := 0x3FFF },
   -- QRN_F_SEL
    { off := 0x10C, rw := 0x1FFF },
   -- QRN_PS_EXIT[0]
    { off := 0x200 },
   -- QRN_PS_EXIT[1]
    { off := 0x204, reset := 0x7D0 },
   -- QRN_PS_EXIT[2]
    { off := 0x208, reset := 0xEA60 },
   -- QRN_PS_EXIT[3]
    { off := 0x20C, reset := 0xE4E1C0 },
   -- QRN counters: ACCEPTED, TORN, OVERRUN, REFUSED_STATE, STRAY, ABORTED, WAKES
    { off := 0x10100, n := 7, stride := 8, w64 := true, snap := 0x400 },
   -- QRN counters: ACCEPTED, TORN, OVERRUN, REFUSED_STATE, STRAY, ABORTED, WAKES_SNAP
    { off := 0x10500, n := 7, stride := 8, w64 := true }]

/-- Registers of rng (R153, context of a ring, offsets from its start). -/
def rowsRng : List RegRow :=
  [

   -- RNG_BASE
    { off := 0, w64 := true, rw := 0xFFFFFFFFFFFFF000, must0 := 0xFFF },
   -- RNG_CFG
    { off := 8, rw := 0x7FF, w1s := 0x800 },
   -- RNG_OWNER
    { off := 0xC },
   -- RNG_WB
    { off := 0x10, w64 := true, rw := 0xFFFFFFFFFFFFFFF8, must0 := 7 },
   -- RNG_PROD
    { off := 0x18, rw := 0xFFFFFFFF },
   -- RNG_CONS
    { off := 0x1C, rw := 0xFFFFFFFF },
   -- RNG_IRQ
    { off := 0x20, rw := 0xFFFF87FF },
   -- RNG_STATUS
    { off := 0x24, w1c := 0xC, reset := 1 },
   -- RNG_DATA_BASE
    { off := 0x28, w64 := true, rw := 0xFFFFFFFFFFFFF000, must0 := 0xFFF },
   -- RNG_DATA_CFG
    { off := 0x30, rw := 0xFF1F, reset := 0x1010 },
   -- RNG_CPL
    { off := 0x34, rw := 0xFFFF },
   -- RNG_DROPS
    { off := 0x38 },
   -- reserved
    { off := 0x3C, wo := true }]

/-- Registers of queueCtx (R508, context of a Quern queue, offsets from its start). -/
def rowsQueueCtx : List RegRow :=
  [

   -- QRN_Q_CFG
    { off := 0, rw := 0x7FF0001 },
   -- QRN_Q_CPL
    { off := 4, rw := 0xFFFF },
   -- QRN_Q_OWNER
    { off := 8 },
   -- QRN_Q_STATUS
    { off := 0xC, reset := 8 },
   -- QRN_Q_ACCEPTED
    { off := 0x10 },
   -- QRN_Q_COMPLETED
    { off := 0x14 },
   -- QRN_Q_CTRL
    { off := 0x18, w1s := 1 },
   -- reserved
    { off := 0x1C, wo := true }]

/-- Registers of funcCtx (R509, Quern power context of a function, offsets from its start). -/
def rowsFuncCtx : List RegRow :=
  [

   -- QRN_F_PS
    { off := 0 },
   -- QRN_F_PS_CFG
    { off := 4, rw := 3, reset := 3 },
   -- QRN_F_IDLE1
    { off := 8, rw := 0xFFFFFF, reset := 0x200 },
   -- QRN_F_IDLE2
    { off := 0xC, rw := 0xFFFFFF, reset := 0xC350 },
   -- QRN_F_IDLE3
    { off := 0x10, rw := 0xFFFFFF, reset := 0x493E00 },
   -- reserved
    { off := 0x14, n := 3, stride := 4, wo := true }]

/-- Registers of vfPage (R548, VF BAR0). -/
def rowsVfPage : List RegRow :=
  [

   -- VF_INFO
    { off := 0x1000 },
   -- VF_STATE
    { off := 0x1004 },
   -- VF_GRANT
    { off := 0x1008 },
   -- VF_TABLES
    { off := 0x100C },
   -- VF_FLOW_QUOTA
    { off := 0x1010 },
   -- VF_FLOW_USED
    { off := 0x1014 },
   -- VF_KEY_QUOTA
    { off := 0x1018 },
   -- VF_KEY_USED
    { off := 0x101C },
   -- VF_ERR0
    { off := 0x1020, w1c := 0x80000000 },
   -- VF_ERR1
    { off := 0x1024 },
   -- VF_ERR2
    { off := 0x1028 },
   -- VF_IRQ
    { off := 0x1030, rw := 0x803F },
   -- VF_RING_SEL
    { off := 0x1100, rw := 0xFF },
   -- VF_QUEUE_SEL
    { off := 0x1200, rw := 0x3F },
   -- VF_MBX_OUT[i]
    { off := 0x2000, n := 16, stride := 4, rw := 0xFFFFFFFF },
   -- VF_MBX_IN[i]
    { off := 0x2040, n := 16, stride := 4 },
   -- VF_MBX_CTRL
    { off := 0x2080, w1s := 3 },
   -- VF_MBX_STATUS
    { off := 0x2084 }]

/-- The rows of a block. -/
def Blk.rows : Blk → List RegRow
  | .sys => rowsSys
  | .clk => rowsClk
  | .pwr => rowsPwr
  | .tim => rowsTim
  | .trn => rowsTrn
  | .ent => rowsEnt
  | .sec => rowsSec
  | .obs => rowsObs
  | .fwc => rowsFwc
  | .hif => rowsHif
  | .vfm => rowsVfm
  | .mac => rowsMac
  | .sds => rowsSds
  | .prl => rowsPrl
  | .drp => rowsDrp
  | .dst => rowsDst
  | .prs => rowsPrs
  | .cls => rowsCls
  | .act => rowsAct
  | .hsh => rowsHsh
  | .pat => rowsPat
  | .tbl => rowsTbl
  | .lrn => rowsLrn
  | .mpd => rowsMpd
  | .gov => rowsGov
  | .egr => rowsEgr
  | .cip => rowsCip
  | .key => rowsKey
  | .blkg => rowsBlkg
  | .blke => rowsBlke
  | .qrn => rowsQrn
  | .rng => rowsRng
  | .hbm => []

end Sys2Proof.Machine
end

