-- ==== Sys2Proof/Machine/State.lean ====
section
/-! DEFINITION. The state of the device as plain data: every register, memory, queue, counter, mode and pin of the
chapters, the queue of waiting commands, the reasons a command can stop, and the state right after power-on reset. -/

namespace Sys2Proof.Machine

/-- Why the machine stops with a fault.  No command of this device stops with one: every condition of the chapters has
an effect.  The type stays because the interface has a place for it. -/
inductive Fault where
  /-- Never raised (safe). -/
  | never
deriving DecidableEq, Repr

/-- Why a command has no meaning. -/
inductive Refusal where
  /-- Answered by an arm of `exec` whose command has no meaning yet (safe). -/
  | notModelled (mnemonic : String)
deriving DecidableEq, Repr

/-! ### Time (03_time.md) -/

/-- TIM_STATUS.SERVO_STATE (R89). -/
inductive Servo where
  | unset | acquiring | locked | holdover | coast | host
deriving DecidableEq, Repr

/-- An entry of a capture FIFO (R114). -/
structure TciEntry where
  sec : Nat
  ns : Nat
  frac16 : Nat
  rising : Bool
  suspect : Bool
deriving DecidableEq, Repr

/-- A pulse output (R112): the scheduled time of its next edge and the edge time of the pulse it drives, in 2^-32 ns. -/
structure TpoSt where
  next : Option Nat := none
  pulse : Option Nat := none
deriving DecidableEq, Repr

/-- The time block: the counter in units of 2^-32 ns (SEC, NS and FRAC of R75 are views of it), the servo registers
(R79 to R86), the latches of the reading parties (R78), the servo state (R95), pulse outputs and capture inputs. -/
structure TimeSt where
  count : Nat := 0
  incr : Nat := 4294967296
  slewIncr : Nat := 4294967296
  slewLeft : Nat := 0
  remain : Nat := 0
  load0 : DWord := 0
  latches : NMap Nat := {}
  valid : Bool := false
  holdover : Bool := false
  holdLong : Bool := false
  lossSinceLock : Bool := false
  coast : Bool := false
  servo : Servo := .unset
  inLock : Nat := 0
  outLock : Nat := 0
  ftOffset : Int := 0
  ftMaster : DWord := 0
  ftPort : Option Nat := none
  tpo : NMap TpoSt := {}
  tciFifo : NMap (List TciEntry) := {}
  tciHold : NMap TciEntry := {}
deriving DecidableEq, Repr

/-! ### What leaves the device -/

/-- What the device sends to its surroundings, in the order sent (the model's own record). -/
inductive Out where
  /-- Bytes written to host memory as DMA of a function, with the Relaxed Ordering attribute or without (R514). -/
  | hostWrite (f : Func) (addr : Nat) (data : List Byte) (relaxed : Bool := false)
  /-- A host memory read of `len` bytes issued as DMA of a function; its number names it in HOST_READ_COMPLETE. -/
  | hostRead (id : Nat) (f : Func) (addr len : Nat) (translated : Bool := false)
  /-- An MSI-X message (R61, R176). -/
  | msix (f : Func) (vec : Nat)
  /-- The value a read of a register returns to its party. -/
  | readData (pt : Party) (v : DWord)
  /-- The value a memory or VF page read of a host link returns. -/
  | hostData (link : Nat) (v : DWord)
  /-- An Unsupported Request completion on a host link (R513). -/
  | unsupported (link : Nat)
  /-- A PCI Express message or completion of a host link, by name. -/
  | linkMsg (link : Nat) (what : String) (data : List Nat)
  /-- A frame on the wire of a network port (0 to 3) or of the pair link (4), without FCS. -/
  | frame (port : Nat) (data : List Byte)
  /-- Remote fault sent by a port that detects a local fault (R563). -/
  | remoteFault (port : Nat)
  /-- A PFC frame of a network port: the class-enable bits and the quanta. -/
  | pfc (port : Nat) (enables quanta : Nat)
  /-- A frame handed to a control core. -/
  | toCore (core : Nat) (data : List Byte)
  /-- A command to a store: store, command kind, grain-sized address, data. -/
  | store (id st : Nat) (kind : String) (addr : Nat) (data : List Byte)
  /-- A byte string written on a management bus, the console, or the test port. -/
  | bytes (port : String) (data : List Byte)
  /-- Bits shifted out of the test port. -/
  | tdo (bits : List Bool)
deriving DecidableEq, Repr

/-! ### Rule sets (04_turns.md R132) -/

/-- A copy of the rule set: every image of the parser, classifier, action unit and pattern engines, entry by entry.
The key is `image * 2^16 + entry` over the fourteen images; an unlisted entry is all zeros. -/
structure RuleSet where
  img : NMap (List Byte) := {}
  activeAt : Nat := 0
deriving DecidableEq, Repr

/-! ### Packets (01, 05 to 11) -/

/-- A MAC timestamp (R100). -/
structure Ts where
  sec : Nat := 0
  ns : Nat := 0
  frac : Nat := 0
deriving DecidableEq, Repr

/-- An INSPECT request carried to the next pass (R263). -/
structure InspectReq where
  off : Bool := false
  stream : Bool := false
  set : Nat := 0
  offset : Nat := 0
  limit : Nat := 0
deriving DecidableEq, Repr

/-- Where a frame of a TX ring came from, for its egress record (R106). -/
structure TxInfo where
  ring : Nat
  tag : Nat
  tsReq : Bool
deriving DecidableEq, Repr

/-- One-step insertion asked for by an action program (R265): the PTP header starts at `pos`; `udp` is the nearest UDP header
that covers it, its start and whether it lies in IPv4 (R108). -/
structure OneStep where
  correction : Bool
  pos : Nat
  udp : Option (Nat × Bool) := none
deriving DecidableEq, Repr

/-- A packet in the millpond with the metadata kept across passes (R211) and what the device holds beside it. -/
structure Pkt where
  id : Nat := 0
  data : List Byte := []
  src : Nat := 8
  cells : Nat := 0
  ingress : Nat := 0
  hash : Nat := 0
  stamp : Nat := 0
  pass : Nat := 0
  cls : Option Nat := none
  ts : Option Ts := none
  suspect : Bool := false
  user : Nat := 0
  arrived : Nat := 0
  inspect : Option InspectReq := none
  streamed : Bool := false
  tx : Option TxInfo := none
  pri : Option (Nat × Nat) := none
  oneStep : Option OneStep := none
  fantail : Bool := false
deriving DecidableEq, Repr

/-- A header of the parser's stack (R194, R195): the state, its offset, its length, whether the length was accepted,
and the value of `bound` after it. -/
structure Hdr where
  state : Nat
  off : Nat
  len : Nat
  accepted : Bool
  bound : Nat
deriving DecidableEq, Repr

/-- Where the last extract that named a field read it (R189, R270): the stack entry, the byte offset, the width. -/
structure FieldSrc where
  entry : Nat
  off : Nat
  width : Nat
deriving DecidableEq, Repr

/-- A record on the action list (R217): the action index, the STATE_REF that came with an HBM hit. -/
structure ActRef where
  index : Nat
  ref : Nat := 0
deriving DecidableEq, Repr

/-- A scan chosen for a pass at its payload mark (R284). -/
inductive Scan where
  /-- No scan; the STATUS of the verdict. -/
  | none (status : Nat)
  /-- PACKET mode: sets, OFFSET, LIMIT, STATUS bits to add. -/
  | packet (sets : List Nat) (offset limit status : Nat)
  /-- STREAM mode: set slots and their sets. -/
  | stream (slots : List (Nat × Nat))
deriving DecidableEq, Repr

/-- What the automata of a stream state stand for: the bytes of the stream since it was started fresh, for the four set
slots (R301, R302), and the matches already reported. -/
structure StreamAuto where
  bytes : List Byte := []
  seen : List (Nat × Nat) := []
deriving DecidableEq, Repr

/-- A stream state that a pattern engine holds from its read until its write-back (R304): its address, its tag, FLAGS and
NEXT_SEQ as read, none for a state just allocated, its automata, and whether a commit has left its region unused since (R310). -/
structure StreamHold where
  addr : Nat
  tag : Nat
  state : Option (Nat × Nat)
  auto : StreamAuto := {}
  unused : Bool := false
deriving DecidableEq, Repr

/-- A pass in a pipeline: the packet, the rule set and regions it keeps until it leaves (R135, R248), and the working
values of parser, match stages and pattern engine: the scan chosen, whether the engine has begun it, the state held. -/
structure Pass where
  pkt : Pkt := {}
  rules : RuleSet := {}
  retained : Bool := false
  admitted : Nat := 0
  full : Nat := 0
  exempt : Bool := false
  fields : NMap Nat := {}
  srcs : NMap FieldSrc := {}
  ranges : Nat := 0
  stack : List Hdr := []
  present : Nat := 0
  pstart : Nat := 0
  pad : Nat := 0
  pend : Nat := 0
  list : List ActRef := []
  early : Option Nat := none
  scan : Scan := .none 0
  begun : Bool := false
  hold : Option StreamHold := none
  hbmBase : Nat := 0
  hbmLog : Nat := 0
  cntBase : Nat := 0
  cntLog : Nat := 0
deriving DecidableEq, Repr

/-- A header of the action unit's working stack (R268): its bytes; for a parsed header its place in the parser's stack;
for a pushed one its template; and the place in the frame as admitted at which it stands. -/
structure WHdr where
  bytes : List Byte
  parsed : Option Nat
  tmpl : List Byte
  at_ : Nat
deriving DecidableEq, Repr

/-- Where a pass goes (R257). -/
inductive Dispo where
  | port (port : Nat)
  | ring (ring : Nat)
  | spread (f : Func)
  | core (direct : Option Nat)
  | leat
  | cipher (sa : Nat)
deriving DecidableEq, Repr

/-- A mirror copy asked for (R260). -/
structure MirrorReq where
  rewritten : Bool
  toPort : Bool
  ring : Nat
  port : Nat
  queue : Nat
  trunc : Nat
deriving DecidableEq, Repr

/-- Why a program stopped before its end. -/
inductive Stop where
  | drop
  | govDrop
  | fault (cause : Nat)
deriving DecidableEq, Repr

/-- The working context of a pipeline's action unit (R252): the pass, the records of its program still to be read, the words
of the present record still to be executed, its parameter area, the working stack and everything the program has asked for
so far. -/
structure ActCtx where
  ps : Pass := {}
  prog : List ActRef := []
  words : List Nat := []
  params : List Nat := [0, 0, 0, 0]
  ref : Nat := 0
  recEnd : Bool := false
  work : List WHdr := []
  written : List Nat := []
  pushes : Nat := 0
  popped : Nat := 0
  growth : Int := 0
  edits : List (Nat × Nat × Int) := []
  dispo : Option Dispo := none
  queue : Nat := 0
  mirrors : List MirrorReq := []
  inspect : Option InspectReq := none
  colour : Nat := 0
  stamps : List (Bool × Option Nat) := []
  stop : Option Stop := none
deriving DecidableEq, Repr

/-- A pipeline: waiting first passes in order of arrival, waiting leat passes and cipher returns, passes whose scan is
to come, passes whose verdict is written, the action unit's context, whether it is in service (R236), the passes
admitted and the lookups charged in the present turn, the sluice round (R362), the boundary until which leats are still admitted after a withdrawal
(R637), the cause of a failure that is fenced at the next boundary (R610). -/
structure Pipe where
  firsts : List Pkt := []
  leats : List Pkt := []
  marks : List Pass := []
  ready : List Pass := []
  act : ActCtx := {}
  inService : Bool := false
  admitted : Nat := 0
  lookups : Nat := 0
  deferred : Bool := false
  refused : List Nat := []
  rrSource : Nat := 0
  rrUsed : NMap Nat := {}
  leatUntil : Option Nat := none
  fault : Option Nat := none
deriving DecidableEq, Repr

/-- A frame in an egress queue. -/
structure EgrItem where
  pkt : Pkt
  cells : Nat
deriving DecidableEq, Repr

/-- The link state of a port (R567). -/
inductive LState where
  | disabled | training | up | fault
deriving DecidableEq, Repr

/-- A received frame that waits in its MAC: its bytes, its timestamp and whether that is suspect. -/
structure SecHeld where
  data : List Byte
  ts : Ts
  suspect : Bool
deriving DecidableEq, Repr

/-- A port (0 to 3; 4 is the pair link): its queues, the deficits (R372), the queue the round robin stands at and
whether its visit has begun, the open mask of the turn-gate list (R373), pauses by priority (R377), asserted PFC
priorities with the turn count of their last frame (R378), the link state with the turn count of its last change, fault
and module indications (R570), the egress records not yet written, oldest first (R107), and received frames that wait for the
randomness of the MACsec engine (R424). -/
structure PortSt where
  queues : NMap (List EgrItem) := {}
  deficits : NMap Nat := {}
  rr : Nat := 0
  rrVisited : Bool := false
  openMask : Nat := 0xFFFFFFFFFFFFFFFF
  paused : NMap Bool := {}
  pfcSent : NMap Nat := {}
  link : LState := .disabled
  since : Nat := 0
  localFault : Bool := false
  remoteFault : Bool := false
  modPresent : Bool := false
  modInt : Bool := false
  records : List (List Byte) := []
  secHeld : List SecHeld := []
deriving DecidableEq, Repr

/-! ### Rings (05_rings.md) -/

/-- States of a ring (R177); STALLED is ACTIVE without credit. -/
inductive RState where
  | off | active | draining | haltActive | haltDraining
deriving DecidableEq, Repr

/-- A completion (R169) without its PHASE bit: TAG, STATUS, FLAGS, SOURCE and the 8 result bytes. -/
structure Cpl where
  tag : Nat
  status : Nat
  flags : Nat
  source : Nat
  result : List Byte
deriving DecidableEq, Repr

/-- Work taken from a host-produced ring: the entry, the host reads it waits for with the data that has come, a phase
of its own meaning, and the completion once it is known (written in ring order, R171). -/
structure Work where
  id : Nat
  ring : Nat
  opcode : Nat
  tag : Nat
  entry : List Byte
  started : Bool := false
  waiting : List Nat := []
  data : List (Nat × List Byte) := []
  cells : Nat := 0
  done : Option (Nat × List Byte) := none
  note : List Nat := []
deriving DecidableEq, Repr

/-- A frame waiting for room in an RX ring (R164), and the turn since when. -/
structure RxWait where
  pkt : Pkt
  since : Nat
deriving DecidableEq, Repr

/-- The state of a ring beside its context registers: RNG_IRQ as it was when the last entry was written (R155), the slots
from the consumer count that have been read already, and for RX the areas in use (the producer count after the entry, the
offset, the length) and the producer counts after unconsumed entries. -/
structure RingSt where
  state : RState := .off
  owner : Option (Func × Nat) := none
  work : List Work := []
  stash : List Cpl := []
  held : List Cpl := []
  owed : Nat := 0
  unsig : Nat := 0
  unsigTurn : Option Nat := none
  muted : Bool := false
  rx : List RxWait := []
  dataNext : Nat := 0
  areas : List (Nat × Nat × Nat) := []
  ends : List Nat := []
  irq : Nat := 0
  fetched : List Byte := []
deriving DecidableEq, Repr

/-- What an outstanding host read is for. -/
inductive ReadFor where
  | ring (r work part : Nat)
  /-- The slots of a host-produced ring from its consumer count (R530). -/
  | slots (r : Nat)
  | quern (cmd part : Nat)
  | none
deriving DecidableEq, Repr

/-- A host read (R524, R527): outstanding, or not yet sent because its function may not master the bus; with ATS, whether its
translation is still asked for, and the 4 KiB pages it reads by a translation (R531). -/
structure HRead where
  id : Nat
  func : Func
  addr : Nat
  len : Nat
  use : ReadFor
  sent : Bool := true
  asking : Bool := false
  pages : List Nat := []
deriving DecidableEq, Repr

/-- An MSI-X vector of a function: whether it is unmasked, its pending bit, and the message address, message data and steering
tag of its table entry (R63, R517). -/
structure MsixSt where
  unmasked : Bool := false
  pending : Bool := false
  addr : Nat := 0
  data : Nat := 0
  st : Nat := 0
deriving DecidableEq, Repr

/-! ### Payload inspection (09) -/

/-- A byte term of a compiled pattern: the 256-bit set of bytes it matches, repeated `lo` to `hi` times. -/
structure PTerm where
  set : Nat
  lo : Nat
  hi : Nat
deriving DecidableEq, Repr

/-- A compiled pattern: identifier, anchor, and runs of byte terms between gaps. -/
structure Pattern where
  id : Nat
  anchor : Option Nat
  runs : List (List PTerm)
deriving DecidableEq, Repr

/-! ### Flow tables and learning (10) -/

/-- TBL_TAB_STATUS.STATE (R313). -/
inductive TabState where
  | off | init | ready | draining
deriving DecidableEq, Repr

/-- A bucket in the pending list of the shadow compare (R330). -/
structure ScrubPend where
  table : Nat
  bucket : Nat
  hw : List Byte
  turn : Nat
deriving DecidableEq, Repr

/-- An expired entry the sweeper is to delete (R328). -/
structure SweepPend where
  table : Nat
  bucket : Nat
  slot : Nat
  key : List Byte
  lastHit : Nat
  turn : Nat
deriving DecidableEq, Repr

/-- A learn event that has passed neither the rate limit nor the filter (R336). -/
structure LearnEv where
  table : Nat
  source : Nat
  pipe : Nat
  key : List Byte
  hash : Nat
  ingress : Nat
deriving DecidableEq, Repr

/-- A slot of the learn filter (R337). -/
structure FilterSlot where
  table : Nat
  key : List Byte
  turn : Nat
deriving DecidableEq, Repr

/-- A table: its state, whether its region has been zeroed, its entry count, its learn tokens with the turn of the last
refill, the next bucket of sweep and scrub, and the boundary counts of the last sweep and scrub visits (R327, R329). -/
structure TableSt where
  state : TabState := .off
  initDone : Bool := false
  changeTurn : Nat := 0
  entries : Nat := 0
  tokens : Nat := 0
  refill : Nat := 0
  sweepAt : Nat := 0
  scrubAt : Nat := 0
  swept : Nat := 0
  scrubbed : Nat := 0
deriving DecidableEq, Repr

/-- A learning record queued for sending (R343), encoded, and its turn. -/
structure LrnRec where
  bytes : List Byte
  turn : Nat
  mirrored : Bool := false
deriving DecidableEq, Repr

/-- What the receiver keeps for a sender (R345, R348). -/
structure LrnPeer where
  next : Option Nat := none
  held : List (Nat × List Byte) := []
  asked : Option (Nat × Nat) := none
  tries : Nat := 0
  turn : Nat := 0
deriving DecidableEq, Repr

/-- The sender and the receiver of learning messages. -/
structure LrnSt where
  queue : List LrnRec := []
  seq : Nat := 0
  sent : List (Nat × List Byte) := []
  peers : NMap LrnPeer := {}
  rx : List (Nat × List Byte) := []
  resync : List (Nat × Nat × Nat) := []
deriving DecidableEq, Repr
/-! ### The fantail (03_time.md R96 to R98) -/

/-- A master the fantail hears Announce messages of (R96, IEEE 1588-2019 9.3): the port, the sender's port identity, the
grandmaster's identity, the values that rank it, its steps removed, how many Announce messages have come, when the last
came, and how long it counts without another, both in 2^-16 ns. -/
structure FtMaster where
  port : Nat
  sender : List Byte
  gm : List Byte
  rank : List Nat
  steps : Nat
  heard : Nat
  last : Int
  keep : Int
deriving DecidableEq, Repr

/-- A Sync message of a master: port, sender, sequence number, its ingress timestamp and the time of origin with the
corrections, both in 2^-16 ns. -/
structure FtSync where
  port : Nat
  sender : List Byte
  seq : Nat
  came : Int
  origin : Int
deriving DecidableEq, Repr

/-- A delay request of the fantail on a port (peer delay or not): its sequence number, its egress timestamp, and what a
two-step peer response has told so far: the remote turnaround and the ingress timestamp of the response. -/
structure FtReq where
  port : Nat
  peer : Bool
  seq : Nat
  left : Option Int := none
  resp : Option (Int × Int) := none
deriving DecidableEq, Repr

/-- A peer delay request the fantail is to answer: its port, the requesting port identity, sequence number, correction and
ingress timestamp; whether the response has been sent, and when it left. -/
structure FtPeer where
  port : Nat
  who : List Byte
  seq : Nat
  corr : Nat
  came : Ts
  sent : Bool := false
  left : Option Ts := none
deriving DecidableEq, Repr

/-- What the fantail keeps of its messages: the masters heard, Sync messages whose Follow_Up is to come, those ready to be
used, the last one used, its own requests, the path delay by port in 2^-16 ns, peer requests to answer, the next sequence
number by port and kind. -/
structure FtSt where
  masters : List FtMaster := []
  syncs : List FtSync := []
  ready : List FtSync := []
  last : Option FtSync := none
  reqs : List FtReq := []
  delay : NMap Int := {}
  peers : List FtPeer := []
  seqs : NMap Nat := {}
deriving DecidableEq, Repr


/-! ### Host links and virtual functions (15, 16) -/

/-- A host link (R512, R537): up, rate code, width, flit mode, in reset, initialised for configuration requests, and the
SR-IOV controls NumVFs, VF Enable and System Page Size (R518), the VFM events that wait for their ring (R554), the six dwords
of PF0's BARs and of the VF BARs as written and their Memory Space Enables (R519, R520), and the Invalidate Requests that wait:
function, tag, page (R531). -/
structure LinkSt where
  up : Bool := false
  rate : Nat := 0
  width : Nat := 0
  flit : Bool := false
  inReset : Bool := false
  ready : Bool := false
  numVfs : Nat := 0
  vfEnable : Bool := false
  pageSize : Nat := 1
  events : List (List Byte) := []
  bar : NMap Nat := {}
  vfBar : NMap Nat := {}
  memOn : Bool := false
  vfMemOn : Bool := false
  invals : List (Func × Nat × Nat) := []
  /-- Pages whose message waits for the function of their route to be enabled (R535). -/
  due : List Nat := []
deriving DecidableEq, Repr

/-- VF_STATE.STATE (R551). -/
inductive VState where
  | disabled | active | quiescing | quiesced | resetting
deriving DecidableEq, Repr

/-- Dirty-page logging of a VF (R555 to R557): the range, the two bitmaps, which one is written, the out-of-range
count, and whether it has started. -/
structure DirtyLog where
  base : Nat
  pages : Nat
  hbm : Nat
  second : Bool := false
  outside : Nat := 0
  started : Bool := false
deriving DecidableEq, Repr

/-- A harvest of a dirty-page log (R557, R558). -/
structure Harvest where
  ring : Nat
  work : Nat
  mgr : Func
  dest : Nat
  stop : Bool
  switched : Bool := false
  bits : Nat := 0
  outside : Nat := 0
deriving DecidableEq, Repr

/-- An order for a VF that takes effect at the next boundary: 0 grant, 1 quiesce, 2 resume, 3 the start of dirty-page
logging; the MBX ring and work it came from, its parameter block (R541, R545, R552, R555). -/
structure VfOrder where
  kind : Nat
  ring : Nat
  work : Nat
  body : List Byte
deriving DecidableEq, Repr

/-- A VF: its state, the grant record in force (R542; empty for one never set), the orders for the next boundary, the
mailbox slots, its log and harvests, the quiesce commands it serves, whether their boundary has come. -/
structure VfSt where
  state : VState := .disabled
  grant : List Byte := []
  orders : List VfOrder := []
  outMsg : List Byte := []
  inMsg : List Byte := []
  outFull : Bool := false
  inFull : Bool := false
  log : Option DirtyLog := none
  harvests : List Harvest := []
  quiesce : List (Nat × Nat) := []
deriving DecidableEq, Repr

/-! ### The pair (17) -/

/-- An entry of a volume's map (R438) with the digest and the tag of its log entry (R457). -/
structure MapEnt where
  seg : Nat := 0
  slot : Nat := 0
  mapped : Bool := false
  zero : Bool := false
  pair : Bool := false
  version : Nat := 0
  digest : List Byte := []
  tag : List Byte := []
deriving DecidableEq, Repr

/-- The role of a service group (R582). -/
inductive Role where
  | off | stale | standby | active | alone
deriving DecidableEq, Repr

/-- What happens when the partner has acknowledged a mirror frame (R581). -/
inductive AckThen where
  /-- A command of ring `r` completes. -/
  | finish (r id st : Nat) (res : List Byte)
  /-- The reserved range of an outbound SA may be used. -/
  | range (sa : Nat)
  /-- The mark of an inbound SA becomes `v` (R589). -/
  | high (sa v : Nat)
  /-- A part of a Quern write is durable at the partner (R446). -/
  | part (cmd : Nat)
  /-- PAIR of a grain is set (R582). -/
  | grain (vol grain : Nat)
  /-- A learning record counts as queued (R581). -/
  | queued (rec_ : List Byte)
deriving DecidableEq, Repr

/-- What a resynchronisation has still to send (R582): the record of a volume, a log record with its grains, an SA, an entry of a
table. -/
inductive ResyncItem where
  | vol (v : Nat)
  | log (v : Nat) (bytes : List Byte)
  | sa (s : Nat)
  | entry (t loc : Nat)
deriving DecidableEq, Repr

/-- A storage frame that the standby has taken (R588): its number, the writes of grains and of log records that its stores have not
acknowledged (write, store), and the map entries of a log record of it, which count once it is durable. -/
structure Landing where
  seq : Nat
  waits : List (Nat × Nat) := []
  vol : Nat := 0
  es : List (Nat × MapEnt) := []
deriving DecidableEq, Repr

/-- A stream of mirror frames (R576, R579): the number of the next frame sent, the unacknowledged frames whole, the turn in
which the acknowledged number last moved, the number expected next, and what waits for acknowledgements. -/
structure PairStream where
  next : Nat := 0
  unacked : List (Nat × List Byte) := []
  ackTurn : Nat := 0
  expect : Nat := 0
  waits : List (Nat × AckThen) := []
deriving DecidableEq, Repr

/-- A SWITCH order under way (R590): group, turn of effect, whether it is acknowledged, whether it is this device's own,
the turn it was given in. -/
structure RoleOrder where
  group : Nat
  at_ : Nat
  acked : Bool
  own : Bool
  turn : Nat
deriving DecidableEq, Repr

/-- The pair's protocol state: roles with the turns of their last change, the two streams, the boundary counts at which the
partner was last heard on each path, whether it is lost, what it last reported of each group (role + 8 * KIND), role
orders, frames received and not yet handled (alternate path or not), the partner's learning queue, parts of grains
received and grains written from them that no log record has named yet, takeover turns by group, own changes of commit schedules by
turn, schedules that came from the partner; where the next frame goes in the region of PRL_BUF_BASE, what a resynchronisation has
still to send, storage frames not yet durable, the boundary counts of the last mirror frame and of the partner's going ACTIVE in a
group. -/
structure PairSt where
  roles : NMap Role := {}
  roleTurn : NMap Nat := {}
  s0 : PairStream := {}
  s1 : PairStream := {}
  heard : Option Nat := none
  heardAlt : Option Nat := none
  lost : Bool := false
  partner : NMap Nat := {}
  orders : List RoleOrder := []
  rx : List (Bool × List Byte) := []
  lrnQueue : List (List Byte) := []
  parts : NMap (List Byte) := {}
  takeover : NMap Nat := {}
  commitOwn : NMap Nat := {}
  commitFrom : NMap Bool := {}
  placed : NMap MapEnt := {}
  bufAt : Nat := 0
  resync : List ResyncItem := []
  landing : List Landing := []
  mirrorAt : Nat := 0
  activeAt : NMap Nat := {}
deriving DecidableEq, Repr

/-! ### Cipher lanes and keys (12) -/

/-- A packet handed to the inline cluster (R386): its pipeline, its SA, the packet, the rule set and first admission of
the pass that issued CIPHER (R401), its header stack as handed over (kind, start, length), PAYLOAD_START, PAD_START. -/
structure InlineJob where
  pipe : Nat
  sa : Nat
  pkt : Pkt
  rules : RuleSet := {}
  admitted : Nat := 0
  stack : List (Nat × Nat × Nat) := []
  pstart : Nat := 0
  pad : Nat := 0
deriving DecidableEq, Repr

/-- A packet a lane has started: the job, the SA record and the key as read at the start (R393, R430), the number of the
key held, the sequence number, the units reserved in the steeping buffer, the boundary count at the start (R387), and whether
an SA_WRITE has replaced the record since (R393). -/
structure InlineRun where
  job : InlineJob
  rec_ : List Byte
  key : List Byte
  gen : Nat
  q : Nat
  units : Nat
  started : Nat := 0
  detached : Bool := false
deriving DecidableEq, Repr

/-- A lane of a cipher cluster: packets that wait for it, in the order of handoff, the packet it has started, and the
turn it was fenced in. -/
structure LaneSt where
  queue : List InlineJob := []
  active : Option InlineRun := none
  fenced : Option Nat := none
deriving DecidableEq, Repr

/-- A loaded key slot or KEK (R427): its attributes, the key, a number of its own that operations hold it by, and its
wrapped image in the caddy region (not an interface, R426). -/
structure KeySlot where
  usage : Nat
  owner : Func
  key : List Byte
  gen : Nat
  wrap : List Byte := []
deriving DecidableEq, Repr

/-- KEY_LOAD_STATUS.BUSY: of a LOAD, of a zeroisation, and the generations of the keys it waits for (R430, R435). -/
structure KeyBusy where
  load : Bool := false
  zero : Bool := false
  gens : List Nat := []
deriving DecidableEq, Repr


/-! ### The block store (13) -/

/-- A segment of a volume: its policy, its member stores with the starts of their extents, the grain slots given out,
its log records in slot order, whether it is sealed, and the volume's next LSN when it was opened (R455, R456). -/
structure Seg where
  pol : Nat
  k : Nat
  m : Nat
  members : List Nat
  start : List Nat
  used : Nat := 0
  recs : List (List Byte) := []
  sealed : Bool := false
  openLsn : Nat := 0
deriving DecidableEq, Repr

/-- A volume: its record (R454), whether it is QUIESCING, the engine that serves it, its map, its segments, the open
one, the next segment number, the next LSN, where the scrubber stands, whether it was written while ALONE (R591), whether its
creation takes effect at the next boundary (R470), and whether it is to return to its home engine (R39). -/
structure Vol where
  rec_ : List Byte
  quiescing : Bool := false
  eng : Nat := 0
  map : NMap MapEnt := {}
  segs : NMap Seg := {}
  open_ : Option Nat := none
  nextSeg : Nat := 0
  lsn : Nat := 1
  scrub : Nat := 0
  wroteAlone : Bool := false
  fresh : Bool := false
  homing : Bool := false
deriving DecidableEq, Repr

/-- An extent in use on a store: its table entry, its first LBA, its length, what it belongs to (R455). -/
structure Ext where
  start : Nat
  len : Nat
  vol : Nat
  seg : Nat
  member : Nat
deriving DecidableEq, Repr

/-- A store: BLK_STORE_STATUS.STATE, whether it is remote, the medium behind it, its extents by table entry; the descriptor that
STORE_ADD gave it and the NQNs (R472), by queue of a remote store the sequence number of the next byte it sends (R442), and the
boundary count at its last Keep Alive (R441, R442). -/
structure StoreSt where
  state : Nat := 0
  remote : Bool := false
  medium : Nat := 0
  ext : NMap Ext := {}
  desc : List Byte := []
  nqn : List Byte := []
  hostNqn : List Byte := []
  seqs : NMap Nat := {}
  alive : Nat := 0
deriving DecidableEq, Repr

/-- The medium behind a store, outside the device: the data and metadata bytes of its LBA format, whether protection information
is enabled, how many LBAs a power failure leaves wholly old or wholly new, its capacity in LBAs (R440), the limits of its
controller on data in a capsule and in a host-to-controller PDU (R442), and the LBAs that are durable on it; an unlisted LBA is
all zeros. -/
structure Medium where
  data : Nat := 4096
  meta_ : Nat := 0
  prot : Bool := false
  atomic : Nat := 1
  cap : Nat
  capsule : Nat := 0
  h2c : Nat := 0
  lbas : NMap (List Byte) := {}
deriving DecidableEq, Repr

/-- How far a grain of a command has come. -/
inductive GPhase where
  /-- Waits for the grain lock (R447). -/
  | lock
  /-- Waits for store reads of the current grain. -/
  | fetch
  /-- Waits for a store lane to decrypt what was read. -/
  | open_
  /-- The current grain is known; a COMPARE_AND_WRITE waits for its other grains. -/
  | have_
  /-- Waits for its encryption job. -/
  | seal
  /-- Waits for an open segment, or for room in the mirror stream. -/
  | space
  /-- Waits for the required set to acknowledge its data. -/
  | data
  /-- Its data is durable, or it has none; its log record is to come or under way. -/
  | ready
deriving DecidableEq, Repr

/-- A grain of a command: the blocks of it, what is done, fragments fetched by member, the bad ones, candidates tried,
the plaintext, the ciphertext with digest and tag, the entry to come, the stores still to acknowledge (96 is the
partner), whether its log record has been issued, the boundary count since which it has waited for the store cluster, and the
sets of members tried as candidates (R460). -/
structure GTask where
  id : Nat
  cmd : Nat
  vol : Nat
  grain : Nat
  first : Nat
  count : Nat
  write : Bool
  zero : Bool := false
  phase : GPhase := .lock
  started : Bool := false
  frags : List (Nat × Option (List Byte)) := []
  wide : Bool := false
  plain : List Byte := []
  ct : List Byte := []
  ent : MapEnt := {}
  waits : List Nat := []
  logged : Bool := false
  since : Nat := 0
  tried : List (List Nat) := []
deriving DecidableEq, Repr

/-- A log record under way (R457): the command, the volume, the LSN, the segment and record slot, the bytes, the grains
with their new entries, the stores still to acknowledge, whether it is durable, and whether its command has ended with
DURABILITY_LOST (R449). -/
structure LogOp where
  id : Nat
  cmd : Nat
  vol : Nat
  lsn : Nat
  seg : Nat
  bytes : List Byte
  entries : List (Nat × MapEnt)
  waits : List Nat
  done : Bool := false
  lost : Bool := false
deriving DecidableEq, Repr

/-- A store read under way: for which grain and member, by which engine, the LBAs, and whether it has been sent (R441). -/
structure SRead where
  id : Nat
  task : Nat
  member : Nat
  store : Nat
  eng : Nat := 0
  lba : Nat := 0
  n : Nat := 0
  sent : Bool := true
deriving DecidableEq, Repr

/-- A write issued to a store and not yet acknowledged: by which engine, and whether it has been sent (R441, R458). -/
structure SWrite where
  id : Nat
  store : Nat
  lba : Nat
  data : List Byte
  eng : Nat := 0
  sent : Bool := true
deriving DecidableEq, Repr

/-! ### Quern (14) -/

/-- QRN_Q_STATUS.STATE, with the state before HALT_BME (R499). -/
inductive QState where
  | off | active | quiescing | resetting | haltActive | haltQuiescing
deriving DecidableEq, Repr

/-- The refusal slot of a queue (R483). -/
structure RefSlot where
  status : Nat
  cid : Nat
  count : Nat
  mixed : Bool
deriving DecidableEq, Repr

/-- A Quern queue beside its context registers. -/
structure QueueSt where
  state : QState := .off
  owner : Option (Func × Nat) := none
  slot : Option RefSlot := none
deriving DecidableEq, Repr

/-- What becomes of the end of a command: its completion, an event toward the manager (R553), nothing (R532). -/
inductive QEnd where
  | complete | orphan | silent
deriving DecidableEq, Repr

/-- An outstanding Quern command, in order of acceptance: its queue and function, its 64 B, whether it has started, how
far it is, the host reads it waits for and the data that has come, the first failing block with its status, its end
once known (status, DETAIL, order of ending), what becomes of it, and the boundary count when it last made progress (R610). -/
structure QCmd where
  id : Nat
  queue : Nat
  func : Func
  local_ : Nat
  entry : List Byte
  started : Bool := false
  badCq : Bool := false
  ring : Option Nat := none
  phase : Nat := 0
  waiting : List Nat := []
  data : List (Nat × List Byte) := []
  fail : Option (Nat × Nat) := none
  done : Option (Nat × Nat × Nat) := none
  endTurn : Nat := 0
  end_ : QEnd := .complete
  moved : Nat := 0
deriving DecidableEq, Repr

/-! ### Firmware, power, test access (18, 19, 20) -/

/-- A live activation (R605, R606): the ring and work of its command, the slot it moves to, the deferrals so far, whether it
waits for its next try; once it has failed, the status it ends with when every cluster has returned to the old image. -/
structure Activation where
  ring : Nat
  work : Nat
  slot : Nat
  defers : Nat := 0
  waiting : Bool := false
  failed : Option Nat := none
deriving DecidableEq, Repr

/-- A switch of a power domain under way (R635 to R639): the domain, on or off, whether its withdrawal has come. -/
structure DomSwitch where
  dom : Nat
  on : Bool
  withdrawn : Bool := false
deriving DecidableEq, Repr

/-- The TAP (R663 to R665): the instruction, the preloaded cells, and what Capture-DR of REG_ACCESS returns in DONE and
DATA, the latter where the last access was a read. -/
structure TapSt where
  ir : Nat := 1
  cells : List Bool := []
  done : Bool := false
  read : Bool := false
  data : Nat := 0
deriving DecidableEq, Repr

/-- A management bus target (R656): its dynamic address once it has one. -/
structure MbSt where
  dyn : Option Nat := none
deriving DecidableEq, Repr

/-! ### The device -/

/-- Everything of the device but device time and the queue of waiting commands. -/
structure Dev where
  /-- BAR0 registers and context registers by BAR0 offset (and the context spaces of Ops), 4 B words. -/
  regs : NMap Word := {}
  /-- HBM by byte address, 96 GiB. -/
  hbm : NMap Byte := {}
  /-- HBM lines of 64 B with a memory error: 1 corrected, 2 uncorrectable; the line of number hbmSize / 64 + h stands for the
  compiled pattern image of handle h (R305). -/
  ecc : NMap Nat := {}
  /-- The boot flash by byte address; an unlisted byte is erased (0xFF). -/
  flash : NMap Byte := {}
  /-- What has left the device, oldest first. -/
  out : List Out := []
  /-- Draws made from the entropy source and the free values so far. -/
  draws : Nat := 0
  /-- The next number for packets, work, reads and commands. -/
  nextId : Nat := 1
  /-- The last turn entered (R117). -/
  turn : Nat := 0
  /-- Boundaries entered since reset: timers stated in turns count them (R122). -/
  bounds : Nat := 0
  /-- The present turn was extended by a change of period (R119). -/
  extended : Bool := false
  active : RuleSet := {}
  staged : Option RuleSet := some {}
  retained : Option RuleSet := none
  /-- A retained set has been released and the staged copy is being filled (R137). -/
  stageFill : Bool := false
  pipes : NMap Pipe := {}
  ports : NMap PortSt := {}
  /-- Frames in front of the distributor, in order of arrival (R25). -/
  dst : List Pkt := []
  /-- Cells charged to each source (R358). -/
  cells : NMap Nat := {}
  /-- Cells held by frames of a port and priority, key port * 8 + priority (R378). -/
  priCells : NMap Nat := {}
  /-- Frames of block engines and control cores that wait for cells, oldest first (R360). -/
  sendWait : List Pkt := []
  /-- The fantail's PTP state (R96). -/
  ft : FtSt := {}
  rings : NMap RingSt := {}
  reads : List HRead := []
  msix : NMap MsixSt := {}
  msixFn : NMap Bool := {}
  links : NMap LinkSt := {}
  /-- Bus Master Enable of a function. -/
  bme : NMap Bool := {}
  /-- Device Control of each PF0, by link (R513, R514), and Device Control 2 of each function (R527). -/
  devCtl : NMap Nat := {}
  devCtl2 : NMap Nat := {}
  /-- Dwords of the capabilities of the functions (R517): key function * 4096 + offset. -/
  caps : NMap Nat := {}
  vfs : NMap VfSt := {}
  tables : NMap TableSt := {}
  /-- Table entries owned by a function, key function * 16 + table (R318). -/
  owned : NMap Nat := {}
  scrubs : List ScrubPend := []
  sweeps : List SweepPend := []
  faults : List (Nat × Nat) := []
  filter : NMap FilterSlot := {}
  lrn : LrnSt := {}
  images : NMap (List Pattern) := {}
  autos : NMap StreamAuto := {}
  /-- Function and core indirection tables (R238): key function * 4096 + entry, the core table from 2^26 on; the values
  written, newest first, with the turns in which they were written (R239). -/
  ind : NMap (List (Nat × Nat)) := {}
  /-- Control-core clusters that are fenced, and the one that is handing over to a new image (R605). -/
  coresFenced : NMap Bool := {}
  handing : Option Nat := none
  pair : PairSt := {}
  /-- TRN_STATUS.LOCAL_ONLY (R145). -/
  localOnly : Bool := true
  /-- Cipher lanes, key cluster * 16 + lane (R384). -/
  lanes : NMap LaneSt := {}
  /-- By DRBG instance: generate requests since it was last seeded, and how often it has been seeded again (R423). -/
  entReqs : NMap Nat := {}
  entSeeds : NMap Nat := {}
  /-- The caddy's slots and the KEKs (R426, R427); the generations of keys that operations under way hold (R430). -/
  keys : NMap KeySlot := {}
  keks : NMap KeySlot := {}
  keyHolds : List Nat := []
  /-- The wrap key of the caddy (R426).  KEY_LOAD_STATUS.BUSY and what it waits for; a command written while KEY takes no
  work; the turn count of the last write of load data (R428, R430, R671). -/
  wrapKey : BitVec 256 := 0
  keyBusy : Option KeyBusy := none
  keyPend : Option Nat := none
  keyLoadAt : Option Nat := none
  /-- By SA: the acknowledged HIGH and the one sent (R589), the end of the usable range while a reservation waits (R402),
  exhaustion (R405), a takeover not yet followed by a packet (R589). -/
  saHigh : NMap Nat := {}
  saHighReq : NMap Nat := {}
  saLimit : NMap Nat := {}
  saDone : NMap Bool := {}
  saTaken : NMap Bool := {}
  /-- The block store: volumes, stores, the media behind them, grains of commands, log records, reads and writes under
  way (R436 to R472). -/
  vols : NMap Vol := {}
  stores : NMap StoreSt := {}
  media : NMap Medium := {}
  tasks : List GTask := []
  logs : List LogOp := []
  sreads : List SRead := []
  swrites : List SWrite := []
  /-- The scrubber: the volume whose turn it is, the 1,024 turns under way, and the grains read in them (R461). -/
  scrubVol : Nat := 0
  scrubWin : Nat := 0
  scrubCount : Nat := 0
  /-- Quern: queues, outstanding commands in order of acceptance, and by function the boundary count since which it has
  been idle or in its power state (R478 to R504). -/
  queues : NMap QueueSt := {}
  qcmds : List QCmd := []
  qidle : NMap Nat := {}
  /-- Block engines that served at the last boundary (R39, R671). -/
  engServing : NMap Bool := {}
  /-- Function level resets under way; reads that timed out, with their links; the link of the primary
  manager whose reset or loss is to move it (R70). -/
  flr : NMap Bool := {}
  late : NMap Nat := {}
  ownerMove : Option Nat := none
  /-- The live activation under way; the flash operation under way (1 READ, 2 PROGRAM, 4 ERASE) with its address and data;
  the anti-rollback counter of OTP (R598, R605, R615). -/
  activation : Option Activation := none
  flashOp : Option (Nat × Nat × List Byte) := none
  rollback : Nat := 0
  /-- Windows passed in the judgement in progress, whether the PLLs are locking after one that passed, and whether the
  reference has been lost since it was last accepted (R619 to R621). -/
  windows : Nat := 0
  locking : Bool := false
  lossSince : Bool := false
  /-- The switch of a power domain under way; the throttle level the input current asks for (R628, R635). -/
  domSwitch : Option DomSwitch := none
  ocLevel : Nat := 0
  /-- Powered down after a brown-out or a thermal trip, or held by SYS_RST_N (R628, R633, R640); THERM_TRIP_N asserted. -/
  dead : Bool := false
  resetHeld : Bool := false
  tripped : Bool := false
  tap : TapSt := {}
  mbus : NMap MbSt := {}
  /-- The boot configuration record in use, empty for the defaults (R596); Subsystem IDs follow from it. -/
  bootRec : List Byte := []
  /-- DRP_CFG in effect since the last RESET of DRP, and by sub-link what its drive can do, fields [2:0] rate and [7:3] width as in
  DRP_LINK; 0 where no drive is present (R477). -/
  drpCfg : Nat := 0x60
  drives : NMap Nat := {}
  /-- Bytes the console took (R657). -/
  console : List Byte := []
  /-- Shares of a link's functions (R488, R547): TX entries a function has fetched in the present round of its link; deficits
  in bytes by engine * 8192 + function; queues an engine has taken in the present round, by engine * 16384 + queue. -/
  txUsed : NMap Nat := {}
  blkDeficit : NMap Nat := {}
  qTaken : NMap Bool := {}
deriving DecidableEq, Repr

/-- The machine: device time, the rest of the device, and the commands waiting, first in, first out. -/
structure State where
  time : TimeSt := {}
  dev : Dev := {}
  pending : List Instr := []
deriving DecidableEq, Repr

/-- The device right after power-on reset, before the boot has ended (R75, R596, R599); no command waits. -/
def State.reset : State := { time := {}, dev := {}, pending := [] }

end Sys2Proof.Machine
end

