-- ==== Sys2Proof/Machine/Ops.lean ====
section
/-! DEFINITION. The named operations over registers, interrupts, HBM and host memory. -/

namespace Sys2Proof.Machine

/-! ### Keys of the register space

BAR0 registers lie at their BAR0 offset.  Ring contexts (R74), Quern queue and power contexts (R508, R509) and VF control
pages (R548) lie in spaces of their own above it. -/

/-- The number of a function in every table kept by function. -/
def fkey (f : Func) : Nat := f.link * 4096 + f.num

/-- The function with a number. -/
def fkeyFunc (k : Nat) : Func := ⟨k / 4096, k % 4096⟩

/-- Register `off` of the context of ring `r`. -/
def rngKey (r off : Nat) : Nat := 0x100000000 + r * 0x40 + off

/-- Register `off` of the context of Quern queue `q`. -/
def queueKey (q off : Nat) : Nat := 0x200000000 + q * 0x20 + off

/-- Register `off` of the Quern power context of a function. -/
def fctxKey (f : Func) (off : Nat) : Nat := 0x300000000 + fkey f * 0x20 + off

/-- Register `off` of the control page of a VF. -/
def vfKey (f : Func) (off : Nat) : Nat := 0x400000000 + fkey f * 0x10000 + off

/-- RNG_CTX_SEL of a party, by its position in the order of R41 (R74). -/
def selKey (order : Nat) : Nat := 0x500000000 + order * 4

/-- The rows of a context space and the offset in the context, for a key outside BAR0. -/
def ctxRows (k : Nat) : Option (List RegRow × Nat) :=
  if k < 0x100000000 then none
  else if k < 0x200000000 then some (rowsRng, k % 0x40)
  else if k < 0x300000000 then some (rowsQueueCtx, k % 0x20)
  else if k < 0x400000000 then some (rowsFuncCtx, k % 0x20)
  else if k < 0x500000000 then some (rowsVfPage, k % 0x10000)
  else some ([], 0)

/-! ### Reset values -/

/-- The reset value of a timestamp correction of MAC `n` at offset `x` (R102), in 2^-16 ns, two's complement. -/
def macCorrReset (n x : Nat) : Nat :=
  let ing := [3817472, 4694016, 6299648, 9338880]
  let egr := [3047424, 3465216, 4210688, 5816320]
  if x < 0xE20 then (p32 - ((ing[(x - 0xE10) / 4]?).getD 0 + n * 8192)) % p32
  else (egr[(x - 0xE20) / 4]?).getD 0 + n * 8192

/-- Reset values that differ between the instances of a block: the timestamp corrections (R102), CIP_STATUS and
CIP_HOLD_SIZE (R434). -/
def instReset (b : Blk) (inst x : Nat) : Option Nat :=
  match b with
  | .mac => if 0xE10 ≤ x ∧ x < 0xE30 then some (macCorrReset inst x) else none
  | .prl => if x = 0xE14 then some (p32 - 4784128) else if x = 0xE24 then some 3555328 else none
  | .cip =>
    if x = 0x100 then some (if inst = 0 then 0xFFFF else 0x3F)
    else if x = 0x108 then some (if inst = 0 then 28672 else if inst = 1 then 65536 else 32768)
    else none
  | _ => none

/-- The reset value of a word of the page header (R49, R50, R52). -/
def headerReset (l : Loc) : Nat :=
  if l.off = 0 then l.code * 65536 + instField l.blk l.inst * 256 + l.page
  else if l.off = 4 then 1
  else if l.off = 0xC then l.pages
  else if l.off = 0x10 then b2n (blkEnabledAtReset l.blk)
  else if l.off = 0x14 then 2
  else 0

/-- The reset value of the word `x` of a row list. -/
def rowReset (rows : List RegRow) (x : Nat) : Nat :=
  match rowAt rows x with
  | some (r, a) => r.reset / 2 ^ (8 * (x - a)) % p32
  | none => 0

/-- What a block-specific offset of a page is the shadow of (R56), or itself. -/
def unshadow (l : Loc) : Nat := if l.blk ≠ .rng ∧ l.off ≥ 0x8100 then l.off - 0x8000 else l.off

/-- The reset value of a register word by its key. [log 14: DESIGN CHOICE] -/
def regReset (k : Nat) : Word :=
  match ctxRows k with
  | some (rows, x) => w32 (rowReset rows x)
  | none =>
    match locate k with
    | none => 0
    | some l =>
      if l.off < 0x100 then w32 (headerReset l)
      else
        let x := unshadow l
        match instReset l.blk l.inst (l.page * 0x10000 + x) with
        | some v => w32 v
        | none => w32 (rowReset l.blk.rows (l.page * 0x10000 + x))

/-! ### Register words -/

/-- The word held at a key. -/
def Dev.rd (d : Dev) (k : Nat) : Word := d.regs.getD k (regReset k)

/-- The word at a key written. -/
def Dev.wr (d : Dev) (k : Nat) (v : Word) : Dev := { d with regs := d.regs.set k v (regReset k) }

/-- The word held at a key, as a number. -/
def Dev.rdN (d : Dev) (k : Nat) : Nat := (d.rd k).toNat

/-- The word at a key written from a number. -/
def Dev.wrN (d : Dev) (k v : Nat) : Dev := d.wr k (w32 v)

/-- A 64-bit register, low half first. -/
def Dev.rd64 (d : Dev) (k : Nat) : Nat := d.rdN k + p32 * d.rdN (k + 4)

/-- A 64-bit register written. -/
def Dev.wr64 (d : Dev) (k v : Nat) : Dev := (d.wrN k (v % p32)).wrN (k + 4) (v / p32 % p32)

/-- A field of a register word. -/
def Dev.fld (d : Dev) (k lo len : Nat) : Nat := bitsOf (d.rdN k) lo len

/-- A bit of a register word. -/
def Dev.bit (d : Dev) (k i : Nat) : Bool := bitOf (d.rdN k) i

/-- A field of a register word written. -/
def Dev.setFld (d : Dev) (k lo len v : Nat) : Dev := d.wrN k (putBits (d.rdN k) lo len v)

/-- `n` added to a wrapping 64-bit counter. -/
def Dev.bump (d : Dev) (k : Nat) (n : Nat := 1) : Dev := d.wr64 k ((d.rd64 k + n) % p64)

/-- 1 added to a wrapping 32-bit counter. -/
def Dev.bump32 (d : Dev) (k : Nat) : Dev := d.wrN k ((d.rdN k + 1) % p32)

/-- 1 added to a 32-bit counter that saturates. -/
def Dev.bumpSat (d : Dev) (k : Nat) : Dev := if d.rdN k = 0xFFFFFFFF then d else d.wrN k (d.rdN k + 1)

/-- A register of a block instance: page 0 of the instance plus an offset (page index times 0x10000 included). -/
def reg (b : Blk) (i off : Nat) : Nat := blkBase b i + off

/-- The next value of the entropy source (an input of the device, R3). -/
def Dev.draw (d : Dev) : Dev × Nat := ({ d with draws := d.draws + 1 }, (Config.entropy d.draws).toNat)

/-- The next value the manual leaves open. -/
def Dev.drawFree (d : Dev) : Dev × Nat := ({ d with draws := d.draws + 1 }, Config.free d.draws)

/-- DRBG instance `i` runs: ENT_STATUS (R423). -/
def Dev.entRuns (d : Dev) (i : Nat) : Bool := d.bit (reg .ent 0 0x100) (4 + i)

/-- A fresh number for a packet, a piece of work, a read or a command. [log 9: DESIGN CHOICE] -/
def Dev.fresh (d : Dev) : Dev × Nat := ({ d with nextId := d.nextId + 1 }, d.nextId)

/-- Something sent out of the device. [log 8: DESIGN CHOICE] -/
def Dev.emit (d : Dev) (o : Out) : Dev := { d with out := d.out ++ [o] }

/-! ### Functions of the host links -/

/-- A host link. -/
def Dev.link (d : Dev) (k : Nat) : LinkSt := d.links.getD k {}

/-- A host link changed. -/
def Dev.setLink (d : Dev) (k : Nat) (l : LinkSt) : Dev := { d with links := d.links.set k l {} }

/-- A VF. -/
def Dev.vf (d : Dev) (f : Func) : VfSt := d.vfs.getD (fkey f) {}

/-- A VF changed. -/
def Dev.setVf (d : Dev) (f : Func) (v : VfSt) : Dev := { d with vfs := d.vfs.set (fkey f) v {} }

/-- PF0 of a link. -/
def pf0 (link : Nat) : Func := ⟨link, 0⟩

/-- The link named by SYS_OWNER.PRIMARY (R69). -/
def Dev.primary (d : Dev) : Nat := d.fld (reg .sys 0 0x120) 0 1

/-- A function exists: PF0 always, VF n while VF Enable = 1 and n is at most NumVFs (R539). -/
def Dev.fnExists (d : Dev) (f : Func) : Bool :=
  f.num = 0 || ((d.link f.link).vfEnable && decide (f.num ≤ (d.link f.link).numVfs))

/-- A byte of the grant record in force (R542); TX_WT and BLK_WT of a grant never set are 1. -/
def Dev.grantAt (d : Dev) (f : Func) (off n : Nat) : Nat :=
  let g := (d.vf f).grant
  if g = [] then (if off = 13 ∨ off = 14 then 1 else 0) else leAt g off n

/-- The size of a function's MSI-X table (R517, R545). -/
def Dev.msixSize (d : Dev) (f : Func) : Nat := if f.num = 0 then 2048 else d.grantAt f 12 1

/-- The reset value of a dword of the capabilities (R517); the masks and severities of AER and the PowerState are those of PCI
Express. [log 202: PRESUMED] -/
def capReset (off : Nat) : Nat :=
  match off with
  | 0x44 => 0x8
  | 0x108 => 0x400000
  | 0x10C => 0x462010
  | 0x114 => 0xE000
  | 0x118 => 0xA0
  | _ => 0

/-- A dword of the capabilities of a function. -/
def Dev.capWord (d : Dev) (f : Func) (off : Nat) : Nat := d.caps.getD (fkey f * 4096 + off) (capReset off)

/-- A dword of the capabilities of a function set. -/
def Dev.setCap (d : Dev) (f : Func) (off v : Nat) : Dev := { d with caps := d.caps.set (fkey f * 4096 + off) v (capReset off) }

/-- A function is in D0 (R517). -/
def Dev.awake (d : Dev) (f : Func) : Bool := decide (d.capWord f 0x44 % 4 = 0)

/-- A function may master the bus: Bus Master Enable is set, and it is in D0. [log 220: PRESUMED] -/
def Dev.master (d : Dev) (f : Func) : Bool := d.bme.getD (fkey f) false && d.awake f

/-- A function uses address translation: HIF_CFG.ATS_EN and its ATS Enable (R513, R517). -/
def Dev.atsOn (d : Dev) (f : Func) : Bool := d.bit (reg .hif f.link 0x100) 8 && bitOf (d.capWord f 0x1C4) 31

/-! ### Interrupts (R61 to R64) -/

/-- The key of a vector of a function. -/
def vecKey (f : Func) (v : Nat) : Nat := fkey f * 2048 + v

/-- A message of a function: sent, or kept pending while it is masked or the function may not master the bus (R63,
R523); nothing while the link is down (R535). -/
def Dev.msixSend (d : Dev) (f : Func) (vec : Nat) : Dev :=
  let m := d.msix.getD (vecKey f vec) {}
  if !(d.link f.link).up then d
  else if m.unmasked && d.msixFn.getD (fkey f) false && d.master f then d.emit (.msix f vec)
  else { d with msix := d.msix.set (vecKey f vec) { m with pending := true } {} }

/-- A message on a route, checked when it is due (R63). -/
def Dev.routeMsg (d : Dev) (f : Func) (vec : Nat) : Dev :=
  if d.fnExists f && decide (vec < d.msixSize f) then d.msixSend f vec
  else (d.wrN (reg .sys 0 0x204) 1).msixSend (pf0 f.link) 0

/-- The interrupt condition of a page (R61). -/
def Dev.intCond (d : Dev) (page : Nat) : Bool := (d.rd (page + 0x20) &&& d.rd (page + 0x24)) ≠ 0

/-- The message of a page, when PG_INT_ROUTE.EN = 1 (R61, R62). -/
def Dev.pageMsg (d : Dev) (page : Nat) : Dev :=
  let r := page + 0x2C
  if d.bit r 31 then d.routeMsg ⟨d.fld r 28 1, d.fld r 16 12⟩ (d.fld r 0 11) else d

/-- PG_INT_STATUS bits set by the hardware (R60, R61). [log 27: DEDUCED] -/
def Dev.setInt (d : Dev) (page mask : Nat) : Dev :=
  let d1 := d.wr (page + 0x20) (d.rd (page + 0x20) ||| w32 mask)
  if !d.intCond page && d1.intCond page then d1.pageMsg page else d1

/-- A PG_INT_STATUS bit of a page of a block instance. [log 172: DEDUCED] -/
def Dev.raise (d : Dev) (b : Blk) (i pg bit : Nat) : Dev := d.setInt (reg b i (pg * 0x10000)) (2 ^ bit)

/-! ### First-error log (R65) -/

/-- The page header base of a block instance. -/
def pageOf (b : Blk) (i pg : Nat) : Nat := reg b i (pg * 0x10000)

/-- An error recorded against a page: the capture, or COUNT (R65). -/
def Dev.logRaw (d : Dev) (page code who off data detail : Nat) : Dev :=
  if d.bit (page + 0x40) 31 then
    let c := d.fld (page + 0x44) 0 16
    d.wrN (page + 0x44) (if c = 65535 then c else c + 1)
  else
    let d := d.wrN (page + 0x40) (0x80000000 + code % 65536)
    let d := d.wrN (page + 0x44) 0
    let d := d.wrN (page + 0x48) (d.turn % p32)
    let d := d.wrN (page + 0x4C) (d.turn / p32 % p32)
    let d := d.wrN (page + 0x50) who
    let d := d.wrN (page + 0x54) (off % 0x10000000)
    let d := d.wrN (page + 0x58) (data % p32)
    let d := d.wrN (page + 0x5C) detail
    d.setInt page 1

/-- The position of a party in the order of R41. -/
def partyOrder : Party → Nat
  | .hif0 => 1
  | .hif1 => 2
  | .pair => 3
  | .core c => 4 + c
  | .pipe p => 8 + p
  | .engine e => 16 + e
  | .vf f => 1 + f.link

/-- PG_ERR_LOG4 for an access of a party: PARTY, and FUNC and LINK of a host access (R65). -/
def partyLog (pt : Party) : Nat :=
  match pt with
  | .hif1 => 2 + 0x10000000
  | p => partyOrder p

/-- A register access: the party, the BAR0 offset, the data, the page whose log records an error of it, and the detail
of the log (the selected ring of a window access, R74). -/
structure Access where
  pt : Party
  off : Nat
  data : Nat := 0
  page : Nat
  detail : Nat := 0
deriving DecidableEq, Repr

/-- An error of an access of a VF, recorded in VF_ERR0 to VF_ERR2 of its page (R548, R549). [log 138: DEDUCED] -/
def Dev.vfErr (d : Dev) (f : Func) (code off : Nat) : Dev :=
  if d.bit (vfKey f 0x1020) 31 then d.wrN (vfKey f 0x1024) (min 65535 (d.rdN (vfKey f 0x1024) + 1))
  else ((d.wrN (vfKey f 0x1020) (0x80000000 + code % 65536)).wrN (vfKey f 0x1024) 0).wrN (vfKey f 0x1028) (off % 65536)

/-- An error of an access recorded in its page. -/
def Dev.logAcc (d : Dev) (a : Access) (code : Nat) : Dev :=
  match a.pt with
  | .vf f => d.vfErr f code a.off
  | pt => d.logRaw a.page code (partyLog pt) a.off a.data a.detail

/-- An error of an access recorded in SYS_PG_ERR_LOG (R68, R670). -/
def Dev.logSys (d : Dev) (a : Access) (code : Nat) : Dev :=
  d.logRaw (pageOf .sys 0 0) code (partyLog a.pt) a.off a.data a.detail

/-- An error the device records on its own: PARTY, FUNC and LINK 0, the register concerned, no data (R65).
[log 29: DEDUCED] -/
def Dev.logOwn (d : Dev) (page code off : Nat) (detail : Nat := 0) : Dev := d.logRaw page code 0 off 0 detail

/-! ### Instances: enable, quiesce, fence (R52, R55, R669) -/

/-- PG_CTRL of an instance. -/
def ctrlReg (b : Blk) (i : Nat) : Nat := reg b i 0x10

/-- PG_STATUS of an instance; IDLE and QUIESCED are kept up by `settle`. -/
def statusReg (b : Blk) (i : Nat) : Nat := reg b i 0x14

/-- PG_CTRL.ENABLE of an instance. -/
def Dev.enabled (d : Dev) (b : Blk) (i : Nat) : Bool := d.bit (ctrlReg b i) 0

/-- PG_CTRL.QUIESCE of an instance. -/
def Dev.quiesce (d : Dev) (b : Blk) (i : Nat) : Bool := d.bit (ctrlReg b i) 1

/-- A power domain is on (R646). -/
def Dev.domainOn (d : Dev) (n : Nat) : Bool := n = 0 || bitOf (d.rd64 (reg .pwr 0 0x128)) n

/-- A page of an instance is fenced: the instance was fenced, or the domain of the page is off (R55). -/
def Dev.fencedAt (d : Dev) (b : Blk) (i page : Nat) : Bool :=
  d.bit (statusReg b i) 3 || !d.domainOn (blkDomain b i page)

/-- PG_STATUS.FENCED of an instance. -/
def Dev.fenced (d : Dev) (b : Blk) (i : Nat) : Bool := d.fencedAt b i 0

/-- The instance accepts new work (R671): ENABLE = 1, QUIESCE = 0, not fenced. -/
def Dev.accepts (d : Dev) (b : Blk) (i : Nat) : Bool := d.enabled b i && !d.quiesce b i && !d.fenced b i

/-! ### HBM -/

/-- 96 GiB: the first address past HBM. -/
def hbmSize : Nat := 103079215104

/-- `n` bytes of HBM from `a`. [log 13: DESIGN CHOICE] -/
def Dev.hbmRead (d : Dev) (a : Nat) : Nat → List Byte
  | 0 => []
  | n + 1 => d.hbm.getD a 0 :: d.hbmRead (a + 1) n

/-- Bytes written to an HBM image from `a`. -/
def hbmPut (m : NMap Byte) (a : Nat) : List Byte → NMap Byte
  | [] => m
  | b :: r => hbmPut (m.set a b 0) (a + 1) r

/-- Bytes written to HBM from `a`. -/
def Dev.hbmWrite (d : Dev) (a : Nat) (bs : List Byte) : Dev := { d with hbm := hbmPut d.hbm a bs }

/-- The memory errors of the lines that cover `n` bytes from `a`: the worst of 0, 1 corrected, 2 uncorrectable. -/
def Dev.eccOf (d : Dev) (a n : Nat) : Nat :=
  d.ecc.cells.foldl (fun w c => if c.1 * 64 < a + n ∧ a < c.1 * 64 + 64 then max w c.2 else w) 0

/-- The lines that cover `n` bytes from `a` hold no memory error any more. -/
def Dev.eccClear (d : Dev) (a n : Nat) : Dev :=
  { d with ecc := d.ecc.filter fun k _ => !(decide (k * 64 < a + n) && decide (a < k * 64 + 64)) }

/-! ### Host memory -/

/-- The pages of a write marked in the bitmap that is being written (R556). -/
def dirtyBits (m : NMap Byte) (bm : Nat) : List Nat → NMap Byte
  | [] => m
  | p :: r =>
    let a := bm + p / 8
    dirtyBits (m.set a (m.getD a 0 ||| BitVec.ofNat 8 (2 ^ (p % 8))) 0) bm r

/-- The log of a VF after a write request of `n` bytes at `addr` (R556). -/
def Dev.logRequest (f : Func) (d : Dev) (addr n : Nat) : Dev :=
  let v := d.vf f
  match v.log with
  | some lg =>
    if !lg.started then d
    else if lg.base ≤ addr ∧ addr + n ≤ lg.base + lg.pages * 4096 then
      let p0 := (addr - lg.base) / 4096
      let p1 := (addr + n - 1 - lg.base) / 4096
      let bm := if lg.second then lg.hbm + lg.pages / 8 else lg.hbm
      { d with hbm := dirtyBits d.hbm bm (rangeFrom p0 (p1 - p0 + 1)) }
    else d.setVf f { v with log := some { lg with outside := min 0xFFFFFFFF (lg.outside + 1) } }
  | none => d

/-- The memory write requests that carry `n` bytes from `addr`, each an address and a byte count: of at most `size` bytes, cut
at the multiples of `size` (R513). [log 217: DESIGN CHOICE] -/
def writeRequests (size addr n : Nat) : List (Nat × Nat) :=
  if n = 0 then []
  else (rangeFrom (addr / size) ((addr + n - 1) / size - addr / size + 1)).map fun k =>
    let a := max addr (k * size)
    (a, min (addr + n) (k * size + size) - a)

/-- Device Control of PF0 of a link; its value before the host writes it is that of PCI Express. [log 202: PRESUMED] -/
def Dev.devControl (d : Dev) (k : Nat) : Nat := d.devCtl.getD k 0x2010

/-- Enable Relaxed Ordering of a function (R514): PF0's governs the VFs of its link, as in PCI Express. [log 202: PRESUMED] -/
def Dev.relaxOn (d : Dev) (f : Func) : Bool := bitOf (d.devControl f.link) 4

/-- Max_Payload_Size of a link in bytes: up to 512 B (R513). [log 202: PRESUMED] -/
def Dev.maxPayload (d : Dev) (k : Nat) : Nat := min 512 (128 * 2 ^ bitsOf (d.devControl k) 5 3)

/-- The log of a VF after the requests that carry `n` bytes to `addr` (R556). -/
def Dev.logDirty (d : Dev) (f : Func) (addr n : Nat) : Dev :=
  if (d.vf f).log = none then d
  else (writeRequests (d.maxPayload f.link) addr n).foldl (fun d q => Dev.logRequest f d q.1 q.2) d

/-- Bytes written to host memory as DMA of a function, logged first where the function is a VF that logs (R556);
nothing while the function may not master the bus (R523).  RX frame data and Quern read data are `relaxed`: they carry Relaxed
Ordering where the function enables it, and no other write does (R514). -/
def Dev.dmaWrite (d : Dev) (f : Func) (addr : Nat) (bs : List Byte) (relaxed : Bool := false) : Dev :=
  if d.master f then (d.logDirty f addr bs.length).emit (.hostWrite f addr bs (relaxed && d.relaxOn f)) else d

/-- The parts of a host read in 4 KiB pages. -/
def HRead.parts (h : HRead) : List (Nat × Nat) := writeRequests 4096 h.addr h.len

/-- A host read goes out; with ATS it asks for the translation of its pages first, and a write asks for none (R531).
[log 222: DESIGN CHOICE] -/
def Dev.readOut (d : Dev) (h : HRead) : Dev × HRead :=
  if d.atsOn h.func then
    (d.emit (.linkMsg h.func.link "Translation Request" [h.id, fkey h.func, h.addr / 4096 * 4096, h.parts.length]),
      { h with sent := true, asking := true })
  else (d.emit (.hostRead h.id h.func h.addr h.len), { h with sent := true })

/-- A host read issued as DMA of a function; it is sent once the function may master the bus (R524). -/
def Dev.dmaRead (d : Dev) (f : Func) (addr len : Nat) (use : ReadFor) : Dev × Nat :=
  let (d, id) := d.fresh
  let h : HRead := { id := id, func := f, addr := addr, len := len, use := use, sent := false }
  let (d, h) := if d.master f then d.readOut h else (d, h)
  ({ d with reads := d.reads ++ [h] }, id)

end Sys2Proof.Machine
end

