-- ==== Sys2Proof/Machine/SaOps.lean ====
section
/-! DEFINITION. What is read of cipher lanes, key slots and security associations (R384, R391, R426), the requests to the
random generators (R423), and whether the controlled port of a MACsec port is operational (R409). -/

namespace Sys2Proof.Machine

/-! ### Lanes -/

/-- The key of a lane. -/
def laneKey (cluster lane : Nat) : Nat := cluster * 16 + lane

/-- A lane of a cluster. -/
def Dev.lane (d : Dev) (cluster lane : Nat) : LaneSt := d.lanes.getD (laneKey cluster lane) {}

/-- A lane of a cluster changed. -/
def Dev.setLane (d : Dev) (cluster lane : Nat) (l : LaneSt) : Dev :=
  { d with lanes := d.lanes.set (laneKey cluster lane) l {} }

/-- Lanes of a cluster: 16 inline, 6 lookaside, 6 store (R384). -/
def laneCount (cluster : Nat) : Nat := if cluster = 0 then 16 else 6

/-- Some lane of a cluster is in service. -/
def Dev.laneAny (d : Dev) (cluster : Nat) : Bool :=
  (rangeFrom 0 (laneCount cluster)).any fun i => (d.lane cluster i).fenced.isNone

/-- The cluster takes packets and jobs: it accepts work and a lane is in service (R611, R671). -/
def Dev.clusterTakes (d : Dev) (cluster : Nat) : Bool := d.accepts .cip cluster && d.laneAny cluster

/-! ### Randomness -/

/-- A generate request to DRBG instance `i`: after ENT_RESEED of them it reseeds (R423).  One request for each packet, frame, job
or value. [log 193: DESIGN CHOICE] -/
def Dev.entAsk (d : Dev) (i : Nat) : Dev :=
  let n := d.entReqs.getD i 0 + 1
  if n < d.fld (reg .ent 0 0x104) 0 21 then { d with entReqs := d.entReqs.set i n 0 }
  else { d with entReqs := d.entReqs.set i 0 0, entSeeds := d.entSeeds.set i (d.entSeeds.getD i 0 + 1) 0 }

/-- The next 32 random bits of DRBG instance `i` (R423). -/
def Dev.entDraw (d : Dev) (i : Nat) : Dev × Nat := (d.entAsk i).draw

/-! ### Key slots and SAs -/

/-- KEY_CFG.EN. -/
def Dev.keyEn (d : Dev) : Bool := d.bit (reg .key 0 0x100) 0

/-- HBM address of a slot. -/
def Dev.keyAddr (d : Dev) (slot : Nat) : Nat := d.rd64 (reg .key 0 0x108) + 128 * slot

/-- KEY_SA_CFG.LOG2. -/
def Dev.saLog (d : Dev) : Nat := d.fld (reg .key 0 0x10108) 0 5

/-- SA index `s` exists. -/
def Dev.saExists (d : Dev) (s : Nat) : Bool := decide (d.saLog ≠ 0) && decide (s < 2 ^ d.saLog)

/-- Where the record of an SA lies. -/
def Dev.saAddr (d : Dev) (s : Nat) : Nat := d.rd64 (reg .key 0 0x10100) + 256 * s

/-- Where the replay window of an SA lies. -/
def Dev.rplAddr (d : Dev) (s : Nat) : Nat := d.rd64 (reg .key 0 0x10110) + 512 * s

/-- The record of an SA. -/
def Dev.saRead (d : Dev) (s : Nat) : List Byte := d.hbmRead (d.saAddr s) 256

/-- KIND of a record. -/
def saKind (r : List Byte) : Nat := byteAt r 0 % 16

/-- Bit `i` of FLAGS of a record: 0 VALID, 1 TUNNEL, 2 ESN, 3 XPN, 4 MIRROR. -/
def saFlag (r : List Byte) (i : Nat) : Bool := bitOf (byteAt r 2) i

/-- KEY_SLOT of a record. -/
def saSlot (r : List Byte) : Nat := leAt r 4 4 % 2097152

/-- SEQ, or T, of a record. -/
def saSeq (r : List Byte) : Nat := leAt r 32 8

/-- RESV_END of a record. -/
def saResv (r : List Byte) : Nat := leAt r 40 8

/-- The effective window W (R391). -/
def saWindow (r : List Byte) : Nat := if leAt r 56 2 = 0 then 1024 else leAt r 56 2

/-- OWNER of a record. -/
def saOwner (r : List Byte) : Func := let w := leAt r 58 2; ⟨bitsOf w 12 1, bitsOf w 0 12⟩

/-- An outbound kind: ESP_OUT or MACSEC_TX. -/
def saOut (r : List Byte) : Bool := saKind r = 2 || saKind r = 4

/-- The key length an algorithm of an SA needs (R388). -/
def saKeyLen (alg : Nat) : Nat := if alg = 1 then 16 else 32

/-- The greatest number of an outbound SA. -/
def saTop (r : List Byte) : Nat := if saFlag r 2 || saFlag r 3 then p64 - 1 else 0xFFFFFFFF

/-- The transmit SA of port `n`: MAC_SEC_TX_SA of the encoding AN. -/
def Dev.txSa (d : Dev) (n : Nat) : Nat := d.rdN (reg .mac n (0xC20 + 4 * d.fld (reg .mac n 0xC10) 0 2))

/-- The key of an SA may be used by it (R394), as far as its slot's attributes say. -/
def Dev.saKeyOk (d : Dev) (r : List Byte) : Bool :=
  d.keyEn && (match d.keys.find (saSlot r) with
    | some k => decide (k.owner = saOwner r) && decide (k.usage % 2 = 1) && decide (k.key.length = saKeyLen (byteAt r 1)) &&
        decide (d.eccOf (d.keyAddr (saSlot r)) 128 ≠ 2) && decide (d.hbmRead (d.keyAddr (saSlot r)) 128 = k.wrap)
    | none => false)

/-- A MACsec counter (R411). -/
def secCount (n k : Nat) : Nat := reg .mac n (0xC40 + 8 * k)

/-- The controlled port of a network port with MACsec transmission is not operational (R409, R611, R671). -/
def Dev.secDown (d : Dev) (n : Nat) : Bool :=
  decide (n < 4) && d.bit (reg .mac n 0xC00) 0 &&
    (let v := d.txSa n
     let s := v % 2097152
     let r := d.saRead s
     !bitOf v 31 || !d.saExists s || !saFlag r 0 || saKind r ≠ 4 || !d.saKeyOk r || d.saDone.getD s false ||
       decide (saTop r < saSeq r) || !d.clusterTakes 0)

end Sys2Proof.Machine
end

