-- ==== Sys2Proof/Machine/RingOps.lean ====
section
/-! DEFINITION. The named operations over rings: counts, entries, completions, credit, the stash, moderation (R157 to
R176), and the named operations over packets: cells, drops, delivery (R356 to R361, R164). -/

namespace Sys2Proof.Machine

/-! ### Ring contexts -/

/-- A ring. -/
def Dev.ring (d : Dev) (r : Nat) : RingSt := d.rings.getD r {}

/-- A ring changed. -/
def Dev.setRing (d : Dev) (r : Nat) (s : RingSt) : Dev := { d with rings := d.rings.set r s {} }

/-- The owning function and the local index of a ring (R152, R545). -/
def Dev.ringOwner (d : Dev) (r : Nat) : Func × Nat :=
  match (d.ring r).owner with
  | some o => o
  | none => if r < 32768 then (pf0 0, r) else (pf0 1, r - 32768)

/-- The owning function of a ring. -/
def Dev.ringFunc (d : Dev) (r : Nat) : Func := (d.ringOwner r).1

/-- The ring a function's local index names (R152, R545). -/
def Dev.ringOfLocal (d : Dev) (f : Func) (i : Nat) : Option Nat :=
  if f.num = 0 then
    let r := f.link * 32768 + i
    if i < 32768 ∧ d.ringOwner r = (f, i) then some r else none
  else if i < d.grantAt f 6 2 then
    let r := d.grantAt f 4 2 + i
    if d.ringOwner r = (f, i) then some r else none
  else none

/-! ### Quern queues (R478, R545) -/

/-- A Quern queue. -/
def Dev.queue (d : Dev) (q : Nat) : QueueSt := d.queues.getD q {}

/-- A Quern queue changed. -/
def Dev.setQueue (d : Dev) (q : Nat) (s : QueueSt) : Dev := { d with queues := d.queues.set q s {} }

/-- The owning function and the local index of a queue. -/
def Dev.queueOwner (d : Dev) (q : Nat) : Func × Nat :=
  match (d.queue q).owner with
  | some o => o
  | none => if q < 8192 then (pf0 0, q) else (pf0 1, q - 8192)

/-- The owning function of a queue. -/
def Dev.queueFunc (d : Dev) (q : Nat) : Func := (d.queueOwner q).1

/-- The queue a function's local index names. -/
def Dev.queueOfLocal (d : Dev) (f : Func) (i : Nat) : Option Nat :=
  let q := if f.num = 0 then f.link * 8192 + i else d.grantAt f 8 2 + i
  if i < (if f.num = 0 then 8192 else d.grantAt f 10 2) ∧ d.queueOwner q = (f, i) then some q else none

/-- A VF that is QUIESCING or QUIESCED: its rings and queues may not be enabled (R551). -/
def Dev.fnQuiesced (d : Dev) (f : Func) : Bool :=
  decide (f.num ≠ 0) && decide ((d.vf f).state = .quiescing ∨ (d.vf f).state = .quiesced)

/-- The personality of a function permits what bit `i` names: 0 NET, 1 STORE, 2 CRYPTO (R543). -/
def Dev.mayOwn (d : Dev) (f : Func) (i : Nat) : Bool := decide (f.num = 0) || bitOf (d.grantAt f 3 1) i

/-- The personality of a function permits a ring of a kind (R543). -/
def Dev.kindAllowed (d : Dev) (f : Func) (kind : Nat) : Bool :=
  let p := d.grantAt f 3 1
  decide (f.num = 0) || decide (kind = 6) || (bitOf p 0 && decide (kind = 1 ∨ kind = 2 ∨ kind = 4 ∨ kind = 5)) ||
    (bitOf p 2 && decide (kind = 3))

/-- RNG_CFG.KIND (R151). -/
def Dev.ringKind (d : Dev) (r : Nat) : Nat := d.fld (rngKey r 8) 0 4

/-- The capacity of a ring in slots (R154). -/
def Dev.ringCap (d : Dev) (r : Nat) : Nat := 2 ^ d.fld (rngKey r 8) 4 5

/-- The producer count. -/
def Dev.ringProd (d : Dev) (r : Nat) : Nat := d.rdN (rngKey r 0x18)

/-- The consumer count. -/
def Dev.ringCons (d : Dev) (r : Nat) : Nat := d.rdN (rngKey r 0x1C)

/-- Slots in use. -/
def Dev.ringUsed (d : Dev) (r : Nat) : Nat := sub32 (d.ringProd r) (d.ringCons r)

/-- Free slots. -/
def Dev.ringFree (d : Dev) (r : Nat) : Nat := d.ringCap r - d.ringUsed r

/-- The CPL ring a submission ring completes into. -/
def Dev.ringCpl (d : Dev) (r : Nat) : Nat := d.fld (rngKey r 0x34) 0 16

/-- The host produces into rings of these kinds (R151). -/
def hostProduced (kind : Nat) : Bool := kind = 1 || kind = 3 || kind = 4 || kind = 7

/-- The RNG page that reports a ring (R180). -/
def ringPage (r : Nat) : Nat := pageOf .rng 0 (r / 1024)

/-- The credit of a CPL ring (R175). -/
def Dev.credit (d : Dev) (c : Nat) : Nat :=
  d.ringCap c - d.ringUsed c + 64 - (d.ring c).stash.length - (d.ring c).owed

/-! ### Interrupt moderation (R176) -/

/-- The message of a ring, when its conditions hold and none has been sent since the last consumer doorbell, by RNG_IRQ as
it was when the last entry was written (R155). -/
def Dev.ringNotify (d : Dev) (r : Nat) : Dev :=
  let s := d.ring r
  let mt := bitsOf s.irq 16 8
  let mc := bitsOf s.irq 24 8
  let due := (mt = 0 ∧ mc = 0 ∧ s.unsig ≠ 0) ∨ (mc ≠ 0 ∧ mc ≤ s.unsig) ∨
    (mt ≠ 0 ∧ s.unsig ≠ 0 ∧ (match s.unsigTurn with | some t => decide (t + mt ≤ d.bounds) | none => false) = true)
  if bitOf s.irq 15 ∧ ¬ s.muted ∧ due then
    (d.setRing r { s with muted := true }).routeMsg (d.ringFunc r) (bitsOf s.irq 0 11)
  else d

/-- The write-back of a ring's own count (R168). -/
def Dev.writeBack (d : Dev) (r : Nat) : Dev :=
  if d.bit (rngKey r 8) 10 then
    let c := if hostProduced (d.ringKind r) then d.ringCons r else d.ringProd r
    d.dmaWrite (d.ringFunc r) (d.rd64 (rngKey r 0x10)) (toLE 4 c ++ zeros 4)
  else d

/-! ### Entries of device-produced rings -/

/-- An entry of whole slots written at the producer count, counted as unsignalled when `entry`. -/
def Dev.ringPut (d : Dev) (r : Nat) (bs : List Byte) (entry : Bool) : Dev :=
  let p := d.ringProd r
  let n := bs.length / 16
  let d := d.dmaWrite (d.ringFunc r) (d.rd64 (rngKey r 0) + p % d.ringCap r * 16) bs
  let d := d.wrN (rngKey r 0x18) ((p + n) % p32)
  if entry then
    let s := d.ring r
    d.setRing r { s with unsig := s.unsig + 1, unsigTurn := some (s.unsigTurn.getD d.bounds),
                         ends := s.ends ++ [(p + n) % p32], irq := d.rdN (rngKey r 0x20) }
  else d

/-- Slots to skip so that an entry of `n` slots does not cross the end of the ring (R160). -/
def Dev.ringSkip (d : Dev) (r n : Nat) : Nat :=
  let e := d.ringCap r - d.ringProd r % d.ringCap r
  if n ≤ e then 0 else e

/-- A SKIP entry of `n` slots (R160). -/
def skipEntry (n : Nat) : List Byte := byteN (0xA0 + (n - 1)) :: zeros (16 * n - 1)

/-- An entry written into an RX or EVT ring, after a SKIP where it would cross the end; then the write-back, then the
message (R160, R168, R176); a SKIP is no unsignalled entry. [log 180: DESIGN CHOICE] -/
def Dev.ringEntry (d : Dev) (r : Nat) (bs : List Byte) : Dev :=
  let k := d.ringSkip r (bs.length / 16)
  let d := if k = 0 then d else d.ringPut r (skipEntry k) false
  ((d.ringPut r bs true).writeBack r).ringNotify r

/-- RNG_DROPS increased (R154, R180). -/
def Dev.ringDropped (d : Dev) (r : Nat) : Dev :=
  let d := d.bumpSat (rngKey r 0x38)
  if d.bit (rngKey r 0x24) 3 then d
  else (d.setFld (rngKey r 0x24) 3 1 1).setInt (ringPage r) (2 ^ 10)

/-- The ring can take an entry of `n` slots now. -/
def Dev.ringRoom (d : Dev) (r n : Nat) : Bool := decide (d.ringSkip r n + n ≤ d.ringFree r) && d.accepts .rng 0

/-- An event entry written to an EVT ring, or discarded (R165), also where the register names a ring of another kind;
whether it was written. [log 181: DESIGN CHOICE] -/
def Dev.evtWrite (d : Dev) (r : Nat) (bs : List Byte) : Dev × Bool :=
  if d.ringKind r = 5 ∧ (d.ring r).state = .active ∧ d.ringRoom r (bs.length / 16) then (d.ringEntry r bs, true)
  else (d.ringDropped r, false)

/-- An event for a register that names its EVT ring in [15:0] and enables it in [31]; whether it was written. -/
def Dev.evtVia (d : Dev) (k : Nat) (bs : List Byte) : Dev × Bool :=
  if d.bit k 31 then d.evtWrite (d.fld k 0 16) bs else (d, false)

/-! ### Completions (R169 to R175) -/

/-- The 16 bytes of a completion at producer count `p` of a ring of capacity `cap` (R169, R170). -/
def cplBytes (c : Cpl) (p cap : Nat) : List Byte :=
  toLE 4 c.tag ++ [byteN c.status, byteN (c.flags / 2 * 2 + (1 - p / cap % 2))] ++ toLE 2 c.source ++ slice c.result 0 8

/-- A completion written into a CPL ring that has room. -/
def Dev.cplWrite (d : Dev) (r : Nat) (c : Cpl) : Dev :=
  ((d.ringPut r (cplBytes c (d.ringProd r) (d.ringCap r)) true).writeBack r).ringNotify r

/-- A completion written into a CPL ring that has room, with its write-back and its message left for later (R525). -/
def Dev.cplPut (d : Dev) (r : Nat) (c : Cpl) : Dev := d.ringPut r (cplBytes c (d.ringProd r) (d.ringCap r)) true

/-- A completion put at the end of the stash of its ring, which it leaves the owed count for; the first raises CPL_STASHED
(R174). -/
def Dev.cplStash (d : Dev) (r : Nat) (c : Cpl) : Dev :=
  let s := d.ring r
  let d := d.setRing r { s with owed := s.owed - 1, stash := s.stash ++ [{ c with flags := c.flags / 8 * 8 + c.flags % 4 + 4 }] }
  if s.stash = [] then d.setInt (ringPage r) (2 ^ 9) else d

/-- A completion of the ring `r`, which `put` writes where it may: stashed when the ring is full or others wait in the stash;
held in HALT_BME, in the stash and, beyond its 64 places, in the owed count; discarded when the ring is off (R174, R177, R524).
[log 52: DEDUCED] -/
def Dev.cplPost (d : Dev) (r : Nat) (c : Cpl) (put : Dev → Nat → Cpl → Dev := Dev.cplWrite) : Dev :=
  let s := d.ring r
  match s.state with
  | .off => d
  | .haltActive | .haltDraining =>
    if s.stash.length < 64 then d.cplStash r c else d.setRing r { s with held := s.held ++ [c] }
  | _ =>
    if s.stash = [] ∧ 1 ≤ d.ringFree r then put (d.setRing r { s with owed := s.owed - 1 }) r c else d.cplStash r c

/-- Stashed completions written by `put` while slots are free, in order (R174). -/
def drainStash (put : Dev → Nat → Cpl → Dev) (d : Dev) (r : Nat) : List Cpl → Dev
  | [] => d
  | c :: cs =>
    if 1 ≤ d.ringFree r then
      let s := d.ring r
      drainStash put (put (d.setRing r { s with stash := cs }) r c) r cs
    else d

/-- The held completions of a ring written: those in its stash, then those beyond it (R525). -/
def Dev.ringRelease (d : Dev) (r : Nat) : Dev :=
  let d := drainStash Dev.cplPut d r (d.ring r).stash
  let s := d.ring r
  s.held.foldl (fun d c => d.cplPost r c Dev.cplPut) (d.setRing r { s with held := [] })

/-! ### Work of host-produced rings -/

/-- The completion of a piece of work posted to the CPL ring of its ring. -/
def Dev.postWork (d : Dev) (w : Work) (st : Nat) (res : List Byte) : Dev :=
  d.cplPost (d.ringCpl w.ring)
    { tag := w.tag, status := st, flags := 0, source := (d.ringOwner w.ring).2, result := res }

/-- A VF management command that may complete out of ring order: VFM_QUIESCE and the dirty-log commands (R171, R540). -/
def Work.mayPass (w : Work) : Bool := decide (w.opcode ∈ [0x61, 0x63, 0x64, 0x65])

/-- Such a command waits for its end; it holds back no completion (R540). -/
def Work.vfmWaits (w : Work) : Bool := w.mayPass && decide (w.note = [1])

/-- Work at the head of a ring whose completion is known posted, in ring order (R171), behind the commands `keep` that may
complete later. -/
def flushWork (d : Dev) (r : Nat) (keep : List Work) : List Work → Dev
  | [] => d
  | w :: ws => match w.done with
    | some (st, res) =>
      let s := d.ring r
      flushWork ((d.setRing r { s with work := keep ++ ws }).postWork w st res) r keep ws
    | none => if w.vfmWaits then flushWork d r (keep ++ [w]) ws else d

/-- A piece of work changed. -/
def Dev.setWork (d : Dev) (r id : Nat) (f : Work → Work) : Dev :=
  let s := d.ring r
  d.setRing r { s with work := s.work.map fun w => if w.id = id then f w else w }

/-- The end of a piece of work: its completion, posted once every earlier entry of its ring has completed. -/
def Dev.finish (d : Dev) (r id st : Nat) (res : List Byte := []) : Dev :=
  let d := d.setWork r id fun w => { w with done := some (st, res), waiting := [], started := true }
  flushWork d r [] (d.ring r).work

/-- The end of a piece of work whose result goes to host memory: MASTER_DISABLED where that cannot be written (R524). -/
def Dev.finishPut (d : Dev) (r id addr : Nat) (bs : List Byte) (res : List Byte := []) : Dev :=
  let f := d.ringFunc r
  if d.master f then (d.dmaWrite f addr bs).finish r id 0 res else d.finish r id 0x08

/-- The end of a VF management command: at once where it may complete out of ring order (R540). -/
def Dev.finishNow (d : Dev) (r id st : Nat) (res : List Byte := []) : Dev :=
  let s := d.ring r
  match takeFirst (fun w => w.id = id) s.work with
  | some (w, rest) => if w.mayPass then (d.setRing r { s with work := rest }).postWork w st res else d.finish r id st res
  | none => d

/-- A piece of work of a ring by its number. -/
def Dev.work? (d : Dev) (r id : Nat) : Option Work := (d.ring r).work.find? fun w => w.id = id

/-- The oldest piece of work of a ring with an opcode that satisfies `p`. -/
def Dev.workWith (d : Dev) (r opcode : Nat) (p : Work → Bool) : Option Work :=
  (d.ring r).work.find? fun w => w.opcode = opcode && w.done.isNone && p w

/-- The oldest piece of work of a ring that has neither ended nor waits for the partner (`note` = [1], R581), if its
opcode is `opcode`. -/
def Dev.workHead (d : Dev) (r opcode : Nat) : Option Work :=
  match (d.ring r).work.find? fun w => w.done.isNone && w.note ≠ [1] with
  | some w => if w.opcode = opcode then some w else none
  | none => none

/-- A host read for a part of a piece of work. -/
def Dev.workRead (d : Dev) (w : Work) (part addr len : Nat) : Dev :=
  let (d, id) := d.dmaRead (d.ringFunc w.ring) addr len (.ring w.ring w.id part)
  d.setWork w.ring w.id fun w => { w with waiting := w.waiting ++ [id] }

/-- The data of part `i` that has come for a piece of work. -/
def Work.part (w : Work) (i : Nat) : List Byte :=
  match w.data.find? fun x => x.1 = i with
  | some x => x.2
  | none => []

/-- All parts of the data of a piece of work in order. -/
def Work.allData (w : Work) : List Byte := (sortBy (fun a b => decide (a.1 ≤ b.1)) w.data).flatMap (·.2)

/-! ### Cells (R356 to R361) -/

/-- Cells charged to a source. -/
def Dev.cellsUsed (d : Dev) (s : Nat) : Nat := d.cells.getD s 0

/-- MPD_SRC_CFG[s].RSV. -/
def Dev.cellsRsv (d : Dev) (s : Nat) : Nat := d.fld (reg .mpd 0 (0x200 + 8 * s)) 0 21

/-- MPD_SRC_CFG[s].MAX. -/
def Dev.cellsMax (d : Dev) (s : Nat) : Nat := d.fld (reg .mpd 0 (0x204 + 8 * s)) 0 21

/-- Free cells of the shared pool (R359). -/
def Dev.poolFree (d : Dev) : Nat :=
  1048576 - ((rangeFrom 0 10).foldl (fun a s => a + d.cellsRsv s + (d.cellsUsed s - d.cellsRsv s)) 0)

/-- SHARED_EMPTY raised where the shared pool has come to 0 free cells since `d0` (R383). -/
def Dev.poolNote (d d0 : Dev) : Dev := if d.poolFree = 0 ∧ d0.poolFree ≠ 0 then d.raise .mpd 0 0 9 else d

/-- `n` cells taken for a source: from its reserve, then from the shared pool up to MAX (R359); none when they cannot
be had, or while MPD accepts no work (R671). -/
def Dev.cellAlloc (d : Dev) (s n : Nat) : Option Dev :=
  let u := d.cellsUsed s
  let rsv := d.cellsRsv s
  let excess := u + n - max u rsv
  if d.accepts .mpd 0 ∧ (u + n ≤ rsv ∨ (u + n ≤ d.cellsMax s ∧ excess ≤ d.poolFree)) then
    some (({ d with cells := d.cells.set s (u + n) 0 } : Dev).poolNote d)
  else none

/-- `n` cells of a source freed. -/
def Dev.cellFree (d : Dev) (s n : Nat) : Dev := { d with cells := d.cells.set s (d.cellsUsed s - n) 0 }

/-- The cells of a frame of `n` bytes (R356). -/
def cellsFor (n : Nat) : Nat := ceilDiv n 256

/-- The cells of a packet freed, with its share in the count of its port and priority (R361, R378). -/
def Dev.freePkt (d : Dev) (p : Pkt) : Dev :=
  let d := d.cellFree p.src p.cells
  match p.pri with
  | some (port, i) =>
    let k := port * 8 + i
    { d with priCells := d.priCells.set k (d.priCells.getD k 0 - p.cells) 0 }
  | none => d

/-- A packet's cells changed to `n`, charged to its source. -/
def Dev.recharge (d : Dev) (p : Pkt) (n : Nat) : Dev × Pkt :=
  let d : Dev := { d with cells := d.cells.set p.src (d.cellsUsed p.src - p.cells + n) 0 }
  let d : Dev := match p.pri with
    | some (port, i) =>
      let k := port * 8 + i
      { d with priCells := d.priCells.set k (d.priCells.getD k 0 - p.cells + n) 0 }
    | none => d
  (d, { p with cells := n })

/-! ### Drops (R379) -/

/-- A drop counted in MPD_DROP of its cause; cause 0 raises NO_CELL (R383). -/
def Dev.countDrop (d : Dev) (cause : Nat) : Dev :=
  let d := d.bump (reg .mpd 0 (0x800 + 8 * cause))
  if cause = 0 then d.raise .mpd 0 0 8 else d

/-- A packet dropped with a cause: counted, its cells freed. -/
def Dev.dropPkt (d : Dev) (p : Pkt) (cause : Nat) : Dev := (d.freePkt p).countDrop cause

/-! ### Ports and pipelines -/

/-- A port. -/
def Dev.port (d : Dev) (n : Nat) : PortSt := d.ports.getD n {}

/-- A port changed. -/
def Dev.setPort (d : Dev) (n : Nat) (p : PortSt) : Dev := { d with ports := d.ports.set n p {} }

/-- A pipeline. -/
def Dev.pipe (d : Dev) (n : Nat) : Pipe := d.pipes.getD n {}

/-- A pipeline changed. -/
def Dev.setPipe (d : Dev) (n : Nat) (p : Pipe) : Dev := { d with pipes := d.pipes.set n p {} }

/-- Cells in an egress queue. -/
def Dev.queueCells (d : Dev) (port q : Nat) : Nat := ((d.port port).queues.getD q []).foldl (fun a i => a + i.cells) 0

/-- EGR_Q_DROP counted for a network port (R382). -/
def Dev.countQDrop (d : Dev) (port q : Nat) : Dev :=
  if port < 4 then d.bump (reg .egr 0 (port * 0x10000 + 0x4008 + 0x10 * q)) else d

/-- The role of a service group (R582). -/
def Dev.role (d : Dev) (g : Nat) : Role := d.pair.roles.getD g .off

/-- PRL_GROUP_CFG of a group. -/
def Dev.groupCfg (d : Dev) (g : Nat) : Nat := d.rdN (reg .prl 0 (0x140 + 4 * g))

/-- The group of a KIND that covers bit `m` of its MASK (R580). -/
def Dev.groupOf (d : Dev) (kind m : Nat) : Option Nat :=
  (rangeFrom 0 8).find? fun g => decide (bitsOf (d.groupCfg g) 0 3 = kind) && bitOf (d.groupCfg g) (16 + m)

/-- The group of a KIND without a mask (2 STORE, 3 SA). -/
def Dev.groupKind (d : Dev) (kind : Nat) : Option Nat :=
  (rangeFrom 0 8).find? fun g => decide (bitsOf (d.groupCfg g) 0 3 = kind)

/-- A group stands by (R580). -/
def Dev.standsBy (d : Dev) (g : Option Nat) : Bool :=
  match g with
  | some g => d.role g = .stale || d.role g = .standby
  | none => false

/-- A group is ACTIVE: its changes are mirrored (R581). -/
def Dev.groupActive (d : Dev) (g : Option Nat) : Bool :=
  match g with
  | some g => d.role g = .active
  | none => false

/-- A network port is in standby (R580). -/
def Dev.portStandby (d : Dev) (n : Nat) : Bool := decide (n < 4) && d.standsBy (d.groupOf 1 n)

/-- PRL_ETHERTYPE. -/
def Dev.prlType (d : Dev) : Nat := d.fld (reg .prl 0 0x108) 0 16

/-- The queue a frame appended to a port goes into: an alternate heartbeat's is PRL_ALT.QUEUE (R583). [log 233: DEDUCED] -/
def Dev.queueOf (d : Dev) (port queue : Nat) (p : Pkt) : Nat :=
  let alt := d.rdN (reg .prl 0 0x10C)
  if p.src = 8 ∧ bitOf alt 31 ∧ port = bitsOf alt 0 2 ∧ beAt p.data 12 2 = d.prlType then bitsOf alt 8 6
  else if port = 4 then queue % 8 else queue

/-- A frame appended to an egress queue, or dropped with QUEUE_FULL or PORT_DOWN (R370, R375, R376, R409, R580, R671). -/
def Dev.enqueue (d : Dev) (port queue : Nat) (p : Pkt) : Dev :=
  let q := d.queueOf port queue p
  let maxC := if port < 4 then d.fld (reg .egr 0 (port * 0x10000 + 0x404 + 8 * q)) 0 21 else 0
  if (d.port port).link ≠ .up ∨ d.secDown port = true ∨ (port < 4 ∧ d.enabled .egr 0 ∧ d.quiesce .egr 0) ∨ (d.portStandby port ∧ p.src ≠ 8) then
    (d.dropPkt p 8).countQDrop port q
  else if maxC ≠ 0 ∧ maxC < d.queueCells port q + p.cells then
    let d := (d.dropPkt p 6).countQDrop port q
    if port < 4 then d.raise .egr 0 port 8 else d
  else
    let s := d.port port
    d.setPort port { s with queues := s.queues.set q (s.queues.getD q [] ++ [{ pkt := p, cells := p.cells }]) [] }

/-- Every frame of the queues of a port is dropped with PORT_DOWN and the deficits are zeroed (R376). -/
def Dev.dropQueues (d : Dev) (n : Nat) : Dev :=
  let p := d.port n
  p.queues.cells.foldl (fun d c => c.2.foldl (fun d i => (d.dropPkt i.pkt 8).countQDrop n c.1) d)
    (d.setPort n { p with queues := {}, deficits := {}, rrVisited := false })

/-- The queues of a MACsec port whose controlled port is not operational are those of a link that is down, from the moment it
is not (R376, R409). -/
def Dev.secSettle (d : Dev) (n : Nat) : Dev :=
  let p := d.port n
  if (p.queues.cells ≠ [] ∨ p.deficits.cells ≠ []) ∧ d.secDown n = true then
    (d.dropQueues n).bump (secCount n 6) ((p.queues.values.map List.length).foldl (· + ·) 0)
  else d

/-- A frame handed to the distributor (R25, R36, R37). -/
def Dev.toDst (d : Dev) (p : Pkt) : Dev := { d with dst := d.dst ++ [{ p with arrived := d.bounds }] }

/-- A frame of a block engine, a control core or of LRN, sent once its cells can be had (R360). -/
def Dev.sendLater (d : Dev) (p : Pkt) : Dev := { d with sendWait := d.sendWait ++ [p] }

/-- A frame of the device that has its cells: a learning frame goes to its port, every other to the distributor (R36, R341). -/
def Dev.sendOn (d : Dev) (p : Pkt) : Dev :=
  if p.src = 9 then d.enqueue p.ingress (d.fld (reg .lrn 0 0x110) 16 6) p else d.toDst p

/-- The frames `ps` that wait for cells taken in order; a source that finds no cell waits with all its later frames, and so
`stuck` names the sources that wait (R360). -/
def Dev.sendTake (d : Dev) (stuck : List Nat) : List Pkt → Dev
  | [] => d
  | p :: ps =>
    if stuck.contains p.src then (d.sendLater p).sendTake stuck ps
    else match d.cellAlloc p.src p.cells with
      | some d => (d.sendOn p).sendTake stuck ps
      | none => (d.sendLater p).sendTake (p.src :: stuck) ps

/-- Every frame that waits for cells tried again. -/
def Dev.sendDrain (d : Dev) : Dev := ({ d with sendWait := [] } : Dev).sendTake [] d.sendWait

/-- The port index of a function (R200). -/
def funcPort (f : Func) : Nat := 0x1000 * (f.link + 1) + f.num

/-- A frame put before an RX ring to be delivered (R164); discarded and counted at once where the ring is not ACTIVE. -/
def Dev.toRx (d : Dev) (r : Nat) (p : Pkt) : Dev :=
  let s := d.ring r
  if s.state = .active then d.setRing r { s with rx := s.rx ++ [{ pkt := p, since := d.bounds }] }
  else ((d.freePkt p).countDrop 7).ringDropped r

end Sys2Proof.Machine
end

