-- ==== Sys2Proof/Machine/Hold.lean ====
section
/-! DEFINITION. The steeping buffer: units reserved, HOLD_FULL (R416, R419); the grain jobs that store lanes have started
(R671). -/

namespace Sys2Proof.Machine

/-- A counter of page 1 of a CIP cluster (R434). [log 99: DEDUCED] -/
def cipCount (c x : Nat) : Nat := reg .cip c (0x10000 + x)

/-- Steeping units reserved in a cluster: CIP_HOLD_USED. -/
def Dev.holdUsed (d : Dev) (c : Nat) : Nat :=
  if c = 0 then (rangeFrom 0 16).foldl (fun a i => a + match (d.lane 0 i).active with | some x => x.units | none => 0) 0
  else if c = 1 then
    d.rings.values.foldl (fun a r => r.work.foldl (fun a w => a + match w.note with | 2 :: _ :: _ :: u :: _ => u | _ => 0) a) 0
  else 0

/-- CIP_HOLD_SIZE. -/
def Dev.holdSize (d : Dev) (c : Nat) : Nat := d.fld (reg .cip c 0x108) 0 17

/-- The end of a stall: its cycles, which the model does not count, added to a stall counter as a free value (R419, R424).
[log 171: DESIGN CHOICE] -/
def Dev.stallEnd (d : Dev) (c x : Nat) : Dev :=
  let (d, n) := d.drawFree
  d.bump (cipCount c x) n

/-- HOLD_FULL set, raised when it goes to 1 (R419). -/
def Dev.setHoldFull (d : Dev) (c : Nat) (v : Bool) : Dev :=
  let k := reg .cip c 0x100
  let was := d.bit k 17
  let d := if was = v then d else d.setFld k 17 1 (b2n v)
  if v && !was then d.raise .cip c 0 10
  else if was && !v then d.stallEnd c 0x130
  else d

/-- The units are there; otherwise HOLD_FULL. -/
def Dev.holdRoom (d : Dev) (c n : Nat) : Dev × Bool :=
  if d.holdUsed c + n ≤ d.holdSize c then (d.setHoldFull c false, true) else (d.setHoldFull c true, false)

/-- ALG of a job. -/
def jobAlg (w : Work) : Nat := byteAt w.entry 2

/-- LENGTH of a job. -/
def jobLen (w : Work) : Nat := leAt w.entry 8 4

/-- GMAC. -/
def algGmac (a : Nat) : Bool := a = 3 || a = 4

/-- The hold units of a job of opcode `op`: one for each 256 bytes of a job that verifies a tag (R419). -/
def jobUnits (w : Work) (op : Nat) : Nat :=
  if op = 2 ∨ (op = 4 ∧ algGmac (jobAlg w)) then ceilDiv (jobLen w) 256 else 0

/-- An operation waits for units of a cluster's partition, which it lacks: the packet at the head of an inline lane, or the next job
of a LOOK ring (R419). -/
def Dev.holdLacks (d : Dev) (c : Nat) : Bool :=
  let lacks (n : Nat) : Bool := decide (d.holdSize c < d.holdUsed c + n)
  d.accepts .cip c && if c = 0 then
    (rangeFrom 0 16).any fun i => match (d.lane 0 i).queue with
      | j :: _ => (d.lane 0 i).active.isNone && lacks (ceilDiv (j.pad - j.pstart - 24) 256)
      | [] => false
  else
    d.rings.cells.any fun q => decide (d.ringKind q.1 = 3) && match q.2.work.find? fun w => w.done.isNone && !w.started with
      | some w => decide (w.opcode ≤ 5) && lacks (jobUnits w w.opcode)
      | none => false

/-- HOLD_FULL of a cluster cleared once nothing lacks units (R419). -/
def Dev.holdSettle (d : Dev) (c : Nat) : Dev := if d.bit (reg .cip c 0x100) 17 && !d.holdLacks c then d.setHoldFull c false else d

/-! ### Grain jobs (R611, R671) -/

/-- A grain has a job on the store cluster. -/
def GTask.inJob (t : GTask) : Bool := decide (t.phase = .seal ∨ t.phase = .open_)

/-- The store cluster is there: a lane is in service and its domain is on (R611). -/
def Dev.storeLanes (d : Dev) : Bool := d.laneAny 2 && !d.fencedAt .cip 2 0

/-- Grain jobs start while the cluster takes work and has a free lane, the oldest first; one that has started runs to its end
(R671). -/
def Dev.storeStart (d : Dev) : Dev :=
  let keep (t : GTask) : GTask := { t with started := t.started && t.inJob && d.storeLanes }
  let ts := d.tasks.map keep
  let free := if d.clusterTakes 2 && d.entRuns 2 then
      ((rangeFrom 0 (laneCount 2)).filter fun i => (d.lane 2 i).fenced.isNone).length - (ts.filter (·.started)).length
    else 0
  let go := ((ts.filter fun t => t.inJob && !t.started).take free).map (·.id)
  { d with tasks := ts.map fun t => { t with started := t.started || decide (t.id ∈ go) } }

/-- A grain job may end now: it has started, or could start at once, and its randomness runs (R424, R671). -/
def Dev.storeRuns (d : Dev) (t : GTask) : Bool := d.entRuns 2 && d.storeLanes && (t.started || d.accepts .cip 2)

end Sys2Proof.Machine
end

