-- ==== Sys2Proof/Machine/Access.lean ====
section
/-! DEFINITION. An access to a BAR0 register: where it lands, who may make it, the order of its error conditions (R670),
and what a write without an effect of its own stores (R15, R20, R672). -/

namespace Sys2Proof.Machine

/-- The page header (R49); rows without access are the reserved registers of R48. -/
def rowsHeader : List RegRow :=
  [{ off := 0x00, n := 4, stride := 4 },
   { off := 0x10, rw := 0x3, w1s := 0x4 },
   { off := 0x14 },
   { off := 0x18, n := 2, stride := 4, wo := true },
   { off := 0x20, w1c := 0xFFFFFFFF },
   { off := 0x24, rw := 0xFFFFFF03 },
   { off := 0x28, wo := true },
   { off := 0x2C, rw := 0x9FFF07FF, ranges := [⟨16, 12, 0, 2048, false⟩] },
   { off := 0x30, n := 4, stride := 4, wo := true },
   { off := 0x40, w1c := 0x80000000 },
   { off := 0x44, n := 7, stride := 4 },
   { off := 0x60, rw := 0xF },
   { off := 0x64, n := 7, stride := 4, wo := true },
   { off := 0x80, n := 32, stride := 4, wo := true }]

/-- What a register address means: a register of the page header, of a block, of a ring's context, the ring selector, a
register of the context of the selected Quern queue or function (R507), a register of a VF's control page (R548). -/
inductive Space where
  | header
  | block
  | ring (r : Nat)
  | sel
  | queue (q : Nat)
  | fctx (f : Func)
  | vfPage (f : Func)
deriving DecidableEq, Repr

/-- The register an access reaches: the access, its width, the page, the kind of register, its row, the offset of its
start (in the page for the header, in the instance for a block, in the context for a ring), where its low word is kept,
and which half of a 64-bit register a 4 B access names (0 or 4). -/
structure Tgt where
  acc : Access
  width : Nat
  loc : Loc
  space : Space
  row : RegRow
  x : Nat
  key : Nat
  half : Nat
deriving DecidableEq, Repr

/-- The context offset an RNG page shows at `off`: the window, or the direct location (R74). -/
def rngSpace (d : Dev) (pt : Party) (l : Loc) : Space :=
  if l.off = 0x80 then .sel
  else if 0xC0 ≤ l.off ∧ l.off < 0x100 then .ring (d.fld (selKey (partyOrder pt)) 0 16)
  else if 0x100 ≤ l.off then .ring (l.page * 1024 + l.off / 0x40)
  else .header

/-- The kind of register at a place. -/
def spaceOf (d : Dev) (pt : Party) (l : Loc) : Space :=
  if l.blk = .rng then rngSpace d pt l
  else if l.off < 0x100 ∨ (0x8000 ≤ l.off ∧ l.off < 0x8100) then .header
  else if l.blk = .qrn ∧ l.page = 0 ∧ 0x140 ≤ l.off ∧ l.off < 0x160 then .queue (d.fld (reg .qrn 0 0x108) 0 14)
  else if l.blk = .qrn ∧ l.page = 0 ∧ 0x180 ≤ l.off ∧ l.off < 0x1A0 then
    .fctx ⟨d.fld (reg .qrn 0 0x10C) 12 1, d.fld (reg .qrn 0 0x10C) 0 12⟩
  else .block

/-- The link that owns what an access reaches; none for a global page (R67). -/
def ownerLink (d : Dev) (l : Loc) (sp : Space) : Option Nat :=
  match sp with
  | .ring r => some (d.ringFunc r).link
  | .queue q => some (d.queueFunc q).link
  | .fctx f | .vfPage f => some f.link
  | _ => if l.blk = .hif ∨ l.blk = .vfm then some l.inst else none

/-- A party may write there (R68); every party may write its own ring selector (R74). -/
def mayWrite (d : Dev) (pt : Party) (l : Loc) (sp : Space) : Bool :=
  match pt with
  | .core _ => true
  | .hif0 => d.primary = 0 || sp = .sel || ownerLink d l sp = some 0
  | .hif1 => d.primary = 1 || sp = .sel || ownerLink d l sp = some 1
  | _ => false

/-- The register at a place: its row, its start, and where its low word is kept. -/
def rowOf (pt : Party) (l : Loc) (sp : Space) : Option (RegRow × Nat × Nat) :=
  match sp with
  | .sel => some ({ off := 0x80, rw := 0xFFFF }, 0x80, selKey (partyOrder pt))
  | .ring r => (rowAt rowsRng (l.off % 0x40)).map fun q => (q.1, q.2, rngKey r q.2)
  | .queue q => (rowAt rowsQueueCtx (l.off - 0x140)).map fun x => (x.1, x.2, queueKey q x.2)
  | .fctx f => (rowAt rowsFuncCtx (l.off - 0x180)).map fun x => (x.1, x.2, fctxKey f x.2)
  | .vfPage f => (rowAt rowsVfPage l.off).map fun x => (x.1, x.2, vfKey f x.2)
  | .header =>
    if l.off = 0x10 ∨ l.off = 0x14 then
      (rowAt rowsHeader l.off).map fun q => (q.1, q.2, l.instBase + q.2)
    else if 0x8000 ≤ l.off then some ({ off := l.off, wo := true }, l.off, l.pageBase + l.off)
    else (rowAt rowsHeader l.off).map fun q => (q.1, q.2, l.pageBase + q.2)
  | .block =>
    let x := unshadow l
    match rowAt l.blk.rows (l.page * 0x10000 + x) with
    | some (r, a) =>
      if x = l.off then some (r, a, l.instBase + a)
      else if r.tl then some (r, a, l.instBase + a + 0x8000) else none
    | none => none

/-- An access has a width and an alignment of R47: 4 B anywhere aligned, 8 B on a 64-bit register. -/
def goodWidth (off width : Nat) (r : Option (RegRow × Nat × Nat)) : Bool :=
  if width = 4 then off % 4 = 0
  else if width = 8 then
    match r with
    | some (row, _, _) => row.w64 && off % 8 = 0
    | none => false
  else false

/-- The place of a BAR0 offset; in RECOVERY only the SYS, FWC and SEC pages respond (R600). -/
def Dev.place (d : Dev) (off : Nat) : Option Loc :=
  match locate off with
  | some l => if d.fld (reg .fwc 0 0x100) 0 2 = 2 ∧ l.blk ≠ .sys ∧ l.blk ≠ .fwc ∧ l.blk ≠ .sec then none else some l
  | none => none

/-- A read lands: the register, or none where it reads zero. [log 26: DEDUCED] -/
def Dev.target (d : Dev) (pt : Party) (off v : Nat) : Access × Option (Loc × Space × Option (RegRow × Nat × Nat)) :=
  match d.place off with
  | none => ({ pt := pt, off := off, data := v, page := pageOf .sys 0 0 }, none)
  | some l =>
    let sp := spaceOf d pt l
    let det := match sp with | .ring r => if l.off < 0x100 then r else 0 | _ => 0
    ({ pt := pt, off := off, data := v, page := l.pageBase, detail := det }, some (l, sp, rowOf pt l sp))

/-- The access to the register of a row. -/
def mkTgt (a : Access) (width : Nat) (l : Loc) (sp : Space) (q : RegRow × Nat × Nat) : Tgt :=
  { acc := a, width := width, loc := l, space := sp, row := q.1, x := q.2.1, key := q.2.2,
    half := if width = 4 ∧ q.1.w64 ∧ a.off % 8 = 4 then 4 else 0 }

/-- The register of its control page that an access of a VF reaches (R548, R549); none behind a selector that names
nothing of the VF. -/
def Dev.vfPlace (d : Dev) (f : Func) (off : Nat) : Option (Space × RegRow × Nat × Nat) :=
  if 0x1140 ≤ off ∧ off < 0x1180 then
    match d.ringOfLocal f (d.rdN (vfKey f 0x1100)) with
    | some r => (rowAt rowsRng (off - 0x1140)).map fun q => (.ring r, q.1, q.2, rngKey r q.2)
    | none => none
  else if 0x1240 ≤ off ∧ off < 0x1260 then
    match d.queueOfLocal f (d.rdN (vfKey f 0x1200)) with
    | some q => (rowAt rowsQueueCtx (off - 0x1240)).map fun x => (.queue q, x.1, x.2, queueKey q x.2)
    | none => none
  else if 0x1280 ≤ off ∧ off < 0x12A0 then (rowAt rowsFuncCtx (off - 0x1280)).map fun x => (.fctx f, x.1, x.2, fctxKey f x.2)
  else (rowAt rowsVfPage off).map fun x => (.vfPage f, x.1, x.2, vfKey f x.2)

/-- The ring that a VF's ring-local index stands for in a field of its windows (R549). -/
def Dev.vfRing (d : Dev) (f : Func) (sp : Space) (x v : Nat) : Nat :=
  match sp with
  | .ring _ => if x = 0x34 then (d.grantAt f 4 2 + v) % 65536 else v
  | .queue _ => if x = 4 then (d.grantAt f 4 2 + v) % 65536 else v
  | _ => v

/-- The conditions of a write of a VF to its control page (R548, R549); its MSI-X structures are not registers. -/
def Dev.vfWriteCheck (d : Dev) (f : Func) (off width v : Nat) : Except Dev Tgt :=
  let a : Access := { pt := .vf f, off := off, data := v, page := 0 }
  if !d.fnExists f || decide (off < 0x400) || decide (0x800 ≤ off ∧ off < 0x808) then .error d
  else match d.vfPlace f off with
    | none => .error (d.logAcc a (if goodWidth off width none then 0x0003 else 0x0005))
    | some (sp, row, x, k) =>
      if !goodWidth off width (some (row, x, k)) then .error (d.logAcc a 0x0005)
      else if row.need8 ∧ width ≠ 8 then .error (d.logAcc a 0x0005)
      else if row.readOnly then .error (d.logAcc a 0x0004)
      else
        let l : Loc := { blk := .vfm, code := 0, inst := f.link, page := 0, pages := 0, instBase := 0, pageBase := 0, off := off }
        .ok (mkTgt { a with data := d.vfRing f sp x v } width l sp (row, x, k))

/-- The conditions of a write in the order of R670: the register to write, or the device with the refusal logged.
[log 19: DEDUCED] -/
def Dev.writeCheck (d : Dev) (pt : Party) (off width v : Nat) : Except Dev Tgt :=
  let (a, t) := d.target pt off v
  match pt with
  | .vf f => d.vfWriteCheck f off width v
  | pt =>
  match t with
  | none =>
    if (match pt with | .core _ => true | .hif0 => d.primary = 0 | .hif1 => d.primary = 1 | _ => false) then
      .error (d.logSys a (if goodWidth off width none then 0x0003 else 0x0005))
    else .error (d.logSys a 0x0002)
  | some (l, sp, q) =>
    if !mayWrite d pt l sp then .error (d.logSys a 0x0002)
    else if !goodWidth off width q then .error (d.logAcc a 0x0005)
    else match q with
      | none => .error (d.logAcc a 0x0003)
      | some (row, x, k) =>
        if row.need8 ∧ width ≠ 8 then .error (d.logAcc a 0x0005)
        else if sp = .block ∧ d.fencedAt l.blk l.inst l.page then .error (d.logAcc a 0x0006)
        else if row.readOnly ∨ (row.tl ∧ k = l.instBase + x ∧ sp = .block) then .error (d.logAcc a 0x0004)
        else .ok (mkTgt a width l sp (row, x, k))

/-- The register of its control page that a read of a VF reaches; its errors are logged in VF_ERR0 (R548, R549). -/
def Dev.vfReadCheck (d : Dev) (f : Func) (off width : Nat) : Dev × Option Tgt :=
  let a : Access := { pt := .vf f, off := off, data := 0, page := 0 }
  if !d.fnExists f then (d, none)
  else match d.vfPlace f off with
    | none => (d.logAcc a (if goodWidth off width none then 0x0003 else 0x0005), none)
    | some (sp, row, x, k) =>
      if !goodWidth off width (some (row, x, k)) then (d.logAcc a 0x0005, none)
      else if row.wo then (d, none)
      else
        let l : Loc := { blk := .vfm, code := 0, inst := f.link, page := 0, pages := 0, instBase := 0, pageBase := 0, off := off }
        (d, some (mkTgt a width l sp (row, x, k)))

/-- The register a read reaches; the error of a read logged (R47, R48), none where zero is read.  A VF reads its control page
only (R46). -/
def Dev.readCheck (d : Dev) (pt : Party) (off width : Nat) : Dev × Option Tgt :=
  let (a, t) := d.target pt off 0
  match pt with
  | .vf f => d.vfReadCheck f off width
  | _ =>
  match t with
  | none => (d.logSys a (if goodWidth off width none then 0x0003 else 0x0005), none)
  | some (l, sp, q) =>
    if !goodWidth off width q then (d.logAcc a 0x0005, none)
    else match q with
      | none => (d.logAcc a 0x0003, none)
      | some q =>
        if q.1.wo ∨ (sp = .block ∧ d.fencedAt l.blk l.inst l.page) then (d, none)
        else (d, some (mkTgt a width l sp q))

/-- The value of the whole register as stored. -/
def Dev.old (d : Dev) (t : Tgt) : Nat := if t.row.w64 then d.rd64 t.key else d.rdN t.key

/-- The bits of the register the write covers. -/
def Tgt.mask (t : Tgt) : Nat := (2 ^ (8 * t.width) - 1) * 2 ^ (8 * t.half)

/-- The data at its place in the register. -/
def Tgt.data (t : Tgt) : Nat := t.acc.data % 2 ^ (8 * t.width) * 2 ^ (8 * t.half)

/-- The register after the write, were there no reserved encoding: written bits replaced, ones clear W1C bits. -/
def Tgt.merge (t : Tgt) (old : Nat) : Nat :=
  let m := t.row.rw &&& t.mask
  ((old ^^^ (old &&& m)) ||| (t.data &&& m)) ^^^ (old &&& t.row.w1c &&& t.data)

/-- A value of a field is not reserved. -/
def FieldRange.ok (r : FieldRange) (v : Nat) : Bool :=
  let x := bitsOf v r.lo r.len
  (r.zeroOk && x = 0) || (decide (r.min ≤ x) && decide (x ≤ r.max))

/-- The write covers a part of the field. -/
def FieldRange.covered (r : FieldRange) (mask : Nat) : Bool := bitsOf mask r.lo r.len ≠ 0

/-- Fields whose new value is reserved keep their value; whether there was one (R20). -/
def keepFields (old mask : Nat) : List FieldRange → Nat × Bool → Nat × Bool
  | [], q => q
  | r :: rs, (v, bad) =>
    if r.covered mask ∧ ¬ r.ok v then keepFields old mask rs (putBits v r.lo r.len (bitsOf old r.lo r.len), true)
    else keepFields old mask rs (v, bad)

/-- What a write leaves in its register under R15, R20 and R672, and whether it held a reserved encoding. -/
def Dev.settled (d : Dev) (t : Tgt) : Nat × Bool :=
  let old := d.old t
  if t.data &&& t.row.must0 ≠ 0 then (old, true)
  else keepFields old t.mask t.row.ranges (t.merge old, false)

/-- The register set to a value. -/
def Dev.put (d : Dev) (t : Tgt) (v : Nat) : Dev := if t.row.w64 then d.wr64 t.key v else d.wrN t.key v

/-- The effect of a write on a register with no effect of its own. -/
def Dev.store (d : Dev) (t : Tgt) : Dev :=
  let (v, bad) := d.settled t
  let d := d.put t v
  if bad then d.logAcc t.acc 0x0001 else d

/-- A write refused by a check of the register itself. -/
def Dev.refuse (d : Dev) (t : Tgt) (code : Nat) : Dev := d.logAcc t.acc code

/-- A write of a party to a register, with the effect `f` once nothing of R670 forbids it. -/
def Dev.ownWrite (d : Dev) (pt : Party) (off width v : Nat) (f : Dev → Tgt → Dev) : Dev :=
  match d.writeCheck pt off width v with
  | .error e => e
  | .ok t => f d t

/-- The part of a register value a read of a width and half returns. -/
def Tgt.view (t : Tgt) (v : Nat) : Nat := v / 2 ^ (8 * t.half) % 2 ^ (8 * t.width)

end Sys2Proof.Machine
end

