-- ==== Sys2Proof/Machine/TimeOps.lean ====
section
/-! DEFINITION. The time counter and the servo (R75 to R95) as operations on `TimeSt`, and the interrupts a change of it
raises. -/

namespace Sys2Proof.Machine

/-- One nanosecond in units of the counter. -/
abbrev nsUnit : Nat := 4294967296

/-- One second in nanoseconds. -/
abbrev secNs : Nat := 1000000000

/-! ### Views of the counter (R75) -/

/-- Whole nanoseconds: device time T of R75. -/
def TimeSt.ns (t : TimeSt) : Nat := t.count / nsUnit

/-- TIM_NOW0 of a captured counter. -/
def now0 (c : Nat) : Nat := c / nsUnit % secNs + p32 * (c / nsUnit / secNs % p32)

/-- TIM_NOW1 of a captured counter. -/
def now1 (c : Nat) : Nat := c / nsUnit / secNs / p32 % 65536 + p32 * (c % nsUnit)

/-- The latch of a party (R78). -/
def TimeSt.latch (t : TimeSt) (pt : Party) : Nat := t.latches.getD (partyOrder pt) 0

/-- The timestamp of a moment: fraction in 2^-16 ns (R100). -/
def tsOf (c : Nat) : Ts := { sec := c / nsUnit / secNs % 2 ^ 48, ns := c / nsUnit % secNs, frac := c % nsUnit / 65536 }

/-! ### Advance (R86) -/

/-- What one pass takes off the remaining offset at most. -/
def TimeSt.takeMax (t : TimeSt) : Nat := t.incr - t.incr / 2

/-- One pass of the procedure of R86. -/
def TimeSt.pass (t : TimeSt) : TimeSt :=
  if 0 < t.remain then
    let take := min t.takeMax t.remain
    { t with count := t.count + (t.incr - take), remain := t.remain - take }
  else if 0 < t.slewLeft then { t with count := t.count + t.slewIncr, slewLeft := t.slewLeft - 1 }
  else { t with count := t.count + t.incr }

/-- `n` passes at once. [log 48: DEDUCED] -/
def TimeSt.passes (t : TimeSt) (n : Nat) : TimeSt :=
  let k1 := min n (ceilDiv t.remain t.takeMax)
  let taken := min t.remain (k1 * t.takeMax)
  let k2 := min (n - k1) t.slewLeft
  { t with count := t.count + (k1 * t.incr - taken) + k2 * t.slewIncr + (n - k1 - k2) * t.incr,
           remain := t.remain - taken, slewLeft := t.slewLeft - k2 }

/-- Passes in one cycle of the time clock: 8 while it coasts. -/
def TimeSt.perCycle (t : TimeSt) : Nat := if t.coast then 8 else 1

/-- `n` cycles of the time clock. -/
def TimeSt.advance (t : TimeSt) (n : Nat) : TimeSt := t.passes (n * t.perCycle)

/-- Cycles until the remaining offset is absorbed. -/
def TimeSt.absorbCycles (t : TimeSt) : Nat := ceilDiv (ceilDiv t.remain t.takeMax) t.perCycle

/-- Cycles until the slew in progress has run down; an absorption pauses it. -/
def TimeSt.slewCycles (t : TimeSt) : Nat := ceilDiv (ceilDiv t.remain t.takeMax + t.slewLeft) t.perCycle

/-! ### Status -/

/-- TIM_STATUS.SUSPECT with TIM_HOLD_LIMIT = `limit` (R93). -/
def TimeSt.suspect (t : TimeSt) (limit : Nat) : Bool :=
  !t.valid || t.lossSinceLock || (t.holdover && (t.holdLong || limit = 0))

/-- SERVO_STATE (R89). -/
def Servo.code : Servo → Nat
  | .unset => 0
  | .acquiring => 1
  | .locked => 2
  | .holdover => 3
  | .coast => 4
  | .host => 5

/-- TIM_STATUS (R89). -/
def TimeSt.status (t : TimeSt) (limit : Nat) : Nat :=
  b2n t.valid + 2 * b2n t.holdover + 4 * b2n (t.suspect limit) + 8 * b2n (decide (t.remain ≠ 0)) +
    16 * b2n (decide (t.slewLeft ≠ 0)) + 32 * b2n t.coast + 256 * t.servo.code

/-- TIM_HOLD_LIMIT. -/
def Dev.holdLimit (d : Dev) : Nat := d.rdN (reg .tim 0 0x10C)

/-- Time is suspect (R93). -/
def State.suspect (s : State) : Bool := s.time.suspect s.dev.holdLimit

/-- The PG_INT_STATUS bits of the TIM page a change of the time state raises (R90). -/
def timInts (t u : TimeSt) (limit : Nat) : Nat :=
  256 * b2n (!t.holdover && u.holdover) + 512 * b2n (!t.suspect limit && u.suspect limit) +
    4096 * b2n (decide (t.remain ≠ 0) && decide (u.remain = 0)) +
    8192 * b2n (decide (t.slewLeft ≠ 0) && decide (u.slewLeft = 0))

/-- Interrupt bits of a page set where there are any. -/
def Dev.setInts (d : Dev) (page mask : Nat) : Dev := if mask = 0 then d else d.setInt page mask

/-- The time state replaced, with the interrupts of R90 and LOCAL_ONLY of the TRN page (R128). -/
def State.setTime (s : State) (t : TimeSt) : State :=
  let limit := s.dev.holdLimit
  let d := s.dev.setInts (pageOf .tim 0 0) (timInts s.time t limit)
  let d := d.setInts (pageOf .trn 0 0) (32768 * b2n (!s.time.suspect limit && t.suspect limit))
  { s with time := t, dev := { d with localOnly := t.suspect limit } }

/-! ### Servo (R80 to R95) -/

/-- The owner of the servo registers is the host (R80). -/
def Dev.hostOwner (d : Dev) : Bool := d.bit (reg .tim 0 0x100) 0

/-- A party is the servo owner (R80). -/
def Dev.servoOwner (d : Dev) (pt : Party) : Bool :=
  match pt with
  | .core _ => !d.hostOwner
  | .hif0 => d.hostOwner && d.primary = 0
  | .hif1 => d.hostOwner && d.primary = 1
  | _ => false

/-- A servo update: HOLDOVER ends, and the servo leaves HOLDOVER for ACQUIRING (R91). -/
def TimeSt.update (t : TimeSt) : TimeSt :=
  { t with holdover := false, holdLong := false, servo := if t.servo = .holdover then .acquiring else t.servo }

/-- The owner reports lock (R93). -/
def TimeSt.lock (t : TimeSt) : TimeSt := { t with valid := true, lossSinceLock := false }

/-- The range of TIM_INCR and TIM_SLEW_INCR (R79). -/
abbrev incrOk (v : Nat) : Prop := 0x80000000 ≤ v ∧ v ≤ 0x180000000

/-- A number near `c`, off by at most `bound`; how far is left open. -/
def Dev.near (d : Dev) (c bound : Nat) : Dev × Nat :=
  let (d, e) := d.drawFree
  (d, c + e % (2 * bound + 1) - bound)

/-! ### Pulse outputs over a forward step (R113) -/

/-- Output `n` of the pulse outputs. -/
def TimeSt.tpoAt (t : TimeSt) (n : Nat) : TpoSt := t.tpo.getD n {}

/-- TIM_TPO_CTRL of an output; the other registers follow it. -/
def tpoReg (n : Nat) : Nat := reg .tim 0 (0x200 + 0x20 * n)

/-- A pulse output changed. -/
def TimeSt.setTpo (t : TimeSt) (n : Nat) (o : TpoSt) : TimeSt := { t with tpo := t.tpo.set n o {} }

/-- PERIOD of an output in counter units. -/
def Dev.tpoPeriod (d : Dev) (n : Nat) : Nat :=
  let v := d.rd64 (tpoReg n + 0x10)
  v / p32 * nsUnit + v % p32

/-- SKIPPED of an output increased, saturating. -/
def Dev.tpoSkip (d : Dev) (n k : Nat) : Dev :=
  d.setFld (tpoReg n + 0x18) 16 16 (min 65535 (d.fld (tpoReg n + 0x18) 16 16 + k))

/-- One output after the counter has jumped forward: edges strictly before the new time are passed over (R113). -/
def tpoJump (q : TimeSt × Dev) (n : Nat) : TimeSt × Dev :=
  let (t, d) := q
  let o := t.tpoAt n
  match o.next with
  | some e =>
    if e < t.count then
      if d.bit (tpoReg n) 1 then
        let p := d.tpoPeriod n
        let k := ceilDiv (t.count - e) p
        (t.setTpo n { o with next := some (e + k * p) }, (d.tpoSkip n k).setInt (pageOf .tim 0 0) (2 ^ (24 + n)))
      else
        (t.setTpo n { next := none, pulse := some t.count },
          (d.setFld (tpoReg n + 0x18) 1 1 1).setInt (pageOf .tim 0 0) (2 ^ (24 + n)))
    else (t, d)
  | none => (t, d)

/-- The pulse outputs after the counter has jumped forward. -/
def tpoJumps (q : TimeSt × Dev) : TimeSt × Dev := (rangeFrom 0 8).foldl tpoJump q

end Sys2Proof.Machine
end

