-- ==== Sys2Proof/Machine/Status.lean ====
section
/-! DEFINITION. Which instances have work outstanding, and PG_STATUS.QUIESCED with its STATE interrupt (R669, R671). -/

namespace Sys2Proof.Machine

/-- Some ring has work, an owed or a stashed completion. -/
def Dev.ringsBusy (d : Dev) : Bool :=
  d.rings.values.any fun r => r.work ≠ [] || decide (r.owed ≠ 0) || r.stash ≠ [] || r.held ≠ []

/-- Work of rings of a kind with an opcode in a range has started and not ended, on rings that satisfy `on`. -/
def Dev.worksRun (d : Dev) (kind lo hi : Nat) (on : Nat → Bool := fun _ => true) : Bool :=
  d.rings.cells.any fun q => decide (d.ringKind q.1 = kind) && on q.1 &&
    q.2.work.any fun w => w.started && w.done.isNone && decide (lo ≤ w.opcode ∧ w.opcode ≤ hi)

/-- A Quern command runs on a block engine: the one that serves its volume, every one for a wide volume. -/
def Dev.cmdOnEngine (d : Dev) (c : QCmd) (e : Nat) : Bool :=
  match d.vols.find (leAt c.entry 4 2) with
  | some x => decide (x.eng = e) || decide (byteAt x.rec_ 3 % 2 = 1)
  | none => false

/-- Started work of an instance is outstanding: PG_STATUS.IDLE = 0 (R671). [log 28: DEDUCED] -/
def Dev.busy (d : Dev) (b : Blk) (i : Nat) : Bool :=
  match b with
  | .prs | .cls | .act =>
    (d.pipe i).marks ≠ [] || (d.pipe i).ready ≠ [] || (d.pipe i).leats ≠ [] || decide ((d.pipe i).act.ps.pkt.id ≠ 0)
  | .pat => (d.pipe i).marks ≠ []
  | .tbl => (d.tables.values.any fun t => t.state = .init || t.state = .draining) || d.worksRun 4 1 7
  | .mpd => d.cells.cells ≠ []
  | .egr => (rangeFrom 0 4).any fun p => (d.port p).queues.cells ≠ []
  | .rng => d.ringsBusy
  | .cip =>
    if i = 0 then (rangeFrom 0 16).any fun l => (d.lane 0 l).active.isSome
    else if i = 1 then d.worksRun 3 1 5
    else d.tasks.any fun t => t.started && t.inJob
  | .key => d.keyBusy.isSome || d.worksRun 3 0x20 0x32
  | .blkg => d.worksRun 7 0x50 0x59
  | .blke => d.qcmds.any fun c => c.started && c.done.isNone && d.cmdOnEngine c i
  | .qrn => d.qcmds.any fun c => c.started && c.done.isNone
  | .vfm => d.worksRun 7 0x60 0x66 fun r => decide ((d.ringFunc r).link = i)
  | _ => false

/-- QUIESCED of the instance whose PG_CTRL lies at `k` brought up to date; a change from 0 to 1 raises STATE in page 0 of the
instance (R669). [log 185: DESIGN CHOICE] -/
def settleAt (d : Dev) (k : Nat) : Dev :=
  match locate k with
  | some l =>
    if l.off = 0x10 ∧ l.page = 0 ∧ d.bit k 1 then
      let q := !d.busy l.blk l.inst
      let was := d.bit (k + 4) 2
      let d := if q = was then d else d.setFld (k + 4) 2 1 (b2n q)
      if q && !was then d.setInt l.instBase 2 else d
    else d
  | none => d

/-- A PFC frame of a network port (R378): it precedes every queue and takes no cell. -/
def Dev.pfcEmit (d : Dev) (port pri quanta : Nat) : Dev :=
  if (d.port port).link = .up then (d.emit (.pfc port (2 ^ pri) quanta)).bump (reg .mac port 0x250) else d

/-- The cells held by frames of a priority of a port against XOFF and XON (R378). -/
def pfcAt (d : Dev) (k : Nat) : Dev :=
  let port := k / 8
  let i := k % 8
  let c := reg .mpd 0 (0x400 + 0x10 * port)
  let n := d.priCells.getD k 0
  let p := d.port port
  match p.pfcSent.find i with
  | some _ =>
    if n < d.fld (c + 8) 0 21 then (d.setPort port { p with pfcSent := p.pfcSent.erase i }).pfcEmit port i 0 else d
  | none =>
    if d.bit c i ∧ d.fld (c + 4) 0 21 ≤ n then (d.setPort port { p with pfcSent := p.pfcSent.put i d.bounds }).pfcEmit port i 0xFFFF
    else d

/-- The flow control of every port and priority brought up to date. -/
def Dev.pfcSettle (d : Dev) : Dev := (rangeFrom 0 32).foldl pfcAt d

/-! ### VFM events (R554) -/

/-- Waiting events of a link written while their ring takes them, in order. -/
def vfmDrain (k : Nat) (d : Dev) : List (List Byte) → Dev
  | [] => d
  | e :: es =>
    let r := d.fld (reg .vfm k 0x104) 0 16
    if d.bit (reg .vfm k 0x104) 31 ∧ d.ringKind r = 5 ∧ (d.ring r).state = .active ∧ d.ringRoom r 2 then
      vfmDrain k ((d.setLink k { d.link k with events := es }).evtWrite r e).1 es
    else d

/-- A VFM event toward the manager of a link: written, or kept in the store of 4,096 events, or lost. [log 128: DEDUCED] -/
def Dev.vfmEvent (d : Dev) (k : Nat) (bs : List Byte) : Dev :=
  let l := d.link k
  if l.events.length < 4096 then
    let d := d.setLink k { l with events := l.events ++ [bs] }
    vfmDrain k d (d.link k).events
  else (d.bump (reg .vfm k 0x400)).raise .vfm k 0 11

/-- QUIESCED of every instance that is being quiesced, the queues of MACsec ports, flow control, frames that wait for cells,
waiting VFM events, HOLD_FULL and the grain jobs brought up to date. -/
def Dev.settle (d0 : Dev) : Dev :=
  let d := (rangeFrom 0 4).foldl Dev.secSettle d0
  let d := d.pfcSettle
  let d := d.sendDrain
  let d := vfmDrain 0 d (d.link 0).events
  let d := vfmDrain 1 d (d.link 1).events
  let d := ((d.holdSettle 0).holdSettle 1).storeStart
  (d.regs.keys.filter fun k => k % 0x10000 = 0x10 ∧ k < 0x8000000).foldl settleAt d

/-- The device takes commands: it is neither powered down nor held by SYS_RST_N (R628, R633, R640). [log 3: DEDUCED] -/
def State.live (s : State) : Bool := !s.dev.dead && !s.dev.resetHeld

/-- The next state of a command that acts on the device and can end work. -/
def State.act (s : State) (f : Dev → Dev) : Host.Outcome State Fault Refusal :=
  .next (if s.live then { s with dev := (f s.dev).settle } else s)

/-- The next state of a command that acts on the device and ends no work. -/
def State.onDev (s : State) (f : Dev → Dev) : Host.Outcome State Fault Refusal :=
  .next (if s.live then { s with dev := f s.dev } else s)

/-- The next state of a command that acts on time and device. -/
def State.run (s : State) (f : State → State) : Host.Outcome State Fault Refusal :=
  .next (if s.live then let t := f s; { t with dev := t.dev.settle, pending := s.pending } else s)

end Sys2Proof.Machine
end

