-- ==== Sys2Proof/Machine/Governors.lean ====
section
/-! DEFINITION. The governors (R364 to R369). -/

namespace Sys2Proof.Machine

/-- The turn period P in nanoseconds (R117). -/
def Dev.period (d : Dev) : Nat := 1024 * 2 ^ d.fld (reg .trn 0 0x100) 0 3

/-- A governor record (R365). -/
structure Gov where
  cir : Nat
  pir : Nat
  cbs : Nat
  flags : Nat
  pbs : Nat
  tc : Nat
  tp : Nat
  last : Nat
deriving DecidableEq, Repr

/-- Where the record of governor `g` lies (R364). -/
def Dev.govAddr (d : Dev) (g : Nat) : Nat := d.rd64 (reg .gov 0 0x100) + 32 * g

/-- The region of the governors lies inside HBM (R364). -/
def Dev.govFits (d : Dev) : Bool := decide (d.rd64 (reg .gov 0 0x100) + 33554432 ≤ hbmSize)

/-- A record as stored. -/
def govOf (b : List Byte) : Gov :=
  { cir := leAt b 0 4, pir := leAt b 4 4, cbs := leAt b 8 3, flags := byteAt b 11, pbs := leAt b 12 3,
    tc := leAt b 16 4, tp := leAt b 20 4, last := leAt b 24 4 }

/-- The fields of a record written over the stored bytes `b`; reserved bytes keep their contents. -/
def Gov.bytes (g : Gov) (b : List Byte) : List Byte :=
  toLE 4 g.cir ++ toLE 4 g.pir ++ toLE 3 g.cbs ++ [byteN g.flags] ++ toLE 3 g.pbs ++ slice b 15 1 ++
    toLE 4 g.tc ++ toLE 4 g.tp ++ toLE 4 g.last ++ slice b 28 4

/-- The record of governor `g`. -/
def Dev.gov (d : Dev) (g : Nat) : Gov := govOf (d.hbmRead (d.govAddr g) 32)

/-- The record of governor `g` written. -/
def Dev.setGov (d : Dev) (g : Nat) (r : Gov) : Dev :=
  d.hbmWrite (d.govAddr g) (r.bytes (d.hbmRead (d.govAddr g) 32))

/-- A record holds a reserved encoding (R365). -/
def Gov.reserved (g : Gov) : Bool := !bitOf g.flags 2 && decide (g.pir < g.cir)

/-- The bucket levels clamped to the sizes (R368, R369). -/
def Gov.clamp (g : Gov) : Gov := { g with tc := min g.tc (g.cbs * 256), tp := min g.tp (g.pbs * 256) }

/-- Colours as IN_COLOUR codes them: 0 green, 1 yellow, 2 red.  The metering of R366 in turn `c` with period `p`: the
colour and the record after it. -/
def Gov.meter (g : Gov) (c p inCol len : Nat) : Nat × Gov :=
  let col := if bitOf g.flags 1 then inCol else 0
  let k0 := sub32 c g.last
  let k := if 2147483648 ≤ k0 then 0 else k0
  let tc := min (g.cbs * 256) (g.tc + k * (g.cir * p / 31250))
  let tp := min (g.pbs * 256) (g.tp + k * (g.pir * p / 31250))
  let b := len * 256
  let g := { g with last := c % p32 }
  if !bitOf g.flags 2 then
    if col = 2 ∨ tp < b then (2, { g with tc := tc, tp := tp })
    else if col = 1 ∨ tc < b then (1, { g with tc := tc, tp := tp - b })
    else (0, { g with tc := tc - b, tp := tp - b })
  else if col = 0 ∧ b ≤ tc then (0, { g with tc := tc - b, tp := tp })
  else if col ≠ 2 ∧ b ≤ tp then (1, { g with tc := tc, tp := tp - b })
  else (2, { g with tc := tc, tp := tp })

/-- A GOV counter: 0 GREEN, 1 YELLOW, 2 RED, 3 GOV_DISABLED. -/
def govCount (k : Nat) : Nat := reg .gov 0 (0x200 + 8 * k)

/-- A frame metered through governor `g`: the colour (R364, R366, R671). [log 60: DEDUCED] -/
def Dev.govern (d : Dev) (g inCol len : Nat) : Dev × Nat :=
  if !d.bit (reg .gov 0 0x108) 0 || !d.accepts .gov 0 then (d.bump (govCount 3), 0)
  else if !d.govFits then ((d.bump (govCount 3)).raise .gov 0 0 8, 0)
  else
    let r := d.gov g
    if !bitOf r.flags 0 then (d.bump (govCount 0), 0)
    else
      let (c, r) := r.meter d.turn d.period inCol len
      ((d.setGov g r).bump (govCount c), c)

/-! ### Update slots (R368) -/

/-- The active copy of word `w` of update slot `j` of page `pg`. -/
def govSlot (pg j w : Nat) : Nat := reg .gov 0 (pg * 0x10000 + 0x1000 + 0x20 * j + 4 * w)

/-- An update slot applied when its APPLY is set; APPLY is cleared in both copies. -/
def Dev.govApply (d : Dev) (pg j : Nat) : Dev :=
  let k := govSlot pg j 0
  if !d.bit k 24 then d
  else
    let i := d.fld k 0 20
    let r0 := d.gov i
    let r := { r0 with cir := d.rdN (govSlot pg j 1), pir := d.rdN (govSlot pg j 2), cbs := d.fld (govSlot pg j 3) 0 24,
                       pbs := d.fld (govSlot pg j 4) 0 24, flags := d.fld (govSlot pg j 5) 0 3 }
    let full := d.bit k 25
    let d := (d.setFld k 24 1 0).setFld (k + 0x8000) 24 1 0
    if r.reserved then d.logOwn (pageOf .gov 0 pg) 0x0A01 k
    else if !d.govFits then d
    else d.setGov i (if full then { r with tc := r.cbs * 256, tp := r.pbs * 256 } else r.clamp)

/-- Every update slot of a GOV page at a commit of its group, in slot order. -/
def Dev.govSlots (d : Dev) (pg : Nat) : Dev := (rangeFrom 0 64).foldl (fun d j => d.govApply pg j) d

/-! ### Access registers (R369) -/

/-- GOV_ACC_DATA as bytes. -/
def Dev.govAccData (d : Dev) : List Byte := (rangeFrom 0 8).flatMap fun i => toLE 4 (d.rdN (reg .gov 0 (0x140 + 4 * i)))

/-- Words written from `k` on. -/
def Dev.wrWords (d : Dev) (k : Nat) (bs : List Byte) (n : Nat) : Dev :=
  (rangeFrom 0 n).foldl (fun d i => d.wrN (k + 4 * i) (leAt bs (4 * i) 4)) d

/-- A write of GOV_ACC_CMD (R369). -/
def govAccW (d : Dev) (t : Tgt) : Dev :=
  let v := t.acc.data % 4
  let g := d.fld (reg .gov 0 0x110) 0 20
  if v = 3 then d.refuse t 0x0001
  else if v = 2 then d.wrWords (reg .gov 0 0x140) (d.hbmRead (d.govAddr g) 32) 8
  else if v = 1 then
    let b := slice d.govAccData 0 16 ++ slice (d.hbmRead (d.govAddr g) 32) 16 16
    let r := govOf b
    if r.reserved then d.refuse t 0x0A01 else d.hbmWrite (d.govAddr g) (r.clamp.bytes b)
  else d

/-- GOV_ACC_READ (R369): a write of GOV_ACC_CMD with READ. -/
def execGovAccRead (pt : Party) (v : BitVec 32) (s : State) : Host.Outcome State Fault Refusal :=
  s.onDev fun d => d.ownWrite pt (reg .gov 0 0x114) 4 (putBits v.toNat 1 1 1) govAccW

/-- GOV_ACC_WRITE (R369): a write of GOV_ACC_CMD with WRITE. -/
def execGovAccWrite (pt : Party) (v : BitVec 32) (s : State) : Host.Outcome State Fault Refusal :=
  s.onDev fun d => d.ownWrite pt (reg .gov 0 0x114) 4 (putBits v.toNat 0 1 1) govAccW

end Sys2Proof.Machine
end

