-- ==== Sys2Proof/Machine/Rings.lean ====
section
/-! DEFINITION. The commands of the descriptor rings (05_rings.md): ring control, doorbells, entry fetch, sending,
delivery. -/

namespace Sys2Proof.Machine

/-! ### Status of a ring (R154, R177) -/

/-- The ring completes into a CPL ring. -/
def Dev.ringSubmits (d : Dev) (r : Nat) : Bool := hostProduced (d.ringKind r)

/-- No completion of ring `r` waits in the stash of its CPL ring, or is held there. -/
def Dev.ringWritten (d : Dev) (r : Nat) : Bool :=
  let c := d.ring (d.ringCpl r)
  (c.stash ++ c.held).all fun x => bitOf x.flags 1 || decide (x.source ≠ (d.ringOwner r).2)

/-- Nothing outstanding and every owed completion written. -/
def Dev.ringIdle (d : Dev) (r : Nat) : Bool :=
  let s := d.ring r
  s.work = [] && decide (s.owed = 0) && s.stash = [] && s.held = [] && s.rx = [] && (!d.ringSubmits r || d.ringWritten r) &&
    d.reads.all fun h => decide (h.use ≠ .slots r)

/-- RNG_STATUS.STATE. -/
def Dev.ringStateCode (d : Dev) (r : Nat) : Nat :=
  match (d.ring r).state with
  | .off => 0
  | .active => if d.ringSubmits r ∧ d.credit (d.ringCpl r) = 0 then 2 else 1
  | .draining => 3
  | .haltActive | .haltDraining => 4

/-- RNG_STATUS as it reads. -/
def Dev.ringStatus (d : Dev) (r : Nat) : Nat :=
  let s := d.ring r
  b2n (d.ringIdle r) + 2 * b2n (s.stash ≠ []) + d.fld (rngKey r 0x24) 2 2 * 4 + 16 * s.stash.length +
    4096 * d.ringStateCode r

/-- RNG_OWNER as it reads (R153). -/
def Dev.ringOwnerWord (d : Dev) (r : Nat) : Nat :=
  let (f, i) := d.ringOwner r
  i + 65536 * f.num + 0x10000000 * f.link

/-! ### Writes to a context (R155, R156, R177, R178) -/

/-- An enabled ring or Quern queue names `c` as its CPL ring (R178). -/
def Dev.cplNamed (d : Dev) (c : Nat) : Bool :=
  (d.rings.keys.any fun r => d.bit (rngKey r 8) 9 && d.ringSubmits r && decide (d.ringCpl r = c)) ||
    (d.regs.cells.any fun q => decide (0x200000000 ≤ q.1) && decide (q.1 < 0x300000000) && decide (q.1 % 0x20 = 0) &&
      bitOf q.2.toNat 0 && decide (d.fld (q.1 + 4) 0 16 = c))

/-- RESET of a ring that is OFF (R177); the data area is filled from its start again (R164). [log 182: DESIGN CHOICE] -/
def Dev.ringZero (d : Dev) (r : Nat) : Dev :=
  let d := ((d.wrN (rngKey r 0x18) 0).wrN (rngKey r 0x1C) 0).wrN (rngKey r 0x38) 0
  d.setRing r { owner := (d.ring r).owner }

/-- The conditions of R156 for an enable. -/
def Dev.ringEnableOk (d : Dev) (r : Nat) : Bool :=
  let k := d.ringKind r
  let lc := d.fld (rngKey r 8) 4 5
  let lg := d.fld (rngKey r 0x30) 0 5
  let c := d.ringCpl r
  decide (1 ≤ k ∧ k ≤ 7) && d.kindAllowed (d.ringFunc r) k && decide (6 ≤ lc ∧ lc ≤ 20) && decide (d.ringUsed r ≤ 2 ^ lc) &&
    (!hostProduced k || (decide (d.ringKind c = 6) && d.bit (rngKey c 8) 9 && decide ((d.ring c).state ≠ .off) &&
      decide (d.ringFunc c = d.ringFunc r))) &&
    (!(k = 2 || k = 5) || d.bit (rngKey r 8) 10) && (!(k = 2) || decide (16 ≤ lg ∧ lg ≤ 30))

/-- A producer count `e` after an entry lies among those of entries not yet consumed, when the counts are `p` and `c`. -/
def unconsumed (p c e : Nat) : Bool := decide (sub32 e c ≠ 0 ∧ sub32 e c ≤ sub32 p c)

/-- The start of a ring from its counts (R177): what waits for its consumer is kept, with the moderation counts and the next
place in the data area; while the owner may not master the bus it starts halted. [log 50: DEDUCED]
[log 182: DESIGN CHOICE] -/
def Dev.ringStart (d : Dev) (r : Nat) : Dev :=
  let d := d.setFld (rngKey r 8) 9 1 1
  let s := d.ring r
  let p := d.ringProd r
  let c := d.ringCons r
  d.setRing r { s with state := if d.master (d.ringFunc r) then .active else .haltActive, fetched := [],
                       ends := s.ends.filter (unconsumed p c), areas := s.areas.filter fun a => unconsumed p c a.1 }

/-- ENABLE = 0 written to a ring that runs (R177, R178, R164). -/
def Dev.ringStop (d : Dev) (r : Nat) : Dev × Bool :=
  let s := d.ring r
  if d.ringKind r = 6 ∧ (d.cplNamed r ∨ s.stash ≠ []) then (d, true)
  else
    let d := d.setFld (rngKey r 8) 9 1 0
    let d := s.rx.foldl (fun d w => ((d.freePkt w.pkt).countDrop 7).ringDropped r) d
    let s := d.ring r
    (d.setRing r { s with state := if s.state = .haltActive then .haltDraining
                                   else if s.state = .active then .draining else s.state, rx := [] }, false)

/-- A write of RNG_CFG (R154 to R156, R177, R178); ENABLE = 1 written to a ring that drains changes nothing, and is
logged with VF_QUIESCED alone where the VF is quiesced (R551). [log 183: DESIGN CHOICE] [log 219: DESIGN CHOICE] -/
def ringCfgW (d : Dev) (t : Tgt) (r : Nat) : Dev :=
  let v := t.acc.data
  let old := d.rdN t.key
  let on := bitOf v 9
  let rst := bitOf v 11
  if (d.ring r).state = .off then
    let k := bitsOf v 0 4
    let lc := bitsOf v 4 5
    let kOk := decide (1 ≤ k ∧ k ≤ 7)
    let lOk := decide (6 ≤ lc ∧ lc ≤ 20)
    let w := (if kOk then k else bitsOf old 0 4) + 16 * (if lOk then lc else bitsOf old 4 5) + 1024 * bitsOf v 10 1
    let d := d.wrN t.key w
    let d := if rst then d.ringZero r else d
    let bad := !(kOk && lOk)
    if on then
      if d.fnQuiesced (d.ringFunc r) then d.refuse t (if bad then 0x0001 else 0x0F02)
      else if d.ringEnableOk r then if bad then (d.ringStart r).refuse t 0x0001 else d.ringStart r
      else d.refuse t (if bad then 0x0001 else 0x0302)
    else if bad then d.refuse t 0x0001 else d
  else
    let busy := rst || decide (bitsOf v 0 9 ≠ bitsOf old 0 9) || decide (bitsOf v 10 1 ≠ bitsOf old 10 1)
    let (d, refused) := if !on && ((d.ring r).state = .active || (d.ring r).state = .haltActive) then d.ringStop r else (d, false)
    if on && d.fnQuiesced (d.ringFunc r) then d.refuse t 0x0F02
    else if busy || refused then d.refuse t 0x0301 else d

/-- A write to a ring context. -/
def ringW (d : Dev) (t : Tgt) (r : Nat) : Dev :=
  if t.x = 8 then ringCfgW d t r
  else if (d.ring r).state ≠ .off then
    if t.x = 0 ∨ t.x = 0x10 ∨ t.x = 0x28 ∨ t.x = 0x30 ∨ t.x = 0x34 then d.refuse t 0x0301
    else if t.x = 0x18 ∨ t.x = 0x1C then d.refuse t 0x0004
    else d.store t
  else d.store t

/-- A write of a party to RNG_CFG of ring `r`: at its place in the RNG page, or through the window with the party's
selector naming it (R74); of a VF, through the window of its page (R549). -/
def Dev.ringCfgWrite (d : Dev) (pt : Party) (r v : Nat) : Dev :=
  let go (d : Dev) (off : Nat) : Dev := d.ownWrite pt off 4 v fun d t => ringCfgW d t r
  let page := ringPage r
  match pt with
  | .vf f => if d.ringFunc r = f then go (d.wrN (vfKey f 0x1100) (d.ringOwner r).2) 0x1148 else d
  | _ => if r % 1024 < 4 then go (d.wrN (selKey (partyOrder pt)) r) (page + 0xC8) else go d (page + r % 1024 * 0x40 + 8)

/-- RING_ENABLE (R156, R177): a write of RNG_CFG. -/
def execRingEnable (pt : Party) (r : Nat) (v : BitVec 32) (s : State) : Host.Outcome State Fault Refusal :=
  s.act fun d => d.ringCfgWrite pt r v.toNat

/-- RING_DISABLE (R177, R178, R179): a write of RNG_CFG with ENABLE = 0. -/
def execRingDisable (pt : Party) (r : Nat) (v : BitVec 32) (s : State) : Host.Outcome State Fault Refusal :=
  s.act fun d => d.ringCfgWrite pt r (putBits v.toNat 9 1 0)

/-- RING_RESET (R177): a write of RNG_CFG with RESET = 1. -/
def execRingReset (pt : Party) (r : Nat) (v : BitVec 32) (s : State) : Host.Outcome State Fault Refusal :=
  s.act fun d => d.ringCfgWrite pt r (putBits v.toNat 11 1 1)

/-- A draining ring with nothing outstanding enters OFF (R177, R180). -/
def Dev.ringDrained (d : Dev) (r : Nat) : Dev :=
  let s := d.ring r
  if s.state = .draining ∧ d.ringIdle r then
    (d.setRing r { s with state := .off }).setInt (ringPage r) (2 ^ 11)
  else d

/-- RING_DRAIN_DONE (R177). -/
def execRingDrainDone (r : Nat) (s : State) : Host.Outcome State Fault Refusal := s.act fun d => d.ringDrained r

/-! ### Doorbells (R166, R167, R521) -/

/-- TX_WT of a function (R547, R559). -/
def Dev.txWt (d : Dev) (f : Func) : Nat := if f.num = 0 then d.fld (reg .vfm f.link 0x108) 0 8 else d.grantAt f 13 1

/-- TX entries a function has fetched in the present round of its link. -/
def Dev.txFetched (d : Dev) (f : Func) : Nat := d.txUsed.getD (fkey f) 0

/-- The functions of a link with TX work: an ACTIVE TX ring with published slots and credit. -/
def Dev.txFuncs (d : Dev) (link : Nat) : List Func :=
  (d.rings.keys.filter fun r => decide ((d.ring r).state = .active ∧ d.ringKind r = 1 ∧ d.ringUsed r ≠ 0 ∧
    (d.ringFunc r).link = link ∧ d.credit (d.ringCpl r) ≠ 0)).map d.ringFunc

/-- The weighted round robin of R547 lets a TX ring fetch: its function has entries left in the round, or no function with
TX work has. [log 146: DEDUCED] -/
def Dev.txOpen (d : Dev) (r : Nat) : Bool :=
  let f := d.ringFunc r
  decide (d.ringKind r ≠ 1) || decide (d.txFetched f < d.txWt f) ||
    (d.txFuncs f.link).all fun g => decide (d.txWt g ≤ d.txFetched g)

/-- The unit behind a ring takes no entries now (R671), the round of TX entries has none left for it (R547), or the lookaside
cluster lacks steeping units for its next job (R419). -/
def Dev.fetchHeld (d : Dev) (r : Nat) : Bool :=
  !d.accepts .rng 0 || (decide (d.ringKind r = 4) && !d.accepts .tbl 0) || !d.txOpen r ||
    (decide (d.ringKind r = 3) && d.bit (reg .cip 1 0x100) 17)

/-- An entry of the ring may be fetched now: it runs, has published slots and credit, and nothing holds it (R175). -/
def Dev.mayFetch (d : Dev) (r : Nat) : Bool :=
  d.ringSubmits r && decide ((d.ring r).state = .active) && decide (d.ringUsed r ≠ 0) && decide (d.credit (d.ringCpl r) ≠ 0) &&
    !d.fetchHeld r

/-- A read of the published slots of a host-produced ring that have not been read yet, up to the end of the ring, when an entry
may be fetched and none is outstanding (R161, R175). [log 51: DESIGN CHOICE] -/
def Dev.slotRead (d : Dev) (r : Nat) : Dev :=
  let k := (d.ring r).fetched.length / 16
  let at_ := (d.ringCons r + k) % d.ringCap r
  if d.mayFetch r ∧ k < d.ringUsed r ∧ (d.reads.all fun h => decide (h.use ≠ .slots r)) then
    let n := min (d.ringUsed r - k) (d.ringCap r - at_)
    (d.dmaRead (d.ringFunc r) (d.rd64 (rngKey r 0) + at_ * 16) (16 * n) (.slots r)).1
  else d

/-- Fetching resumed wherever it may be. [log 51: DESIGN CHOICE] -/
def Dev.fetchKick (d : Dev) : Dev := d.rings.keys.foldl Dev.slotRead d

/-- A doorbell refused or ignored (R167). -/
def Dev.doorbellBad (d : Dev) (r : Nat) : Dev :=
  if d.bit (rngKey r 0x24) 2 then d else (d.setFld (rngKey r 0x24) 2 1 1).setInt (ringPage r) (2 ^ 8)

/-- An accepted consumer doorbell of a device-produced ring: the count, the unsignalled entries (R176; an entry of a CPL ring
is one slot), the stash (R174), and the rings its credit lets fetch again (R177). -/
def Dev.consumed (d : Dev) (r v : Nat) : Dev :=
  let p := d.ringProd r
  let d := d.wrN (rngKey r 0x1C) v
  let s := d.ring r
  let ends := s.ends.filter (unconsumed p v)
  let n := if d.ringKind r = 6 then sub32 p v else ends.length
  let d := d.setRing r { s with ends := ends, unsig := n, muted := false, unsigTurn := if n = 0 then none else some d.bounds,
                                areas := s.areas.filter fun a => unconsumed p v a.1 }
  ((drainStash Dev.cplWrite d r (d.ring r).stash).ringNotify r).fetchKick

/-- A ring takes doorbells: it is ACTIVE or STALLED, or a CPL ring that drains of a VF that is quiesced, whose completions are
written when room appears (R167, R552). [log 218: DEDUCED] -/
def Dev.takesDoorbell (d : Dev) (r : Nat) : Bool :=
  let s := d.ring r
  decide (s.state = .active) || (decide (s.state = .draining ∧ d.ringKind r = 6) && d.fnQuiesced (d.ringFunc r))

/-- A doorbell write of a function to a ring of its (R167); one to bytes 4 to 7 of a location is ignored as one of another
alignment is. [log 184: DESIGN CHOICE] -/
def Dev.ringDoorbell (d : Dev) (r off width v : Nat) : Dev :=
  let p := d.ringProd r
  let c := d.ringCons r
  if width ≠ 4 ∨ off % 8 ≠ 0 ∨ d.takesDoorbell r = false then d.doorbellBad r
  else if hostProduced (d.ringKind r) then
    if sub32 p c ≤ sub32 v c ∧ sub32 v c ≤ d.ringCap r then (d.wrN (rngKey r 0x18) v).slotRead r else d.doorbellBad r
  else if sub32 v c ≤ sub32 p c then d.consumed r v
  else d.doorbellBad r

/-- A read of BAR2 of a function: every doorbell reads zero (R166). -/
def doorbellRead (_f : Func) (_off : Nat) : Nat := 0

/-- A write that names no ring of the function (R521). -/
def Dev.strayDoorbell (d : Dev) (f : Func) : Dev :=
  (d.bump (reg .hif f.link 0x218)).raise .hif f.link 0 13

/-- DOORBELL (R166, R167, R521): a write to BAR2 below the Quern strides. -/
def execDoorbell (f : Func) (off width : Nat) (v : BitVec 32) (s : State) : Host.Outcome State Fault Refusal :=
  s.act fun d =>
    if d.fnExists f then
      match d.ringOfLocal f (off / 8) with
      | some r => d.ringDoorbell r off width v.toNat
      | none => d.strayDoorbell f
    else d

/-! ### Fetch (R159 to R162, R173, R175) -/

/-- The opcodes of a host-produced ring that are not reserved (R162, R317, R413, R429, R602). [log 49: DEDUCED] -/
def opcodeKnown (kind op : Nat) : Bool :=
  if kind = 1 then op = 1 || op = 2
  else if kind = 3 then
    decide (1 ≤ op ∧ op ≤ 5) || decide (0x20 ≤ op ∧ op ≤ 0x22) || decide (0x30 ≤ op ∧ op ≤ 0x32)
  else if kind = 4 then decide (1 ≤ op ∧ op ≤ 7)
  else
    decide (1 ≤ op ∧ op ≤ 6) || op = 0x40 || op = 0x41 || decide (0x50 ≤ op ∧ op ≤ 0x59) ||
      decide (0x60 ≤ op ∧ op ≤ 0x66)

/-- A slot begins with the entry marker (R159). -/
def slotMarked (data : List Byte) (i : Nat) : Bool := byteAt data (16 * i) / 16 = 0xA

/-- Slots of a malformed run after its first: up to the next marker, or the producer count (R173). -/
def runLen (data : List Byte) (i : Nat) : Nat → Nat
  | 0 => 0
  | n + 1 => if slotMarked data i then 0 else runLen data (i + 1) n + 1

/-- The slots of an entry consumed: the consumer count advances, then the write-back (R158, R168). -/
def Dev.ringConsume (d : Dev) (r n : Nat) : Dev :=
  ((d.setRing r { d.ring r with fetched := [] }).wrN (rngKey r 0x1C) ((d.ringCons r + n) % p32)).writeBack r

/-- Work of a fetched entry taken up with the cells of its frame: its completion is owed (R175). -/
def Dev.addWork (d : Dev) (r opcode tag : Nat) (entry : List Byte) (cells : Nat := 0) : Dev × Nat :=
  let (d, id) := d.fresh
  let c := d.ringCpl r
  let sc := d.ring c
  let d := d.setRing c { sc with owed := sc.owed + 1 }
  let s := d.ring r
  let w : Work := { id := id, ring := r, opcode := opcode, tag := tag, entry := entry, cells := cells }
  (d.setRing r { s with work := s.work ++ [w] }, id)

/-- A fetched TX entry counted in the round of its link (R547). -/
def Dev.txCharge (d : Dev) (r : Nat) : Dev :=
  let f := d.ringFunc r
  if d.ringKind r ≠ 1 then d
  else if d.txFetched f < d.txWt f then { d with txUsed := d.txUsed.set (fkey f) (d.txFetched f + 1) 0 }
  else { d with txUsed := (d.txUsed.filter fun k _ => decide ((fkeyFunc k).link ≠ f.link)).set (fkey f) 1 0 }

/-- No read of the slots of a ring is outstanding any more. -/
def Dev.slotsRead (d : Dev) (r : Nat) : Dev := { d with reads := d.reads.filter fun h => decide (h.use ≠ .slots r) }

/-- The gather elements of a TX entry: address and byte count. -/
def gatherElems (entry : List Byte) : List (Nat × Nat) :=
  (rangeFrom 1 (entry.length / 16 - 1)).map fun i => (leAt entry (16 * i) 8, leAt entry (16 * i + 8) 4)

/-- A SEND_GATHER entry is well formed (R162). -/
def gatherOk (entry : List Byte) : Bool :=
  let n := leAt entry 8 4
  let es := gatherElems entry
  decide (14 ≤ n ∧ n ≤ 16128) && es ≠ [] && decide (es.foldl (fun a e => a + e.2) 0 = n)

/-- A SEND_INLINE entry is well formed (R162). -/
def inlineOk (entry : List Byte) : Bool :=
  let n := leAt entry 8 4
  decide (14 ≤ n ∧ n ≤ 240) && decide (entry.length = 16 * (1 + ceilDiv n 16))

/-- The cells an entry needs for its frame: those of a well-formed TX entry (R360). -/
def sendCells (kind op : Nat) (entry : List Byte) : Nat :=
  if kind = 1 ∧ ((op = 1 ∧ gatherOk entry) ∨ (op = 2 ∧ inlineOk entry)) then cellsFor (leAt entry 8 4) else 0

/-- The source of host TX frames of a ring (R358). -/
def Dev.txSource (d : Dev) (r : Nat) : Nat := 5 + (d.ringFunc r).link

/-- The cells of an entry's frame taken where it needs any. -/
def Dev.sendAlloc (d : Dev) (r n : Nat) : Option Dev := if n = 0 then some d else d.cellAlloc (d.txSource r) n

/-- The slots `data` of a ring from its consumer count kept while more of an entry or a run is to be read. -/
def Dev.fetchMore (d : Dev) (r : Nat) (data : List Byte) : Dev := (d.setRing r { d.ring r with fetched := data }).slotRead r

/-- An entry of `len` slots fetched: discarded where it is a SKIP, left where a TX entry finds no cells (R360). -/
def Dev.fetchOne (d : Dev) (r len : Nat) (data : List Byte) : Dev :=
  let op := byteAt data 1
  let entry := slice data 0 (16 * len)
  if op = 0 then (d.ringConsume r len).slotRead r
  else
    let n := sendCells (d.ringKind r) op entry
    match d.sendAlloc r n with
    | none => d.setRing r { d.ring r with fetched := [] }
    | some d =>
      let (d, id) := ((d.txCharge r).ringConsume r len).addWork r op (leAt data 4 4) entry n
      (if opcodeKnown (d.ringKind r) op then d else d.finish r id 0x03).slotRead r

/-- A malformed run of `n` slots consumed (R173). -/
def Dev.fetchRun (d : Dev) (r n : Nat) (data : List Byte) : Dev :=
  let (d, id) := ((d.txCharge r).ringConsume r n).addWork r 0 (leAt data 4 4) []
  (d.finish r id 0x02 (toLE 4 n)).slotRead r

/-- The next entry, SKIP or malformed run of a ring, whose slots from the consumer count hold `data` as far as they have been
read (R160, R161, R173). -/
def Dev.fetchEntry (d : Dev) (r : Nat) (data : List Byte) : Dev :=
  let used := d.ringUsed r
  let known := min used (data.length / 16)
  let slot := d.ringCons r % d.ringCap r
  let len := byteAt data 0 % 16 + 1
  let d := d.slotsRead r
  if !d.mayFetch r ∨ known = 0 then d.setRing r { d.ring r with fetched := [] }
  else if slotMarked data 0 ∧ slot + len ≤ d.ringCap r then
    if known < len then d.fetchMore r data else d.fetchOne r len data
  else
    let n := runLen data 1 (known - 1) + 1
    if n = known ∧ known < used then d.fetchMore r data else d.fetchRun r n data

/-- ENTRY_FETCH (R161, R160, R173): the published slots of the ring hold `data`. -/
def execEntryFetch (r : Nat) (data : List Byte) (s : State) : Host.Outcome State Fault Refusal :=
  s.act fun d => d.fetchEntry r (slice data 0 (16 * d.ringUsed r))

/-! ### Sending (R162, R360) -/

/-- LENGTH of a TX entry. -/
def txLen (w : Work) : Nat := leAt w.entry 8 4

/-- The host reads of a gather list. -/
def Dev.gather (d : Dev) (w : Work) : List (Nat × Nat) → Nat → Dev
  | [], _ => d
  | (a, n) :: es, i => (if n = 0 then d else d.workRead w i a n).gather w es (i + 1)

/-- The next TX entry of a ring not yet started, while no earlier one is still being read. -/
def Dev.txNext (d : Dev) (r opcode : Nat) : Option Work :=
  match (d.ring r).work.find? fun w => w.done.isNone && !w.started with
  | some w => if w.opcode = opcode ∧ d.ringKind r = 1 then some w else none
  | none => none

/-- A TX entry started. -/
def Dev.txStart (d : Dev) (r : Nat) (w : Work) : Dev := d.setWork r w.id fun x => { x with started := true }

/-- SEND_GATHER (R162). [log 53: DEDUCED] -/
def execSendGather (r : Nat) (s : State) : Host.Outcome State Fault Refusal :=
  s.act fun d =>
    match d.txNext r 1 with
    | some w => if gatherOk w.entry then (d.txStart r w).gather w (gatherElems w.entry) 0 else d.finish r w.id 0x01
    | none => d

/-- SEND_INLINE (R162). -/
def execSendInline (r : Nat) (s : State) : Host.Outcome State Fault Refusal :=
  s.act fun d =>
    match d.txNext r 2 with
    | some w =>
      if inlineOk w.entry then (d.txStart r w).setWork r w.id fun x => { x with data := [(0, slice w.entry 16 (txLen w))] }
      else d.finish r w.id 0x01
    | none => d

/-- TX_FRAME_READ_DONE (R162): the frame has been read into the millpond; it completes and enters the distributor. -/
def execTxFrameReadDone (r : Nat) (s : State) : Host.Outcome State Fault Refusal :=
  s.act fun d =>
    match (d.ring r).work.find? fun w => w.done.isNone && w.started with
    | some w =>
      if d.ringKind r = 1 ∧ w.waiting = [] then
        let (d, id) := d.fresh
        let p : Pkt := { id := id, data := slice w.allData 0 (txLen w), src := d.txSource r, cells := w.cells,
                         ingress := funcPort (d.ringFunc r),
                         tx := some { ring := r, tag := w.tag, tsReq := byteAt w.entry 2 % 2 = 1 } }
        (d.finish r w.id 0).toDst p
      else d
    | none => d

/-! ### Delivery (R163, R164) -/

/-- The start of a frame of `n` bytes in the data area of an RX ring, if there is free space (R164). -/
def Dev.rxSpace (d : Dev) (r n : Nat) : Option Nat :=
  let size := 2 ^ d.fld (rngKey r 0x30) 0 5
  let s := d.ring r
  let a0 := roundUp s.dataNext 64
  let a := if a0 + n ≤ size then a0 else 0
  if a + n ≤ size ∧ (s.areas.all fun x => decide (a + n ≤ x.2.1 ∨ x.2.1 + x.2.2 ≤ a)) = true then some a else none

/-- The code of INGRESS in an RX entry (R163). -/
def ingressCode (i : Nat) : Nat := if i < 5 then i else 5

/-- A timestamp in host memory (R100). -/
def tsBytes (t : Ts) : List Byte := toLE 2 t.frac ++ toLE 4 t.ns ++ toLE 6 t.sec

/-- An RX entry (R163). -/
def rxEntry (p : Pkt) (dataOff : Nat) : List Byte :=
  [0xA1, 0x01, byteN (b2n p.ts.isSome + 2 * b2n p.suspect + 4 * b2n p.cls.isSome),
    byteN ((p.cls.getD 0) % 16 + 16 * (p.pass % 8))] ++
  toLE 4 p.hash ++ toLE 4 dataOff ++ toLE 2 p.data.length ++ [byteN (ingressCode p.ingress), 0] ++
  (match p.ts with | some t => tsBytes t | none => zeros 12) ++ toLE 2 p.stamp ++ zeros 2

/-- A waiting frame of an RX ring discarded (R164). -/
def Dev.rxDiscard (d : Dev) (r : Nat) (w : RxWait) : Dev := ((d.freePkt w.pkt).countDrop 7).ringDropped r

/-- The space and the slots for the frame at the head of an RX ring are there. -/
def Dev.rxFits (d : Dev) (r : Nat) (w : RxWait) : Option Nat :=
  if d.ringRoom r 2 ∧ d.ringKind r = 2 then d.rxSpace r w.pkt.data.length else none

/-- RX_DELIVER (R164): the head frame of an RX ring is written to its data area with its entry. -/
def execRxDeliver (r : Nat) (s : State) : Host.Outcome State Fault Refusal :=
  s.act fun d =>
    let q := d.ring r
    match q.rx with
    | w :: ws =>
      if q.state ≠ .active then (d.setRing r { q with rx := ws }).rxDiscard r w
      else match d.rxFits r w with
        | some a =>
          let n := w.pkt.data.length
          let d := d.setRing r { q with rx := ws, dataNext := a + n }
          let d := d.dmaWrite (d.ringFunc r) (d.rd64 (rngKey r 0x28) + a) w.pkt.data true
          let d := d.ringEntry r (rxEntry w.pkt a)
          let q := d.ring r
          (d.setRing r { q with areas := q.areas ++ [(d.ringProd r, a, roundUp n 64)] }).freePkt w.pkt
        | none => d
    | [] => d

/-- RX_HOLD_EXPIRE (R164): the head frame of an RX ring has waited HOLD turns and still finds no place. -/
def execRxHoldExpire (r : Nat) (s : State) : Host.Outcome State Fault Refusal :=
  s.act fun d =>
    let q := d.ring r
    match q.rx with
    | w :: ws =>
      if w.since + d.fld (rngKey r 0x30) 8 8 ≤ d.bounds ∧ d.rxFits r w = none then
        (d.setRing r { q with rx := ws }).rxDiscard r w
      else d
    | [] => d

/-- RING_IRQ_TIMER (R176): the time trigger of a ring's moderation. -/
def execRingIrqTimer (r : Nat) (s : State) : Host.Outcome State Fault Refusal :=
  s.onDev fun d => if (d.ring r).state = .off then d else d.ringNotify r

end Sys2Proof.Machine
end

