-- ==== Sys2Proof/Machine/PreParse.lean ====
section
/-! DEFINITION. The pre-parse of the distributor and the symmetric hash (R181 to R185, R233 to R235). -/

namespace Sys2Proof.Machine

/-- What the pre-parse is configured with: DST_PP_CTRL, the VXLAN and Geneve ports, the seed. -/
structure PpCfg where
  ctrl : Nat
  vxlan : Nat
  geneve : Nat
  seed : Nat
deriving DecidableEq, Repr

/-- The configuration in force. -/
def Dev.ppCfg (d : Dev) : PpCfg :=
  { ctrl := d.rdN (reg .dst 0 0x100), vxlan := d.fld (reg .dst 0 0x104) 0 16,
    geneve := d.fld (reg .dst 0 0x108) 0 16, seed := d.rdN (reg .dst 0 0x110) }

/-- A complete Ethernet header with its VLAN tags: the two addresses, the EtherType, where the payload starts. -/
structure EthLvl where
  dst : List Byte
  src : List Byte
  type : Nat
  next : Nat
deriving DecidableEq, Repr

/-- A VLAN TPID (R181). -/
def isVlan (t : Nat) : Bool := t = 0x8100 || t = 0x88A8

/-- The Ethernet header at `o` of a string of which `lim` bytes count. -/
def ethAt (bs : List Byte) (lim o : Nat) : Option EthLvl :=
  let mk (n : Nat) : Option EthLvl :=
    if o + 14 + 4 * n ≤ lim then
      some { dst := slice bs o 6, src := slice bs (o + 6) 6, type := beAt bs (o + 12 + 4 * n) 2, next := o + 14 + 4 * n }
    else none
  if isVlan (beAt bs (o + 12) 2) then
    if isVlan (beAt bs (o + 16) 2) then mk 2 else mk 1
  else mk 0

/-- A complete IP header: its addresses, the upper protocol, whether it is a fragment, where the transport starts. -/
structure IpLvl where
  src : List Byte
  dst : List Byte
  proto : Nat
  frag : Bool
  next : Nat
deriving DecidableEq, Repr

/-- The IPv4 header at `o`; one of another version or an IHL below 5 is none. [log 213: DESIGN CHOICE] -/
def ip4At (bs : List Byte) (lim o : Nat) : Option IpLvl :=
  let ihl := byteAt bs o % 16
  if o + 20 ≤ lim ∧ byteAt bs o / 16 = 4 ∧ 5 ≤ ihl ∧ o + 4 * ihl ≤ lim then
    some { src := slice bs (o + 12) 4, dst := slice bs (o + 16) 4, proto := byteAt bs (o + 9),
           frag := beAt bs (o + 6) 2 % 0x4000 ≠ 0, next := o + 4 * ihl }
  else none

/-- Up to `n` IPv6 extension headers from `o`, the first of type `t`: the upper protocol, whether a fragment header was
read, where the next header starts. -/
def ip6Exts (bs : List Byte) (lim : Nat) : Nat → Nat → Nat → Bool → Nat × Bool × Nat
  | 0, t, o, fr => (t, fr, o)
  | n + 1, t, o, fr =>
    let len := if t = 44 then 8 else (byteAt bs (o + 1) + 1) * 8
    if (t = 0 ∨ t = 43 ∨ t = 60 ∨ t = 44) ∧ o + len ≤ lim then
      ip6Exts bs lim n (byteAt bs o) (o + len) (fr || t = 44)
    else (t, fr || t = 44, o)

/-- The IPv6 header at `o` with its extension headers; one of another version is none. [log 213: DESIGN CHOICE] -/
def ip6At (bs : List Byte) (lim o : Nat) : Option IpLvl :=
  if o + 40 ≤ lim ∧ byteAt bs o / 16 = 6 then
    let (t, fr, n) := ip6Exts bs lim 4 (byteAt bs (o + 6)) (o + 40) false
    some { src := slice bs (o + 8) 16, dst := slice bs (o + 24) 16, proto := t, frag := fr, next := n }
  else none

/-- The IP header an EtherType announces at `o`. -/
def ipAt (bs : List Byte) (lim type o : Nat) : Option IpLvl :=
  if type = 0x0800 then ip4At bs lim o else if type = 0x86DD then ip6At bs lim o else none

/-- The ports of the TCP or UDP header after an IP header, when the tuple uses them (R183). -/
def portsAt (bs : List Byte) (lim : Nat) (ip : IpLvl) : Option (Nat × Nat) :=
  let len := if ip.proto = 6 then max 20 (4 * (byteAt bs (ip.next + 12) / 16)) else 8
  if ¬ ip.frag ∧ (ip.proto = 6 ∨ ip.proto = 17) ∧ ip.next + len ≤ lim then
    some (beAt bs ip.next 2, beAt bs (ip.next + 2) 2)
  else none

/-- The encapsulation entered after an IP header: the protocol type of the inner header and where it starts (R182). -/
def innerAt (c : PpCfg) (bs : List Byte) (lim : Nat) (ip : IpLvl) : Option (Nat × Nat) :=
  if ip.frag then none
  else if ip.proto = 17 then
    let u := ip.next + 8
    match portsAt bs lim ip with
    | none => none
    | some (_, dp) =>
      if bitOf c.ctrl 0 ∧ dp = c.vxlan ∧ u + 8 ≤ lim ∧ bitOf (byteAt bs u) 3 then some (0x6558, u + 8)
      else if bitOf c.ctrl 1 ∧ dp = c.geneve ∧ u + 8 ≤ lim ∧ byteAt bs u / 64 = 0 then
        some (beAt bs (u + 2) 2, u + 8 + 4 * (byteAt bs u % 64))
      else none
  else if ip.proto = 47 then
    let g := ip.next
    let fl := beAt bs g 2
    if bitOf c.ctrl 2 ∧ g + 4 ≤ lim ∧ fl % 8 = 0 ∧ ¬ bitOf fl 14 then
      some (beAt bs (g + 2) 2, g + 4 + 4 * (bitsOf fl 15 1 + bitsOf fl 13 1 + bitsOf fl 12 1))
    else none
  else none

/-- The lesser (address, port) pair first (R233). -/
def canonTuple (a b : List Byte) (pa pb proto : Nat) : List Byte :=
  if beNat a < beNat b ∨ (beNat a = beNat b ∧ pa ≤ pb) then a ++ b ++ toBE 2 pa ++ toBE 2 pb ++ [byteN proto]
  else b ++ a ++ toBE 2 pb ++ toBE 2 pa ++ [byteN proto]

/-- The tuple of an IP level. -/
def ipTuple (bs : List Byte) (lim : Nat) (ip : IpLvl) : List Byte :=
  let (s, p) := (portsAt bs lim ip).getD (0, 0)
  canonTuple ip.src ip.dst s p ip.proto

/-- The canonical tuple of a frame (R181 to R183, R233); empty where it has no whole Ethernet header. [log 214: DESIGN CHOICE] -/
def hashTuple (c : PpCfg) (bs : List Byte) : List Byte :=
  let lim := min 256 bs.length
  match ethAt bs lim 0 with
  | none => []
  | some e =>
    let mac (e : EthLvl) := canonTuple e.dst e.src 0 0 0
    match ipAt bs lim e.type e.next with
    | none => mac e
    | some ip =>
      match innerAt c bs lim ip with
      | none => ipTuple bs lim ip
      | some (t, o) =>
        let inner := if t = 0x6558 then (ethAt bs lim o).bind fun e2 => ipAt bs lim e2.type e2.next else ipAt bs lim t o
        match inner with
        | some ip2 => ipTuple bs lim ip2
        | none => ipTuple bs lim ip

/-- The 32-bit symmetric hash (R235). -/
def symHash (c : PpCfg) (bs : List Byte) : Nat := crc32c c.seed (hashTuple c bs)

/-- FOLD of a hash (R235). -/
def foldHash (h : Nat) : Nat := (bitsOf h 0 12 ^^^ bitsOf h 12 12) ^^^ bitsOf h 24 8

/-- The EtherType of a frame after its VLAN tags. -/
def etherType (bs : List Byte) : Nat := match ethAt bs bs.length 0 with | some e => e.type | none => 0

/-! ### Indirection (R236 to R239) -/

/-- The pipeline DST_PIPE_IND names for a fold. -/
def Dev.pipeInd (d : Dev) (fold : Nat) : Nat := d.fld (reg .dst 0 (0x1000 + 4 * (fold / 8))) (4 * (fold % 8)) 3

/-- The first of the pipelines from `p` on, ascending and wrapping, that is in service (R236). [log 66: DEDUCED] -/
def Dev.serving (d : Dev) (p : Nat) : Nat → Option Nat
  | 0 => none
  | n + 1 => if (d.pipe (p % 8)).inService then some (p % 8) else d.serving (p + 1) n

/-- The key of the core table in `ind`. -/
abbrev coreInd : Nat := 67108864

/-- The value of an indirection entry for a pass admitted in turn `t` (R239). -/
def Dev.indAt (d : Dev) (key t : Nat) : Nat :=
  match (d.ind.getD key []).find? fun q => q.1 < t with
  | some q => q.2
  | none => if coreInd ≤ key then key % 4096 % 32 else 0

/-- The value last written to an indirection entry. -/
def Dev.indLast (d : Dev) (key : Nat) : Nat :=
  match d.ind.getD key [] with
  | q :: _ => q.2
  | [] => if coreInd ≤ key then key % 4096 % 32 else 0

/-- An indirection entry written in the present turn; values no pass can use any longer are forgotten. -/
def Dev.indWrite (d : Dev) (key v : Nat) : Dev :=
  let old := (d.ind.getD key []).filter fun q => decide (q.1 < d.turn)
  let keep := old.takeWhile fun q => decide (d.turn ≤ q.1 + 32)
  let rest := (old.dropWhile fun q => decide (d.turn ≤ q.1 + 32)).take 1
  { d with ind := d.ind.set key ((d.turn, v) :: keep ++ rest) [] }

/-- A control-core cluster runs: its domain is on, it is not fenced, it is not handing over (R238, R605). -/
def Dev.clusterUp (d : Dev) (c : Nat) : Bool :=
  (c = 0 || d.domainOn (23 + c)) && !d.coresFenced.getD c false && decide (d.handing ≠ some c)

/-- The core that takes a frame by its fold, for a pass admitted in turn `t` (R238, R605). -/
def Dev.coreFor (d : Dev) (fold t : Nat) (direct : Option Nat) : Nat :=
  let c := match direct with | some c => c | none => d.indAt (coreInd + fold) t
  if d.clusterUp (c / 8) then c
  else if d.clusterUp 0 then c % 8
  else 8 + c % 8

end Sys2Proof.Machine
end

