-- ==== Sys2Proof/Machine/Mailbox.lean ====
section
/-! DEFINITION. The envelope of mailbox commands (R601 to R603). -/

namespace Sys2Proof.Machine

/-- A control-core cluster is fenced, or its domain is off. -/
def Dev.clusterGone (d : Dev) (c : Nat) : Bool := d.coresFenced.getD c false || (c ≠ 0 && !d.domainOn (23 + c))

/-- Every control-core cluster is fenced (R603, R612). -/
def Dev.coresDead (d : Dev) : Bool := (rangeFrom 0 4).all fun c => d.clusterGone c

/-- ARG of a mailbox entry. -/
def mbxArg (w : Work) : Nat := leAt w.entry 8 8

/-- FLAGS of a mailbox entry. -/
def mbxFlags (w : Work) : Nat := byteAt w.entry 2

/-- ADDR of a mailbox entry. -/
def mbxAddr (w : Work) : Nat := leAt w.entry 16 8

/-- LEN of a mailbox entry. -/
def mbxLen (w : Work) : Nat := leAt w.entry 24 4

/-- The mailbox command at the head of ring `r` with an opcode, run by the control cores (R603): `f` is its effect.  An entry
that has not 2 slots is malformed (R173, R601).  A command waits while an activation is under way, but for FW_STAGE and
FW_ACTIVATE, which end (R604 to R606). -/
def Dev.mbx (d : Dev) (r op : Nat) (f : Dev → Work → Dev) : Dev :=
  match d.workHead r op with
  | some w =>
    if d.ringKind r ≠ 7 then d
    else if d.coresDead then d.finish r w.id 0x3F
    else if w.entry.length ≠ 32 then d.finish r w.id 0x01
    else if d.activation.isSome ∧ op ≠ 2 ∧ op ≠ 3 then d
    else f d w
  | none => d

/-- The same for a command that reads `n` bytes at ADDR: the first run issues the read, the run after its data has come
executes the command on it. -/
def Dev.mbxBlock (d : Dev) (r op : Nat) (n : Work → Nat) (f : Dev → Work → List Byte → Dev) : Dev :=
  d.mbx r op fun d w =>
    if !w.started then (d.setWork r w.id fun x => { x with started := true }).workRead w 0 (mbxAddr w) (n w)
    else if w.waiting = [] then f d w (slice w.allData 0 (n w))
    else d

/-- The owner of ring `r` is PF0 of the primary link (R69). -/
def Dev.fromPrimary (d : Dev) (r : Nat) : Bool := decide (d.ringFunc r = pf0 d.primary)

end Sys2Proof.Machine
end

