-- ==== Sys2Proof/Machine/Parse.lean ====
section
/-! DEFINITION. Rule-set entries and the parser (R186 to R196). -/

namespace Sys2Proof.Machine

/-- The bytes of one entry of each of the fourteen images: parser 0 to 2, classifier 3 to 8, action unit 9 to 11, pattern
engine 12 and 13. -/
def imgBytes (image : Nat) : Nat :=
  ([32, 16, 64, 64, 32, 16, 176, 16, 48, 64, 80, 4, 4, 16][image]?).getD 0

/-- An entry of a rule set; zeros where none has been written. -/
def RuleSet.entry (rs : RuleSet) (image i : Nat) : List Byte := rs.img.getD (image * 65536 + i) (zeros (imgBytes image))

/-- An entry of a rule set written. -/
def RuleSet.setEntry (rs : RuleSet) (image i : Nat) (bs : List Byte) : RuleSet :=
  { rs with img := rs.img.set (image * 65536 + i) bs (zeros (imgBytes image)) }

/-! ### Length rules, reach, key (R191, R192, R194) -/

/-- Bytes a bit field of a header reaches to. -/
def bitReach (boff width : Nat) : Nat := (boff + width + 7) / 8

/-- The value of a length rule `w` on the header `hd` (R192). -/
def lenRule (w : Nat) (hd : List Byte) : Nat :=
  bitField hd (bitsOf w 8 9) (bitsOf w 17 4 + 1) * 2 ^ bitsOf w 21 2 + bitsOf w 0 8

/-- The eight extract words of a state that are enabled. -/
def extractsOf (st : List Byte) : List Nat :=
  ((rangeFrom 0 8).map fun i => leAt st (2 * i) 2).filter fun w => bitOf w 15

/-- Bytes an extract copies. -/
def extractWidth (w : Nat) : Nat := 2 ^ bitsOf w 6 2

/-- The state searches its transition range. -/
def keySearched (st : List Byte) : Bool :=
  let k := leAt st 24 4
  decide (bitsOf k 9 6 ≠ 0 ∧ byteAt st 28 % 128 ≠ 0) && !bitOf (byteAt st 30) 1

/-- The reach of a state (R194). -/
def reachOf (st : List Byte) : Nat :=
  let hl := leAt st 16 4
  let pl := leAt st 20 4
  let k := leAt st 24 4
  let ex := (extractsOf st).foldl (fun m w => max m (bitsOf w 0 6 + extractWidth w)) 0
  let lr := fun w => if bitOf w 23 then bitReach (bitsOf w 8 9) (bitsOf w 17 4 + 1) else 0
  max ex (max (max (lr hl) (lr pl)) (if keySearched st then bitReach (bitsOf k 0 9) (bitsOf k 9 6) else 0))

/-- The extracts of a state done at `off` for the stack entry `e`. -/
def doExtracts (ps : Pass) (off e : Nat) : List Nat → Pass
  | [] => ps
  | w :: ws =>
    let o := off + bitsOf w 0 6
    let n := extractWidth w
    let f := bitsOf w 8 7
    doExtracts { ps with fields := ps.fields.set f (beAt ps.pkt.data o n) 0,
                         srcs := ps.srcs.put f { entry := e, off := o, width := n } } off e ws

/-- The transition a key takes among `n` entries from `i` (R193). -/
def findTransition (rs : RuleSet) (key width : Nat) (i : Nat) : Nat → Option (List Byte)
  | 0 => none
  | n + 1 =>
    let t := rs.entry 1 i
    let m := leAt t 4 4 % 2 ^ width
    if bitOf (byteAt t 9) 0 ∧ key &&& m = (leAt t 0 4) &&& m then some t else findTransition rs key width (i + 1) n

/-- What a parse came to: the pass with its metadata, and the class raised. -/
abbrev Parsed : Type := Pass × Option Nat

/-- The parser from state `s` at `off` (R194); `fuel` covers the 17 headers that can be visited. -/
def parseLoop (rs : RuleSet) (declared : Bool) (s off : Nat) (ps : Pass) : Nat → Parsed
  | 0 => (ps, some 1)
  | fuel + 1 =>
    let st := rs.entry 0 s
    let fl := byteAt st 30
    let flen := ps.pkt.data.length
    let depth := ps.stack.length
    if ¬ bitOf fl 0 then (ps, some 6)
    else if depth = 16 then (ps, some 1)
    else if flen < off + reachOf st then (ps, some 4)
    else if 512 < off + reachOf st then (ps, some 2)
    else
      let ps := doExtracts ps off depth (extractsOf st)
      let pr := if bitOf fl 5 then 2 ^ (byteAt st 31 % 64) else 0
      let hd := ps.pkt.data.drop off
      let hw := leAt st 16 4
      let hmode := bitOf hw 23
      let hlen := if hmode then lenRule hw hd else bitsOf hw 0 8
      let bound := ps.pad
      let push (acc : Bool) (b : Nat) (p : Pass) : Pass :=
        { p with stack := p.stack ++ [{ state := s, off := off, len := hlen, accepted := acc, bound := b }],
                 present := p.present ||| pr }
      if hmode ∧ hlen < 4 * bitsOf hw 24 7 then (push false bound ps, some 3)
      else if bound < off + hlen then (push false bound ps, some (if hmode ∨ declared then 3 else 4))
      else if 512 < off + hlen then (push false bound ps, some 2)
      else
        let ps := { ps with pstart := off + hlen }
        let pw := leAt st 20 4
        let dend := off + lenRule pw hd
        if bitOf pw 23 ∧ (bound < dend ∨ dend < off + hlen) then (push true bound ps, some 3)
        else
          let bound := if bitOf pw 23 then dend else bound
          let declared := declared || bitOf pw 23
          let ps := push true bound { ps with pad := bound }
          if bitOf fl 4 ∧ fold16 (sum16 (slice ps.pkt.data off hlen)) ≠ 0xFFFF then (ps, some 5)
          else if bitOf fl 1 then (ps, none)
          else
            let kw := leAt st 24 4
            let t := if keySearched st then
                findTransition rs (bitField hd (bitsOf kw 0 9) (bitsOf kw 9 6)) (bitsOf kw 9 6) (bitsOf kw 16 12)
                  (byteAt st 28 % 128)
              else none
            match t with
            | some t =>
              if bitOf (byteAt t 9) 1 then (ps, none)
              else parseLoop rs declared (byteAt t 8) (off + hlen) ps fuel
            | none =>
              let miss := bitsOf fl 2 2
              if miss = 1 then parseLoop rs declared (byteAt st 29) (off + hlen) ps fuel
              else if miss = 2 then (ps, none)
              else (ps, some 6)

/-- The parse of a pass under its rule set, from the START of the port record (R188, R194, R195). -/
def parsePass (ps : Pass) : Parsed :=
  let n := ps.pkt.data.length
  parseLoop ps.rules false (byteAt (ps.rules.entry 2 ps.pkt.ingress) 0) 0
    { ps with fields := {}, srcs := {}, stack := [], present := 0, pstart := 0, pad := n, pend := n } 17

end Sys2Proof.Machine
end

