-- ==== Sys2Proof/Machine/TableOps.lean ====
section
/-! DEFINITION. The named operations over the pair's mirror streams (R576 to R581) and over HBM exact tables: entries,
buckets, visibility, events, learn notifications (R225 to R228, R140, R320, R334 to R338). -/

namespace Sys2Proof.Machine

/-! ### The pair's streams -/

/-- DEVICE_ID (R71). -/
def Dev.deviceId (d : Dev) : Nat := d.fld (reg .sys 0 0x128) 0 14

/-- One of the 8 addresses of R566. -/
def macAddr (n : Nat) : List Byte := toBE 6 (Config.macBase.toNat + n)

/-- A pair-protocol frame (R576). -/
def Dev.pairFrame (d : Dev) (src : List Byte) (type stream flags seq : Nat) (body : List Byte) : List Byte :=
  [0x0F, 0x2B, 0x94, 0x00, 0x00, 0x02] ++ src ++ toBE 2 (d.fld (reg .prl 0 0x108) 0 16) ++
    [1, byteN type] ++ toBE 2 d.deviceId ++ [byteN stream, byteN (flags + 2 * b2n d.localOnly)] ++
    toBE 4 seq ++ toBE 8 d.turn ++ toBE 2 body.length ++ zeros 2 ++ body

/-- The pair link carries frames: its link is up and PRL accepts work (R567, R671). -/
def Dev.pairUp (d : Dev) : Bool := (d.port 4).link = .up && d.accepts .prl 0

/-- A pair-protocol frame sent on the pair link ahead of every queue, padded to 60 B (R565, R574). -/
def Dev.pairEmit (d : Dev) (f : List Byte) : Dev := if d.pairUp then d.emit (.frame 4 (f ++ zeros (60 - f.length))) else d

/-- The same for a frame of a type and body. -/
def Dev.pairSend (d : Dev) (type stream flags seq : Nat) (body : List Byte) : Dev :=
  d.pairEmit (d.pairFrame (macAddr 4) type stream flags seq body)

/-- A PRL counter. -/
def prlCount (k : Nat) : Nat := reg .prl 0 (0x200 + 8 * k)

/-- A stream of the pair. -/
def PairSt.stream (p : PairSt) (i : Nat) : PairStream := if i = 0 then p.s0 else p.s1

/-- A stream of the pair changed. -/
def PairSt.setStream (p : PairSt) (i : Nat) (s : PairStream) : PairSt := if i = 0 then { p with s0 := s } else { p with s1 := s }

/-- A pair-protocol frame that arrives on the pair link or on the alternate path: discarded and counted where it is not one
of the partner's (R575, R576), else kept until it is handled; it counts as hearing the partner (R583). -/
def Dev.pairReceive (d : Dev) (alt : Bool) (f : List Byte) : Dev :=
  let cfg := d.rdN (reg .prl 0 0x100)
  let p := bitsOf cfg 16 14
  if !d.accepts .prl 0 then d
  else if byteAt f 14 ≠ 1 ∨ byteAt f 15 = 0 ∨ 4 < byteAt f 15 ∨ beAt f 16 2 % 16384 ≠ p ∨ p = d.deviceId ∨ f.length < 36 + beAt f 32 2 then
    d.bump (prlCount 6)
  else
    let back := d.pair.lost
    let d : Dev := { d with pair := { d.pair with
      rx := d.pair.rx ++ [(alt, f)], lost := false, mirrorAt := if byteAt f 15 = 2 then d.bounds else d.pair.mirrorAt,
      heard := if alt then d.pair.heard else some d.bounds, heardAlt := if alt then some d.bounds else d.pair.heardAlt } }
    if back then
      (d.evtVia (reg .prl 0 0x124) ([0xA1, 0x92, 0xFF, 0, 0, 0] ++ toLE 2 p ++ toLE 8 d.turn ++ zeros 16)).1
    else d

/-- A frame kept in the region of PRL_BUF_BASE, behind the one before it; one that would pass the end goes to the start (R579).
[log 228: DESIGN CHOICE] -/
def Dev.pairKeep (d : Dev) (f : List Byte) : Dev :=
  let at_ := if 67108864 < d.pair.bufAt + f.length then 0 else d.pair.bufAt
  { d.hbmWrite (d.rd64 (reg .prl 0 0x118) + at_) f with pair := { d.pair with bufAt := at_ + f.length } }

/-- A record sent to the partner as one mirror frame, kept until it is acknowledged (R578, R579). -/
def Dev.mirror (d : Dev) (stream kind : Nat) (body : List Byte) : Dev :=
  let s := d.pair.stream stream
  let f := d.pairFrame (macAddr 4) 2 stream 0 s.next ([byteN kind, 0] ++ toBE 2 body.length ++ body)
  let d := ((d.pairEmit f).pairKeep f).bump (prlCount 2)
  let s' : PairStream := { s with next := (s.next + 1) % p32, unacked := s.unacked ++ [(s.next, f)],
                                  ackTurn := if s.unacked = [] then d.bounds else s.ackTurn }
  { d with pair := d.pair.setStream stream s' }

/-- Something made to wait for the acknowledgement of everything sent so far on a stream. -/
def Dev.pairWait (d : Dev) (stream : Nat) (t : AckThen) : Dev :=
  let s := d.pair.stream stream
  { d with pair := d.pair.setStream stream ({ s with waits := s.waits ++ [(s.next, t)] }) }

/-- Bytes of unacknowledged frames of both streams. -/
def Dev.pairHeld (d : Dev) : Nat :=
  (d.pair.s0.unacked ++ d.pair.s1.unacked).foldl (fun a f => a + f.2.length) 0

/-- The retransmission region has no room for the frames of one more operation: what must mirror waits (R579).
[log 228: DESIGN CHOICE] -/
def Dev.pairFull (d : Dev) : Bool := decide (67108864 ≤ d.pairHeld + 131072)

/-- MIRROR_STALL raised (R579). -/
def Dev.mirrorStall (d : Dev) : Dev := d.raise .prl 0 0 12

/-- A command of ring `r` completes, or waits for the partner when it has mirrored something since frame `n0` of the
state stream (R581). -/
def Dev.finishMirrored (d : Dev) (n0 r id st : Nat) (res : List Byte) : Dev :=
  if d.pair.s0.next = n0 then d.finish r id st res
  else (d.setWork r id fun w => { w with note := [1] }).pairWait 0 (.finish r id st res)

/-! ### Tables -/

/-- Register `off` of the bank of table `t` (R350). -/
def tabReg (t off : Nat) : Nat := reg .tbl 0 (0x1000 + t * 0x40 + off)

/-- A counter of table `t` (R352). -/
def tabCount (t o : Nat) : Nat := reg .tbl 0 (0x10100 + t * 0x80 + o)

/-- A table. -/
def Dev.table (d : Dev) (t : Nat) : TableSt := d.tables.getD t {}

/-- A table changed. -/
def Dev.setTable (d : Dev) (t : Nat) (s : TableSt) : Dev := { d with tables := d.tables.set t s {} }

/-- The layout of a table (R225, R351). -/
structure TabCfg where
  base : Nat
  log2 : Nat
  wide : Bool
  keyLen : Nat
  policy : Nat
  seed0 : Nat
  seed1 : Nat
deriving DecidableEq, Repr

/-- The layout of table `t`. -/
def Dev.tabCfg (d : Dev) (t : Nat) : TabCfg :=
  let c := d.rdN (tabReg t 8)
  { base := d.rd64 (tabReg t 0), log2 := bitsOf c 0 5, wide := bitOf c 5, keyLen := bitsOf c 8 7,
    policy := bitsOf c 16 2, seed0 := d.rdN (tabReg t 0x10), seed1 := d.rdN (tabReg t 0x14) }

/-- Bytes of an entry. -/
def TabCfg.size (c : TabCfg) : Nat := if c.wide then 128 else 64

/-- Where the fields after the key begin (R226). -/
def TabCfg.body (c : TabCfg) : Nat := if c.wide then 96 else 32

/-- The locations of a bucket, in slot order (R319). -/
def TabCfg.slots (c : TabCfg) (b : Nat) : List Nat := if c.wide then [b] else [2 * b, 2 * b + 1]

/-- The bucket of a location. -/
def TabCfg.bucketOf (c : TabCfg) (loc : Nat) : Nat := if c.wide then loc else loc / 2

/-- The HBM address of a location. -/
def TabCfg.addr (c : TabCfg) (loc : Nat) : Nat := c.base + loc * c.size

/-- The candidate buckets of a key (R225). -/
def TabCfg.buckets (c : TabCfg) (key : List Byte) : Nat × Nat :=
  let nb := 2 ^ c.log2
  let b0 := crc32c c.seed0 key % nb
  let b1 := crc32c c.seed1 key % nb
  (b0, if b1 = b0 then b0 ^^^ 1 else b1)

/-- The locations a lookup of a key examines, in lookup order (R227). -/
def TabCfg.order (c : TabCfg) (key : List Byte) : List Nat :=
  let (b0, b1) := c.buckets key
  c.slots b0 ++ c.slots b1

/-- The entry at a location. -/
def Dev.entryAt (d : Dev) (c : TabCfg) (loc : Nat) : List Byte := d.hbmRead (c.addr loc) c.size

/-- The key of an entry. -/
def TabCfg.key (c : TabCfg) (e : List Byte) : List Byte := e.take c.keyLen

/-- FLAGS of an entry. -/
def TabCfg.flags (c : TabCfg) (e : List Byte) : Nat := byteAt e (c.body + 3)

/-- VALID of an entry. -/
def TabCfg.valid (c : TabCfg) (e : List Byte) : Bool := bitOf (c.flags e) 0

/-- PINNED of an entry. -/
def TabCfg.pinned (c : TabCfg) (e : List Byte) : Bool := bitOf (c.flags e) 2

/-- A little-endian field of 4 bytes after the key. -/
def TabCfg.f32 (c : TabCfg) (e : List Byte) (o : Nat) : Nat := leAt e (c.body + o) 4

/-- An entry with the field of `n` bytes at `o` after the key replaced. -/
def TabCfg.put (c : TabCfg) (e : List Byte) (o n v : Nat) : List Byte := splice e (c.body + o) (toLE n v)

/-- OWNER of an entry (R226). -/
def TabCfg.owner (c : TabCfg) (e : List Byte) : Func :=
  let w := leAt e (c.body + 16) 2
  ⟨bitsOf w 12 1, bitsOf w 0 12⟩

/-- The owner field of a function. -/
def ownerField (f : Func) : Nat := f.num % 4096 + 4096 * (f.link % 2)

/-- The turn a 32-bit value names at turn `c` (R140). -/
def turnOf (c v : Nat) : Int :=
  let x := (v + p32 - c % p32) % p32
  if x < 2147483648 then (c : Int) + x else (c : Int) + x - 4294967296

/-- Turn `f` lies in a validity range, as it is read at turn `c` (R140). -/
def visibleAt (c from_ until_ : Nat) (f : Int) : Bool :=
  (from_ = 0 || decide (turnOf c from_ ≤ f)) && (until_ = 0xFFFFFFFF || decide (f < turnOf c until_))

/-- An entry is visible to turn `f`. -/
def TabCfg.visible (c : TabCfg) (cur : Nat) (e : List Byte) (f : Int) : Bool := visibleAt cur (c.f32 e 8) (c.f32 e 12) f

/-- A validity range holds a turn (R140). -/
def rangeSome (c f u : Nat) : Bool := f = 0 || u = 0xFFFFFFFF || decide (turnOf c f < turnOf c u)

/-- Two validity ranges overlap; one that holds no turn overlaps none (R320). [log 70: DEDUCED] -/
def rangesMeet (c f1 u1 f2 u2 : Nat) : Bool :=
  rangeSome c f1 u1 && rangeSome c f2 u2 && (f1 = 0 || u2 = 0xFFFFFFFF || decide (turnOf c f1 < turnOf c u2)) &&
    (f2 = 0 || u1 = 0xFFFFFFFF || decide (turnOf c f2 < turnOf c u1))

/-- A slot is free (R321). -/
def TabCfg.free (c : TabCfg) (cur : Nat) (e : List Byte) : Bool :=
  !c.valid e || (c.f32 e 12 ≠ 0xFFFFFFFF && decide (turnOf cur (c.f32 e 12) + 32768 ≤ (cur : Int)))

/-- The first location in lookup order whose entry is valid, has the key and satisfies `p`. -/
def Dev.findEntry (d : Dev) (c : TabCfg) (key : List Byte) (p : List Byte → Bool) : Option Nat :=
  (c.order key).find? fun l => let e := d.entryAt c l; c.valid e && c.key e = key && p e

/-- 1 for a valid entry. -/
def TabCfg.count (c : TabCfg) (e : List Byte) : Nat := b2n (c.valid e)

/-- The entries of table `t` by owner, after an entry `old` becomes `new`. -/
def ownShift (m : NMap Nat) (c : TabCfg) (t : Nat) (old new : List Byte) : NMap Nat :=
  let m := if c.valid old then let k := fkey (c.owner old) * 16 + t; m.set k (m.getD k 0 - 1) 0 else m
  if c.valid new then let k := fkey (c.owner new) * 16 + t; m.set k (m.getD k 0 + 1) 0 else m

/-- Table entries a function owns (R318, R545). -/
def Dev.flowsOwned (d : Dev) (f : Func) : Nat := (rangeFrom 0 16).foldl (fun a t => a + d.owned.getD (fkey f * 16 + t) 0) 0

/-- No function owns an entry of table `t` any more: it is destroyed, or its region is to be zeroed. -/
def Dev.disown (d : Dev) (t : Nat) : Dev := { d with owned := d.owned.filter fun k _ => decide (k % 16 ≠ t) }

/-- An entry written in one write by the table controller (R226, R326), mirrored where the pair covers the table. -/
def Dev.putEntry (d : Dev) (t loc : Nat) (e : List Byte) : Dev :=
  let c := d.tabCfg t
  let old := d.entryAt c loc
  let s := d.table t
  let d := d.setTable t { s with entries := s.entries - c.count old + c.count e }
  let d : Dev := { d with owned := ownShift d.owned c t old e }
  let d := (d.hbmWrite (c.addr loc) e).eccClear (c.addr loc) c.size
  if d.groupActive (d.groupOf 4 t) then d.mirror 0 1 (byteN t :: zeros 3 ++ toBE 4 loc ++ e) else d

/-- LAST_HIT of an entry written (R228). -/
def Dev.setLastHit (d : Dev) (c : TabCfg) (loc v : Nat) : Dev :=
  let e := d.entryAt c loc
  if c.f32 e 4 = v % p32 then d else d.hbmWrite (c.addr loc + c.body + 4) (toLE 4 v)

/-- An event of table `t` (R334). -/
def Dev.tblEvent (d : Dev) (t : Nat) (bs : List Byte) : Dev :=
  if d.bit (tabReg t 0x1C) 31 then (d.evtWrite (d.fld (tabReg t 0x1C) 0 16) bs).1
  else d.bump (tabCount t 0x70)

/-- The bytes of an event other than LEARN (R335); `ent` is its entry image. -/
def Dev.tblEvtBytes (d : Dev) (kind t flags loc sender seq detail op : Nat) (ent : List Byte) : List Byte :=
  [byteN (0xA0 + (32 + ent.length) / 16 - 1), byteN kind, byteN (t % 16), byteN flags] ++ toLE 4 loc ++ toLE 8 d.turn ++
    toLE 2 sender ++ zeros 2 ++ toLE 4 seq ++ toLE 4 detail ++ byteN op :: zeros 3 ++ ent

/-- A read of a bucket of a table meets an uncorrectable error: TABLE_FAULT is written and counted, and the bucket enters the
fault list, with TABLE_FAULT raised, where it is not in it and there is room (R333, R353). -/
def Dev.tableFault (d : Dev) (t bucket : Nat) : Dev :=
  let d := (d.tblEvent t (d.tblEvtBytes 0x55 t (4 * b2n d.localOnly) bucket 0 0 0 0 [])).bump (tabCount t 0x60)
  if (t, bucket) ∈ d.faults ∨ 64 ≤ d.faults.length then d
  else ({ d with faults := d.faults ++ [(t, bucket)] } : Dev).raise .tbl 0 0 10

/-! ### Learn notifications (R336 to R338) -/

/-- The learn filter slot of a table and a key. -/
def Dev.filterSlot (d : Dev) (t : Nat) (key : List Byte) : Nat :=
  crc32c (d.rdN (reg .tbl 0 0x104)) (byteN t :: key) % 4096

/-- The LEARN event (R338). -/
def learnBytes (ev : LearnEv) (slot : Nat) : List Byte :=
  [0xA1, 0x50, byteN (ev.table % 16 + 16 * (ev.source % 2) + 32 * (ev.pipe % 8)), byteN ev.key.length] ++
    toLE 4 ev.hash ++ toLE 2 ev.ingress ++ toLE 2 slot ++ toLE 4 (crc32c 0xFFFFFFFF ev.key) ++ slice ev.key 0 16

/-- A learn event: rate limit, filter, notification (R337). -/
def Dev.learnEvent (d : Dev) (ev : LearnEv) : Dev :=
  let t := ev.table
  let s := d.table t
  if s.state ≠ .ready ∨ ¬ d.accepts .tbl 0 then d
  else if s.tokens = 0 then d.bump (tabCount t 0x48)
  else
    let d := d.setTable t { s with tokens := s.tokens - 1 }
    let i := d.filterSlot t ev.key
    let fill (d : Dev) : Dev :=
      let d : Dev := { d with filter := d.filter.put i { table := t, key := ev.key, turn := d.bounds } }
      (d.tblEvent t (learnBytes ev i)).bump (tabCount t 0x30)
    match d.filter.find i with
    | some f =>
      if d.bounds < f.turn + d.fld (reg .tbl 0 0x100) 0 24 then
        if f.table = t ∧ f.key = ev.key then d.bump (tabCount t 0x38) else d.bump (tabCount t 0x40)
      else fill d
    | none => fill d

end Sys2Proof.Machine
end

