-- ==== Sys2Proof/Machine/Ptp.lean ====
section
/-! DEFINITION. The PTP messages the fantail takes from the control cores (R96 to R98): IEEE 1588-2019 as a slave-only ordinary
clock, with the default best master clock algorithm and both delay mechanisms. -/

namespace Sys2Proof.Machine

/-! ### Where a PTP message lies -/

/-- Where the PTP header of a frame starts, and whether it is of event kind by its carrier (R106). -/
def ptpAt (data : List Byte) : Option (Nat × Bool) :=
  match ethAt data data.length 0 with
  | none => none
  | some e =>
    if e.type = 0x88F7 then some (e.next, true)
    else match ipAt data data.length e.type e.next with
      | none => none
      | some ip =>
        let dp := beAt data (ip.next + 2) 2
        if ip.proto = 17 ∧ ¬ ip.frag ∧ (dp = 319 ∨ dp = 320) then some (ip.next + 8, decide (dp = 319)) else none

/-- A PTP event message over Ethernet or UDP port 319 (R106). -/
def ptpEvent (data : List Byte) : Bool :=
  match ptpAt data with
  | some (a, ev) => ev && decide (byteAt data a % 16 < 4)
  | none => false

/-- A timestamp in units of 2^-16 ns. -/
def Ts.units (t : Ts) : Int := ((((t.sec * secNs + t.ns) * 65536 + t.frac) : Nat) : Int)

/-! ### The configuration (R89) -/

/-- TIM_FT_CTRL. -/
def ftCtrl : Nat := reg .tim 0 0x160

/-- The fantail runs: it owns the servo and a control core is left to run it (R80, R97). [log 35: DEDUCED] -/
def Dev.fantailRuns (d : Dev) : Bool := !d.hostOwner && !d.coresDead

/-- The fantail uses network port `n` (R89). -/
def Dev.ftPortOn (d : Dev) (n : Nat) : Bool := decide (n < 4) && d.bit ftCtrl n

/-- TRANSPORT. -/
def Dev.ftTransport (d : Dev) : Nat := d.fld ftCtrl 4 2

/-- DELAY: the peer-to-peer mechanism is in use. -/
def Dev.ftPeerDelay (d : Dev) : Bool := d.bit ftCtrl 6

/-- The EtherType of TRANSPORT. -/
def Dev.ftEther (d : Dev) : Nat := match d.ftTransport with | 0 => 0x88F7 | 1 => 0x0800 | _ => 0x86DD

/-- A PTP message of the fantail's transport, domain and version in a frame, with the sdoId 0 of the default profile.
[log 177: DEDUCED] -/
def Dev.ftMessage (d : Dev) (data : List Byte) : Option (List Byte) :=
  match ptpAt data with
  | some (a, _) =>
    let m := data.drop a
    if etherType data = d.ftEther ∧ byteAt m 0 / 16 = 0 ∧ byteAt m 5 = 0 ∧ byteAt m 1 % 16 = 2 ∧ byteAt m 4 = d.fld ftCtrl 8 7 ∧ 34 ≤ beAt m 2 2 ∧ beAt m 2 2 ≤ m.length then
      some (m.take (beAt m 2 2))
    else none
  | none => none

/-! ### Identities (R96) -/

/-- The fantail's clockIdentity (R96). -/
def clockIdentity : List Byte := (macAddr 0).take 3 ++ [0xFF, 0xFE] ++ (macAddr 0).drop 3

/-- The port identity of the fantail on network port `n`. [log 177: DEDUCED] -/
def ftIdentity (n : Nat) : List Byte := clockIdentity ++ toBE 2 (n + 1)

/-! ### Fields of a message -/

/-- A correctionField, signed, in 2^-16 ns. -/
def ptpCorr (m : List Byte) : Int := (w64 (beAt m 8 8)).toInt

/-- A timestamp field of a message, in 2^-16 ns. -/
def ptpTime (m : List Byte) (off : Nat) : Int := ((((beAt m off 6 * secNs + beAt m (off + 6) 4) * 65536) : Nat) : Int)

/-- A message interval of a master in 2^-16 ns, from its logarithm. -/
def ptpInterval (log : Nat) : Int :=
  let s : Int := ((secNs * 65536 : Nat) : Int)
  if log < 128 then s * 2 ^ min log 16 else s / 2 ^ min (256 - log) 16

/-! ### The best master (R96) -/

/-- Lexicographic order of two lists of the same length. -/
def lexLt : List Nat → List Nat → Bool
  | a :: as, b :: bs => decide (a < b) || (decide (a = b) && lexLt as bs)
  | _, _ => false

/-- A master is better than another by the data set comparison of IEEE 1588-2019 9.3.4. -/
def FtMaster.better (a b : FtMaster) : Bool :=
  if a.gm = b.gm then lexLt [a.steps, beNat a.sender, a.port] [b.steps, beNat b.sender, b.port]
  else lexLt (a.rank ++ [beNat a.gm]) (b.rank ++ [beNat b.gm])

/-- The master selected: the best of those heard twice. [log 177: DEDUCED] -/
def FtSt.best (f : FtSt) : Option FtMaster :=
  (f.masters.filter fun x => decide (2 ≤ x.heard)).foldl (fun b x => match b with
    | none => some x
    | some y => if x.better y then some x else some y) none

/-- Masters whose Announce messages have stayed out for three intervals are forgotten. -/
def FtSt.age (f : FtSt) (now : Int) : FtSt := { f with masters := f.masters.filter fun x => decide (now ≤ x.last + x.keep) }

/-- An Announce message; one of an alternate master, of the fantail itself or of 255 steps tells nothing. -/
def FtSt.announce (f : FtSt) (port : Nat) (now : Int) (m : List Byte) : FtSt :=
  let who := slice m 20 10
  let old := f.masters.find? fun x => decide (x.port = port ∧ x.sender = who)
  if m.length < 64 ∨ bitOf (byteAt m 6) 0 ∨ who.take 8 = clockIdentity ∨ 255 ≤ beAt m 61 2 then f
  else { f with masters := (f.masters.filter fun x => !decide (x.port = port ∧ x.sender = who)) ++
    [{ port := port, sender := who, gm := slice m 53 8,
       rank := [byteAt m 47, byteAt m 48, byteAt m 49, beAt m 50 2, byteAt m 52], steps := beAt m 61 2,
       heard := (match old with | some x => x.heard + 1 | none => 1), last := now, keep := 3 * ptpInterval (byteAt m 33) }] }

/-! ### Sync and delay messages -/

/-- A Sync message: ready at once, or with its Follow_Up. -/
def FtSt.sync (f : FtSt) (port : Nat) (now : Int) (m : List Byte) : FtSt :=
  let y : FtSync := { port := port, sender := slice m 20 10, seq := beAt m 30 2, came := now, origin := ptpCorr m }
  if m.length < 44 then f
  else if bitOf (byteAt m 6) 1 then
    { f with syncs := (f.syncs.filter fun x => !decide (x.port = port ∧ x.sender = y.sender)) ++ [y] }
  else { f with ready := f.ready ++ [{ y with origin := y.origin + ptpTime m 34 }] }

/-- A Follow_Up message. -/
def FtSt.followUp (f : FtSt) (port : Nat) (m : List Byte) : FtSt :=
  match takeFirst (fun x : FtSync => decide (x.port = port ∧ x.sender = slice m 20 10 ∧ x.seq = beAt m 30 2)) f.syncs with
  | some (y, rest) =>
    if m.length < 44 then f
    else { f with syncs := rest, ready := f.ready ++ [{ y with origin := y.origin + ptpTime m 34 + ptpCorr m }] }
  | none => f

/-- The path delay of a port measured. -/
def FtSt.setDelay (f : FtSt) (port : Nat) (x : Int) : FtSt := { f with delay := f.delay.put port x }

/-- The own request a response on a port names, without it in the list. -/
def FtSt.takeReq (f : FtSt) (port : Nat) (peer : Bool) (m : List Byte) : Option (FtReq × List FtReq) :=
  if m.length < 54 ∨ slice m 44 10 ≠ ftIdentity port then none
  else takeFirst (fun q : FtReq => decide (q.port = port ∧ q.peer = peer ∧ q.seq = beAt m 30 2)) f.reqs

/-- A Delay_Resp: the mean path delay of the request-response mechanism. -/
def FtSt.delayResp (f : FtSt) (port : Nat) (m : List Byte) : FtSt :=
  match f.takeReq port false m, f.last with
  | some (q, rest), some y =>
    match q.left with
    | some t3 =>
      if y.port = port then
        ({ f with reqs := rest } : FtSt).setDelay port (((y.came - y.origin) + (ptpTime m 34 - ptpCorr m - t3)) / 2)
      else f
    | none => f
  | _, _ => f

/-- A Pdelay_Resp: the mean path delay of the peer mechanism at once, or with its follow-up. -/
def FtSt.peerResp (f : FtSt) (port : Nat) (now : Int) (m : List Byte) : FtSt :=
  match f.takeReq port true m with
  | some (q, rest) =>
    match q.left with
    | some t1 =>
      if bitOf (byteAt m 6) 1 then { f with reqs := rest ++ [{ q with resp := some (now, ptpCorr m - ptpTime m 34) }] }
      else ({ f with reqs := rest } : FtSt).setDelay port ((now - t1 - ptpCorr m) / 2)
    | none => f
  | none => f

/-- A Pdelay_Resp_Follow_Up. -/
def FtSt.peerFollowUp (f : FtSt) (port : Nat) (m : List Byte) : FtSt :=
  match f.takeReq port true m with
  | some (q, rest) =>
    match q.left, q.resp with
    | some t1, some (t4, c) => ({ f with reqs := rest } : FtSt).setDelay port ((t4 - t1 - (ptpTime m 34 + c) - ptpCorr m) / 2)
    | _, _ => f
  | none => f

/-- A Pdelay_Req, to be answered. -/
def FtSt.peerReq (f : FtSt) (port : Nat) (ts : Ts) (m : List Byte) : FtSt :=
  if m.length < 54 then f
  else { f with peers := f.peers ++ [{ port := port, who := slice m 20 10, seq := beAt m 30 2, corr := beAt m 8 8, came := ts }] }

/-- A message of a port, by its messageType. -/
def FtSt.take (f : FtSt) (peerDelay : Bool) (port : Nat) (ts : Ts) (m : List Byte) : FtSt :=
  let now := ts.units
  let f := f.age now
  match byteAt m 0 % 16 with
  | 0x0 => f.sync port now m
  | 0x2 => if peerDelay then f.peerReq port ts m else f
  | 0x3 => if peerDelay then f.peerResp port now m else f
  | 0x8 => f.followUp port m
  | 0x9 => if peerDelay then f else f.delayResp port m
  | 0xA => if peerDelay then f.peerFollowUp port m else f
  | 0xB => f.announce port now m
  | _ => f

/-- A frame a control core has received, as far as the fantail is concerned (R97). -/
def Dev.ftReceive (d : Dev) (p : Pkt) : Dev :=
  match p.ts, d.ftMessage p.data with
  | some ts, some m =>
    if d.fantailRuns && d.ftPortOn p.ingress then { d with ft := d.ft.take d.ftPeerDelay p.ingress ts m } else d
  | _, _ => d

/-- The egress timestamp of a message of the fantail that leaves port `n` (R98). -/
def Dev.ftLeft (d : Dev) (n : Nat) (data : List Byte) (ts : Ts) : Dev :=
  match d.ftMessage data with
  | some m =>
    let seq := beAt m 30 2
    let mark (peer : Bool) (q : FtReq) : FtReq :=
      if q.port = n ∧ q.peer = peer ∧ q.seq = seq then { q with left := some ts.units } else q
    let answer (q : FtPeer) : FtPeer := if q.port = n ∧ q.who = slice m 44 10 ∧ q.seq = seq then { q with left := some ts } else q
    match byteAt m 0 % 16 with
    | 0x1 => { d with ft := { d.ft with reqs := d.ft.reqs.map (mark false) } }
    | 0x2 => { d with ft := { d.ft with reqs := d.ft.reqs.map (mark true) } }
    | 0x3 => { d with ft := { d.ft with peers := d.ft.peers.map answer } }
    | _ => d
  | none => d

end Sys2Proof.Machine
end

