-- ==== Sys2Proof/Machine/Match.lean ====
section
/-! DEFINITION. Metadata, keys, range comparators and match stages (R210 to R229). -/

namespace Sys2Proof.Machine

/-! ### Field vector, metadata, keys (R210 to R215) -/

/-- Metadata word `m` of a pass (R211). -/
def metaWord (ps : Pass) (m : Nat) : Nat :=
  let p := ps.pkt
  match m with
  | 0 => p.stamp % 65536 + 65536 * (p.ingress % 65536)
  | 1 => p.hash
  | 2 => p.pass % 8 + 8 * b2n p.cls.isSome + 16 * (p.cls.getD 0 % 16) + 256 * b2n ps.retained + 512 * b2n p.ts.isSome +
      1024 * b2n p.suspect + 65536 * ps.stack.length
  | 3 => ps.pstart % 65536 + 65536 * (ps.pad % 65536)
  | 4 => ps.pend % 65536
  | 5 => ps.present % p32
  | 6 => ps.present / p32 % p32
  | 7 => match p.ts with | some t => t.frac % 65536 | none => 0
  | 8 => match p.ts with | some t => t.ns % p32 | none => 0
  | 9 => match p.ts with | some t => t.sec % p32 | none => 0
  | 10 => match p.ts with | some t => t.sec / p32 % 65536 | none => 0
  | 11 => p.user
  | 12 => ps.admitted % p32
  | _ => 0

/-- The word a selector source names: a field, a metadata word, a range-vector word (R212). -/
def srcWord (ps : Pass) (s : Nat) : Nat :=
  if s < 128 then ps.fields.getD s 0
  else if s < 144 then metaWord ps (s - 128)
  else if s < 148 then bitsOf ps.ranges (32 * (s - 144)) 32
  else 0

/-- A word with the bytes that a byte mask keeps. -/
def maskBytes (v mask : Nat) : List Byte :=
  (rangeFrom 0 4).map fun i => if bitOf mask i then byteN (bitsOf v (8 * i) 8) else 0

/-- The key built by a key layout (R213). -/
def buildKey (ps : Pass) (layout : Nat) : List Byte :=
  let l := ps.rules.entry 3 layout
  (rangeFrom 0 (min 24 (byteAt l 48))).flatMap fun j =>
    let w := leAt l (2 * j) 2
    maskBytes (srcWord ps (bitsOf w 0 8)) (bitsOf w 8 4)

/-- A range comparator holds (R215). -/
def comparator (ps : Pass) (c : List Byte) : Bool :=
  let fl := byteAt c 9
  let v := ps.fields.getD (byteAt c 8) 0
  let v := if bitOf fl 1 then v else v % 65536
  bitOf fl 0 && decide (leAt c 0 4 ≤ v ∧ v ≤ leAt c 4 4)

/-- The range vector of a pass (R215). -/
def rangeVector (ps : Pass) : Nat :=
  (ps.rules.img.cells.filter fun q => decide (327680 ≤ q.1 ∧ q.1 < 327808)).foldl
    (fun a q => if comparator ps q.2 then a + 2 ^ (q.1 - 327680) else a) 0

/-! ### Lookups -/

/-- A record chosen by a lookup, with its CHAIN value. -/
structure Hit where
  act : ActRef
  chain : Nat
deriving DecidableEq, Repr

/-- A ternary lookup: the lowest-numbered valid entry that matches (R222). -/
def ternary (rs : RuleSet) (key : List Byte) (base count : Nat) : Option Hit :=
  let n := min 80 key.length
  let k := beNat (key.take n)
  let lo := 393216 + base
  let hi := min (lo + count) 409600
  match (rs.img.cells.filter fun q => decide (lo ≤ q.1 ∧ q.1 < hi)).find? (fun q =>
      let m := beNat (slice q.2 80 n)
      bitOf (byteAt q.2 163) 0 && decide (k &&& m = beNat (slice q.2 0 n) &&& m)) with
  | some q => some { act := { index := leAt q.2 160 3 }, chain := leAt q.2 164 4 }
  | none => none

/-- An on-die exact lookup (R224). -/
def onDie (rs : RuleSet) (part : Nat) (key : List Byte) : Option Hit :=
  let pd := rs.entry 7 part
  let kl := byteAt pd 3
  let k := slice key 0 kl
  let b := crc32c (leAt pd 4 4) k % 2 ^ byteAt pd 2
  if !bitOf (byteAt pd 8) 0 then none
  else match (rangeFrom (leAt pd 0 2 + 4 * b) 4).find? (fun i =>
      let e := rs.entry 8 i
      bitOf (byteAt e 35) 0 && decide (e.take kl = k)) with
    | some i => let e := rs.entry 8 i; some { act := { index := leAt e 32 3 }, chain := leAt e 36 4 }
    | none => none

/-- A counter of CLS page 1. -/
def clsCount (p x : Nat) : Nat := reg .cls p (0x10000 + x)

/-- What an exact lookup came to: a hit, a miss, an uncorrectable read error. -/
inductive Exact where
  | hit (h : Hit)
  | miss
  | fault
deriving DecidableEq, Repr

/-- An HBM exact lookup of pipeline `p` in table `t` (R225 to R228, R314, R336). [log 75: DEDUCED] -/
def hbmLookup (d : Dev) (p t : Nat) (ps : Pass) (built : List Byte) : Dev × Exact :=
  let c := d.tabCfg t
  if (d.table t).state ≠ .ready then (d, .miss)
  else
    let key := slice built 0 c.keyLen
    let (b0, b1) := c.buckets key
    let e0 := d.eccOf (c.base + b0 * 128) 128
    let e1 := d.eccOf (c.base + b1 * 128) 128
    if e0 = 2 ∨ e1 = 2 then
      let d := (d.bump (clsCount p 0x300)).raise .cls p 0 8
      let d := if e0 = 2 then d.tableFault t b0 else d
      (if e1 = 2 then d.tableFault t b1 else d, .fault)
    else
      let d := if e0 = 1 ∨ e1 = 1 then d.bump (clsCount p 0x310) else d
      match d.findEntry c key fun e => c.visible d.turn e ps.full with
      | some l =>
        let e := d.entryAt c l
        (d.setLastHit c l d.turn,
          .hit { act := { index := leAt e c.body 3, ref := leAt e (c.body + 24) 8 }, chain := c.f32 e 20 })
      | none =>
        let d := if d.bit (tabReg t 0xC) 0 then
            d.learnEvent { table := t, source := 0, pipe := p, key := key, hash := ps.pkt.hash, ingress := ps.pkt.ingress }
          else d
        (d, .miss)

/-! ### Stages -/

/-- The records a stage chooses from its two lookups (R217). -/
def mergeHits (merge : Nat) (ex tc : Option Hit) : List Hit :=
  match ex, tc with
  | some e, some t => if merge = 0 then [e] else if merge = 1 then [t] else [e, t]
  | some e, none => [e]
  | none, some t => [t]
  | none, none => []

/-- Match stage `s` (1 to 12) of pipeline `p`: the class it raises, if any (R217 to R221); after a TABLE_FAULT of its HBM lookup
its ternary lookup is not made. [log 216: DESIGN CHOICE] -/
def matchStage (d : Dev) (p s : Nat) (ps : Pass) : Dev × Pass × Option Nat :=
  let cfg := ps.rules.entry 4 (s - 1)
  let cnt := fun o => clsCount p (0x100 + o + 0x20 * (s - 1))
  if !bitOf (byteAt cfg 10) 0 then (d, ps, none)
  else
    let kind := byteAt cfg 0
    let (d, ex) : Dev × Exact :=
      if kind = 1 then (d, match onDie ps.rules (byteAt cfg 1) (buildKey ps (byteAt cfg 2)) with
        | some h => .hit h
        | none => .miss)
      else if kind = 2 then hbmLookup d p (byteAt cfg 1) ps (buildKey ps (byteAt cfg 2))
      else (d, .miss)
    match ex with
    | .fault => (d, ps, some 11)
    | _ =>
      let exh := match ex with | .hit h => some h | _ => none
      let tch := if leAt cfg 6 2 = 0 then none else ternary ps.rules (buildKey ps (byteAt cfg 3)) (leAt cfg 4 2) (leAt cfg 6 2)
      let d := if exh.isSome then d.bump (cnt 0) else d
      let d := if tch.isSome then d.bump (cnt 8) else d
      match mergeHits (byteAt cfg 8) exh tch with
      | [] => (d.bump (cnt 0x10), ps, if bitOf (byteAt cfg 10) 1 then some 0 else none)
      | h :: hs =>
        let ps := { ps with list := ps.list ++ (h :: hs).map (·.act) }
        let ch := byteAt cfg 9
        let ps := if bitOf ch 3 then { ps with fields := ps.fields.set (112 + ch % 8) h.chain 0 } else ps
        (d, ps, none)

/-- `n` match stages from stage `s`; the stages after a raised class are not evaluated. -/
def matchStages (d : Dev) (p s : Nat) (ps : Pass) : Nat → Dev × Pass × Option Nat
  | 0 => (d, ps, none)
  | n + 1 =>
    match matchStage d p s ps with
    | (d, ps, some c) => (d, ps, some c)
    | (d, ps, none) => matchStages d p (s + 1) ps n

/-- The HBM lookups a pass under a rule set costs (R230). -/
def lookupCost (rs : RuleSet) : Nat :=
  ((rangeFrom 0 12).filter fun i =>
    let c := rs.entry 4 i
    bitOf (byteAt c 10) 0 && decide (byteAt c 0 = 2)).length

end Sys2Proof.Machine
end

