-- ==== Sys2Proof/Machine/Deliver.lean ====
section
/-! DEFINITION. Where frames go at the end of a pass: ports, rings, cores, mirror copies, default actions (R198 to R205,
R257, R258, R260). -/

namespace Sys2Proof.Machine

/-- A counter of ACT page 2. -/
def actCount (p x : Nat) : Nat := reg .act p (0x20000 + x)

/-- The port record of a packet's ingress port (R201). -/
def portRecord (rs : RuleSet) (ingress : Nat) : List Byte := rs.entry 2 ingress

/-- The class entry of class `c` (R201). -/
def classEntry (rs : RuleSet) (ingress c : Nat) : Nat := leAt (portRecord rs ingress) (16 + 4 * c) 4

/-- The class that is raised on a packet, unless it holds one (R199). -/
def Pkt.raise (p : Pkt) (c : Nat) : Pkt := { p with cls := match p.cls with | some x => some x | none => some c }

/-- A frame handed to a control core; its cells are freed (R238, R361).  The cores hear a pair-protocol frame as one of the
alternate path (R583). -/
def Dev.toCore (d : Dev) (p : Pkt) (core : Nat) : Dev :=
  let d := ((d.freePkt p).emit (.toCore core p.data)).ftReceive p
  if etherType p.data = d.prlType then d.pairReceive true p.data else d

/-- A frame handed to the core of its fold. -/
def Dev.toFoldCore (d : Dev) (p : Pkt) (admitted : Nat) (direct : Option Nat) : Dev :=
  d.toCore p (d.coreFor (foldHash p.hash) admitted direct)

/-- A copy of a frame in fresh cells of source 9, for a ring or a port (R260, R358, R360): `data` is what it holds. -/
def Dev.mirrorCopy (d : Dev) (pl : Nat) (p : Pkt) (data : List Byte) (toPort : Bool) (ring port queue : Nat) (bad : Dev → Dev) : Dev :=
  match d.cellAlloc 9 (cellsFor data.length) with
  | none => (d.bump (actCount pl 0x188)).countDrop 9
  | some d =>
    let (d, id) := d.fresh
    let q : Pkt := { p with id := id, data := data, src := 9, cells := cellsFor data.length, tx := none, pri := none,
                            oneStep := none, inspect := none }
    if toPort then d.enqueue port queue q
    else if d.ringKind ring = 2 then d.toRx ring q
    else bad (d.freePkt q)

/-- A drop under the default actions, with cause EXCEPTION (R204). -/
def Dev.dropExc (d : Dev) (p : Pkt) : Dev := d.dropPkt p 2

/-- A frame of a default action delivered to a ring, which must be of kind RX (R204). -/
def Dev.excRing (d : Dev) (pl : Nat) (p : Pkt) (ring : Nat) : Dev :=
  if d.ringKind ring = 2 then d.toRx ring p else (d.bump (reg .prs pl 0x308)).dropExc p

/-- The default action of class `c` applied to a frame: the pass ends (R200 to R205).  USE_PARTIAL acts as DROP here.
[log 57: DEDUCED] -/
def Dev.applyDefault (d : Dev) (pl : Nat) (rs : RuleSet) (p : Pkt) (c admitted : Nat) : Dev :=
  let e := classEntry rs p.ingress c
  let p := p.raise c
  let d := d.bump (reg .prs pl (0x200 + 8 * c))
  let pr := portRecord rs p.ingress
  match bitsOf e 0 3 with
  | 1 =>
    let dd := leAt pr 4 4
    if bitOf dd 31 then d.enqueue (bitsOf dd 0 3) (bitsOf dd 8 6) p else d.excRing pl p (bitsOf dd 0 16)
  | 2 => d.excRing pl p (bitsOf e 16 16)
  | 3 =>
    let d := d.mirrorCopy pl p p.data false (leAt pr 8 2) 0 0 fun d => (d.bump (reg .prs pl 0x308)).countDrop 2
    d.dropExc p
  | 5 => d.toFoldCore p admitted none
  | _ => d.dropExc p

/-- The spare cell of a pass returned to the packet's source (R357). -/
def Dev.freeSpare (d : Dev) (p : Pkt) : Dev := d.cellFree p.src 1

/-- A pass that ends with the default action of a class. [log 58: DEDUCED] -/
def Dev.endDefault (d : Dev) (pl : Nat) (ps : Pass) (c : Nat) : Dev :=
  (d.freeSpare ps.pkt).applyDefault pl ps.rules ps.pkt c ps.admitted

end Sys2Proof.Machine
end

