-- ==== Sys2Proof/Machine/Lanes.lean ====
section
/-! DEFINITION. Handing packets to the lanes of the inline cipher cluster (R386, R387, R611, R671). -/

namespace Sys2Proof.Machine

/-- The lane from `i` on, ascending and wrapping, whose fence has not taken effect (R386). -/
def Dev.laneFrom (d : Dev) (i : Nat) : Nat → Nat
  | 0 => i % 16
  | n + 1 =>
    match (d.lane 0 (i % 16)).fenced with
    | some t => if t < d.turn then d.laneFrom (i + 1) n else i % 16
    | none => i % 16

/-- A packet handed to the inline cluster: it waits for its lane, or is dropped with cause FENCED where the cluster takes
none. -/
def Dev.toInline (d : Dev) (job : InlineJob) : Dev :=
  if d.clusterTakes 0 then
    let i := d.laneFrom (job.sa % 16) 16
    let l := d.lane 0 i
    d.setLane 0 i { l with queue := l.queue ++ [job] }
  else d.dropPkt job.pkt 11

end Sys2Proof.Machine
end

