-- ==== Sys2Proof/Machine/Rewrite.lean ====
section
/-! DEFINITION. Header templates and kinds, pushes and pops, field write-back, and the repair of lengths and checksums
(R266 to R272). -/

namespace Sys2Proof.Machine

/-! ### The working stack (R268, R269) -/

/-- The headers of a pass as the parser left them: each runs to the start of the next, the last to the payload start. -/
def workOf (data : List Byte) (pstart i : Nat) : List Hdr → List WHdr
  | [] => []
  | h :: hs =>
    let stop := match hs with | n :: _ => n.off | [] => pstart
    { bytes := slice data h.off (stop - h.off), parsed := some i, tmpl := [], at_ := h.off } :: workOf data pstart (i + 1) hs

/-- The header template `t` of a rule set (R266). -/
def templateOf (rs : RuleSet) (t : Nat) : List Byte := rs.entry 10 t

/-- LEN of a template. -/
def templateLen (t : List Byte) : Nat := byteAt t 64

/-- Where an entry put before entry `pos` stands in the frame as admitted: the place of the entry, or the payload start
after the last. -/
def placeOf (work : List WHdr) (pos pstart : Nat) : Nat :=
  match work[pos]? with
  | some w => w.at_
  | none => pstart

/-- A push of template `t` before entry `pos`, or after the last with `atEnd`; `patch` overwrites bytes from `poff` on.
An error is the cause of the action fault (R266, R268, R269, R276). -/
def ActCtx.push (c : ActCtx) (t pos : Nat) (atEnd : Bool) (patch : Option (List Byte)) (poff : Nat) : Except Nat ActCtx :=
  let e := templateOf c.ps.rules t
  let n := templateLen e
  if n = 0 ∨ 64 < n ∨ (¬ atEnd ∧ c.work.length ≤ pos) ∨
      (match patch with | some p => decide (n < poff + p.length) | none => false) = true then .error 1
  else if 4 ≤ c.pushes then .error 2
  else if (128 : Int) < c.growth + (n : Int) then .error 4
  else
    let data := match patch with | some p => splice (e.take n) poff p | none => e.take n
    let k := if atEnd then c.work.length else pos
    let a := placeOf c.work k c.ps.pstart
    .ok { c with work := c.work.take k ++ { bytes := data, parsed := none, tmpl := e, at_ := a } :: c.work.drop k,
                 pushes := c.pushes + 1, growth := c.growth + (n : Int), edits := c.edits ++ [(a, a, (n : Int))] }

/-- A pop of `n` entries from entry `pos` (R268, R269). -/
def ActCtx.pop (c : ActCtx) (pos n : Nat) : Except Nat ActCtx :=
  if c.work.length < pos + n then .error 1
  else if 4 < c.popped + n then .error 3
  else
    let cut : Nat := ((c.work.drop pos).take n).foldl (fun a w => a + w.bytes.length) 0
    .ok { c with work := c.work.take pos ++ c.work.drop (pos + n), popped := c.popped + n, growth := c.growth - (cut : Int),
                 edits := c.edits ++ [(placeOf c.work pos c.ps.pstart, placeOf c.work (pos + n) c.ps.pstart, -(cut : Int))] }

/-! ### The final stack -/

/-- A header of the final stack with a kind: the kind, its start and its new extent's end; for a parsed header its start
and its extent's end in the frame as admitted, for a pushed one whether the template leaves the checksum zero (R271). -/
structure KHdr where
  kind : Nat
  start : Nat
  stop : Nat
  parsed : Option Nat
  ostart : Nat := 0
  ostop : Nat := 0
  zeroCk : Bool := false
deriving DecidableEq, Repr

/-- The least header size of a kind (R267). -/
def leastSize (k : Nat) : Nat := if k = 1 then 20 else if k = 2 then 40 else if k = 3 then 8 else if k = 4 then 20 else 2

/-- The kind a parsed header is repaired as; 0 is NONE (R267, R271). -/
def kindOf (rs : RuleSet) (h : Hdr) : Nat :=
  let k := byteAt (rs.entry 11 h.state) 0 % 16
  if h.accepted && decide (1 ≤ k ∧ k ≤ 4) && decide (leastSize k ≤ h.len) then k else 0

/-- A parsed header has an extent where it has a kind other than NONE (R271). [log 56: DEDUCED] -/
def hasExtent (rs : RuleSet) (h : Hdr) : Bool := decide (kindOf rs h ≠ 0)

/-- Net growth of the pushes and pops that lie from `lo` to `hi` of the frame as admitted (R271). -/
def netGrowth (edits : List (Nat × Nat × Int)) (lo hi : Nat) : Int :=
  edits.foldl (fun a e => if lo ≤ e.1 ∧ e.2.1 ≤ hi then a + e.2.2 else a) 0

/-- The descriptors of a template: kind and offset, by offset (R266). -/
def descsOf (t : List Byte) : List (Nat × Nat) :=
  sortBy (fun a b => decide (a.2 ≤ b.2))
    (((rangeFrom 0 4).map fun i => let w := leAt t (66 + 2 * i) 2; (bitsOf w 0 4, bitsOf w 4 6)).filter fun q => q.1 ≠ 0)

/-- The start of every entry of the final stack. -/
def startsOf (work : List WHdr) : List Nat :=
  (work.foldl (fun (q : List Nat × Nat) w => (q.1 ++ [q.2], q.2 + w.bytes.length)) ([], 0)).1

/-- The headers of the final stack that have a kind, in order; `last` is the new end of the nearest parsed extent before,
`pad` the new padding start (R271). -/
def khdrs (c : ActCtx) (last : Option Nat) (pad : Nat) : List (WHdr × Nat) → List KHdr
  | [] => []
  | (w, start) :: r =>
    match w.parsed with
    | some i =>
      match c.ps.stack[i]? with
      | some h =>
        if hasExtent c.ps.rules h then
          let stop := ((start : Int) + ((h.bound : Int) - (h.off : Int)) + netGrowth c.edits (h.off + h.len) h.bound).toNat
          { kind := kindOf c.ps.rules h, start := start, stop := stop, parsed := some i, ostart := h.off, ostop := h.bound } ::
            khdrs c (some stop) pad r
        else khdrs c last pad r
      | none => khdrs c last pad r
    | none =>
      (descsOf w.tmpl).map (fun q =>
        { kind := q.1, start := start + q.2, stop := last.getD pad, parsed := none,
          zeroCk := decide (q.1 = 3 ∧ leAt w.tmpl (q.2 + 6) 2 = 0) }) ++ khdrs c last pad r

/-! ### Write-back (R270) -/

/-- The written fields put where their extracts read them, in ascending order. -/
def writeBack (c : ActCtx) (starts : List (WHdr × Nat)) (buf : List Byte) : List Nat → List Byte
  | [] => buf
  | f :: fs =>
    match c.ps.srcs.find f with
    | some src =>
      match starts.find? fun q => q.1.parsed = some src.entry, c.ps.stack[src.entry]? with
      | some q, some h =>
        let v := c.ps.fields.getD f 0
        writeBack c starts (splice buf (q.2 + (src.off - h.off)) (toBE src.width v)) fs
      | _, _ => writeBack c starts buf fs
    | none => writeBack c starts buf fs

/-! ### Lengths and checksums (R271, R272) -/

/-- PORT_HASH of a header. -/
def portHash (hash : Nat) (buf : List Byte) (h : KHdr) : List Byte :=
  if h.kind = 5 then splice buf h.start (toBE 2 (0xC000 + hash % 0x4000)) else buf

/-- The length field of a header. -/
def setLength (buf : List Byte) (h : KHdr) : List Byte :=
  let n := h.stop - h.start
  if h.kind = 1 then splice buf (h.start + 2) (toBE 2 n)
  else if h.kind = 2 then splice buf (h.start + 4) (toBE 2 (n + 65536 - 40))
  else if h.kind = 3 then splice buf (h.start + 4) (toBE 2 n)
  else buf

/-- A byte string with the two bytes at `o` zero. -/
def zeroAt (bs : List Byte) (o : Nat) : List Byte := splice bs o [0, 0]

/-- The header bytes an IPv4 checksum covers, the checksum taken as zero. -/
def ip4Covered (buf : List Byte) (start : Nat) : List Byte :=
  let n := byteAt buf start % 16 * 4
  zeroAt ((buf.drop start).take n) 10

/-- Where the checksum of a UDP or TCP header stands. -/
def l4Off (kind : Nat) : Nat := if kind = 3 then 6 else 16

/-- The pseudo-header of the IP header of kind `ip` at `start` for a UDP or TCP header of kind `kind` (RFC 768, RFC 793,
RFC 8200). -/
def pseudoOf (buf : List Byte) (ip start kind len : Nat) : List Byte :=
  let proto := if kind = 3 then 17 else 6
  if ip = 1 then slice buf (start + 12) 8 ++ [0, byteN proto] ++ toBE 2 len
  else slice buf (start + 8) 32 ++ toBE 4 len ++ [0, 0, 0, byteN proto]

/-- The bytes from `a` to `b` of a frame, as far as it reaches, with the checksum at `a + o` taken as zero. -/
def l4Covered (buf : List Byte) (a b o : Nat) : List Byte := zeroAt ((buf.drop a).take (b - a)) o

/-- The nearest parsed IP header before entry `i` of the parser's stack: its kind and start (R272). -/
def oldIp (rs : RuleSet) (stack : List Hdr) (i : Nat) : Option (Nat × Nat) :=
  ((stack.take i).reverse.find? fun h => decide (kindOf rs h = 1 ∨ kindOf rs h = 2)).map fun h => (kindOf rs h, h.off)

/-- A computed UDP checksum of zero is sent as all ones (RFC 768). [log 55: DEDUCED] -/
def udpNonzero (kind v : Nat) : Nat := if kind = 3 ∧ v = 0 then 0xFFFF else v

/-- The checksum of one header set; `before` are the kinds and starts of the headers before it, nearest first.  That of a
parsed header goes on from the value that arrived. [log 54: PRESUMED] -/
def setChecksum (c : ActCtx) (buf : List Byte) (h : KHdr) (before : List KHdr) : List Byte :=
  let orig := c.ps.pkt.data
  if h.kind = 1 then
    let new := ip4Covered buf h.start
    match h.parsed with
    | none => splice buf (h.start + 10) (toBE 2 (checksum new))
    | some _ => splice buf (h.start + 10) (toBE 2 (checksumOn (beAt orig (h.ostart + 10) 2) (ip4Covered orig h.ostart) new))
  else if h.kind = 3 ∨ h.kind = 4 then
    let o := l4Off h.kind
    match before.find? fun k => decide (k.kind = 1 ∨ k.kind = 2) with
    | none => buf
    | some ip =>
      let ps := pseudoOf buf ip.kind ip.start h.kind (h.stop - h.start)
      let seg := l4Covered buf h.start h.stop o
      match h.parsed with
      | none =>
        if h.zeroCk then buf
        else splice buf (h.start + o) (toBE 2 (udpNonzero h.kind (checksum (ps ++ seg))))
      | some i =>
        let cur := beAt orig (h.ostart + o) 2
        let old := oldIp c.ps.rules c.ps.stack i
        let ops := match old with
          | some (k, a) => pseudoOf orig k a h.kind (h.ostop - h.ostart)
          | none => []
        let was := ops ++ l4Covered orig h.ostart h.ostop o
        let kept := h.kind = 3 ∧ (match old with | some (k, _) => decide (k = 1) | none => false) = true ∧ cur = 0
        splice buf (h.start + o) (toBE 2
          (if kept ∨ was = ps ++ seg then cur else udpNonzero h.kind (checksumOn cur was (ps ++ seg))))
  else buf

/-- The checksums from the last header to the first; the list is given last first. -/
def setChecksums (c : ActCtx) (buf : List Byte) : List KHdr → List Byte
  | [] => buf
  | h :: hs => setChecksums c (setChecksum c buf h hs) hs

/-- The stack of the rewritten frame as the inline cluster takes it: kind, start and length of each header (R396, R398). -/
def ActCtx.cipherStack (c : ActCtx) : List (Nat × Nat × Nat) :=
  (c.work.zip (startsOf c.work)).flatMap fun q =>
    match q.1.parsed with
    | some i => match c.ps.stack[i]? with
      | some h => [(kindOf c.ps.rules h, q.2, q.1.bytes.length)]
      | none => []
    | none =>
      match descsOf q.1.tmpl with
      | [] => [(0, q.2, q.1.bytes.length)]
      | d :: ds =>
        let cuts := (d :: ds).map (·.2)
        let ends := cuts.drop 1 ++ [q.1.bytes.length]
        (if d.2 = 0 then [] else [(0, q.2, d.2)]) ++
          ((d :: ds).zip (cuts.zip ends)).map fun x => (x.1.1, q.2 + x.2.1, x.2.2 - x.2.1)

/-- The frame as rewritten and repaired (R259 step 2). -/
def ActCtx.rewritten (c : ActCtx) : List Byte :=
  let starts := c.work.zip (startsOf c.work)
  let buf := c.work.flatMap (·.bytes) ++ c.ps.pkt.data.drop c.ps.pstart
  let buf := writeBack c starts buf (sortBy (fun a b => decide (a ≤ b)) c.written.eraseDups)
  let ks := khdrs c none (((c.ps.pad : Int) + c.growth).toNat) starts
  let buf := ks.foldl (portHash c.ps.pkt.hash) buf
  let buf := ks.foldl setLength buf
  setChecksums c buf ks.reverse

end Sys2Proof.Machine
end

