-- ==== Sys2Proof/Machine/Actions.lean ====
section
/-! DEFINITION. Action programs (R247 to R276): the nineteen instructions, the run of a program, its end. -/

namespace Sys2Proof.Machine

/-- What an instruction does: it may act on the device beside its context; it may meet an action fault, whose cause it
answers. -/
abbrev ActRun : Type := Dev × Except Nat ActCtx

/-- An instruction that acts on its context alone. -/
def pureAct (d : Dev) (c : Except Nat ActCtx) : ActRun := (d, c)

/-- Bits of an instruction word. -/
def iw (w lo len : Nat) : Nat := bitsOf w lo len

/-! ### Operands (R253 to R256) -/

/-- DST with NM1 names fields that an instruction may write (R254, R255). -/
def dstOk (dst nm1 : Nat) : Bool := decide (dst + nm1 ≤ 111) || (decide (dst = 139) && decide (nm1 = 0))

/-- The value a destination holds. -/
def ActCtx.dstGet (c : ActCtx) (dst : Nat) : Nat := if dst = 139 then c.ps.pkt.user else c.ps.fields.getD dst 0

/-- A destination written whole. -/
def ActCtx.dstPut (c : ActCtx) (dst v : Nat) : ActCtx :=
  if dst = 139 then { c with ps := { c.ps with pkt := { c.ps.pkt with user := v % p32 } } }
  else { c with ps := { c.ps with fields := c.ps.fields.set dst (v % p32) 0 }, written := c.written ++ [dst] }

/-- `v` in the bytes a mask selects, `old` in the others. -/
def byteMerge (old v mask : Nat) : Nat :=
  (rangeFrom 0 4).foldl (fun a i => if bitOf mask i then putBits a (8 * i) 8 (bitsOf v (8 * i) 8) else a) old

/-- Values written to successive destinations under a byte mask. -/
def ActCtx.writeRun (c : ActCtx) (dst mask : Nat) : List Nat → ActCtx
  | [] => c
  | v :: vs => (c.dstPut dst (byteMerge (c.dstGet dst) v mask)).writeRun (dst + 1) mask vs

/-- Parameter words from `k` on. -/
def ActCtx.paramRun (c : ActCtx) (k n : Nat) : List Nat := (c.params.drop k).take n

/-- An instruction whose operands are checked first (R253). -/
def guardOp (bad : Bool) (r : ActRun) (d : Dev) : ActRun := if bad then (d, .error 1) else r

/-! ### The instructions (R255) -/

/-- END (R252). -/
def actEnd (d : Dev) (_p : Nat) (c : ActCtx) (_w : Nat) : ActRun := pureAct d (.ok { c with recEnd := true })

/-- Operands of SET_FIELD are reserved. -/
def badSetField (w : Nat) : Bool :=
  if bitOf w 24 then decide (3 < iw w 20 2 + iw w 22 2) || !dstOk (iw w 8 8) (iw w 22 2) else !dstOk (iw w 8 8) 0

/-- SET_FIELD (R256). -/
def actSetField (d : Dev) (_p : Nat) (c : ActCtx) (w : Nat) : ActRun :=
  let vs := if bitOf w 24 then c.paramRun (iw w 20 2) (iw w 22 2 + 1) else [iw w 32 32]
  guardOp (badSetField w) (pureAct d (.ok (c.writeRun (iw w 8 8) (iw w 16 4) vs))) d

/-- Operands of ADD_FIELD are reserved. -/
def badAddField (w : Nat) : Bool := !dstOk (iw w 8 8) 0 || decide (iw w 16 2 = 3)

/-- The sum of ADD_FIELD in the low bits of a field, wrapped or clamped (R256). -/
def addField (old width imm : Nat) (sat : Bool) : Nat :=
  let m := 2 ^ (8 * 2 ^ width)
  let x := old % m
  let s : Int := (x : Int) + (if 2147483648 ≤ imm then (imm : Int) - 4294967296 else (imm : Int))
  let r := if sat then (if s < 0 then 0 else min s.toNat (m - 1)) else (s % (m : Int)).toNat
  old - x + r

/-- ADD_FIELD (R256). -/
def actAddField (d : Dev) (_p : Nat) (c : ActCtx) (w : Nat) : ActRun :=
  let dst := iw w 8 8
  guardOp (badAddField w)
    (pureAct d (.ok (c.dstPut dst (addField (c.dstGet dst) (iw w 16 2) (iw w 32 32) (bitOf w 18))))) d

/-- Operands of COPY_FIELD are reserved. -/
def badCopyField (w : Nat) : Bool := decide (147 < iw w 16 8 + iw w 28 2) || !dstOk (iw w 8 8) (iw w 28 2)

/-- COPY_FIELD (R256): every source is read before any destination is written. -/
def actCopyField (d : Dev) (_p : Nat) (c : ActCtx) (w : Nat) : ActRun :=
  let vs := (rangeFrom (iw w 16 8) (iw w 28 2 + 1)).map (srcWord c.ps)
  guardOp (badCopyField w) (pureAct d (.ok (c.writeRun (iw w 8 8) (iw w 24 4) vs))) d

/-- Operands of PUSH_HDR are reserved. -/
def badPush (w : Nat) : Bool := bitOf w 23 && decide (3 < iw w 30 2 + iw w 32 2)

/-- PUSH_HDR (R268). -/
def actPushHdr (d : Dev) (_p : Nat) (c : ActCtx) (w : Nat) : ActRun :=
  let patch := if bitOf w 23 then some ((c.paramRun (iw w 32 2) (iw w 30 2 + 1)).flatMap (toLE 4)) else none
  guardOp (badPush w) (pureAct d (c.push (iw w 8 8) (iw w 16 4) (bitOf w 20) patch (iw w 24 6))) d

/-- POP_HDR (R268). -/
def actPopHdr (d : Dev) (_p : Nat) (c : ActCtx) (w : Nat) : ActRun := pureAct d (c.pop (iw w 16 4) (iw w 20 2 + 1))

/-- Operands of SET_PORT are reserved. -/
def badSetPort (w : Nat) : Bool := decide (4 < iw w 8 3)

/-- SET_PORT (R257). -/
def actSetPort (d : Dev) (_p : Nat) (c : ActCtx) (w : Nat) : ActRun :=
  guardOp (badSetPort w) (pureAct d (.ok { c with dispo := some (.port (iw w 8 3)) })) d

/-- SET_QUEUE (R257). -/
def actSetQueue (d : Dev) (_p : Nat) (c : ActCtx) (w : Nat) : ActRun := pureAct d (.ok { c with queue := iw w 8 6 })

/-- Operands of TO_RING are reserved. -/
def badToRing (w : Nat) : Bool := bitOf w 8 && decide (2048 < iw w 32 12)

/-- TO_RING (R257, R238). -/
def actToRing (d : Dev) (_p : Nat) (c : ActCtx) (w : Nat) : ActRun :=
  let dest : Dispo := if bitOf w 8 then .spread ⟨iw w 44 1, iw w 32 12⟩ else .ring (iw w 16 16)
  guardOp (badToRing w) (pureAct d (.ok { c with dispo := some dest })) d

/-- Operands of MIRROR are reserved. [log 59: DEDUCED] -/
def badMirror (w : Nat) : Bool :=
  decide (4 < iw w 32 3) || (decide (iw w 48 16 ≠ 0) && (decide (iw w 48 16 < 64) || decide (16383 < iw w 48 16)))

/-- MIRROR (R260): the first two of a pass are kept, a further one is ignored and counted. -/
def actMirror (d : Dev) (p : Nat) (c : ActCtx) (w : Nat) : ActRun :=
  let m : MirrorReq := { rewritten := bitOf w 8, toPort := bitOf w 9, ring := iw w 16 16, port := iw w 32 3,
                         queue := iw w 40 6, trunc := iw w 48 16 }
  guardOp (badMirror w)
    (if 2 ≤ c.mirrors.length then (d.bump (actCount p 0x180), .ok c)
     else (d, .ok { c with mirrors := c.mirrors ++ [m] })) d

/-- The length metered or counted: as admitted, plus the net growth so far (R261, R262). -/
def ActCtx.lenNow (c : ActCtx) : Nat := ((c.ps.pkt.data.length : Int) + c.growth).toNat

/-- COUNT (R261). -/
def actCountOp (d : Dev) (p : Nat) (c : ActCtx) (w : Nat) : ActRun :=
  let i := if bitOf w 8 then (c.ref % 16777216 + iw w 16 24) % 16777216 else iw w 16 24
  let n := if bitOf w 9 then c.lenNow else c.ps.pkt.data.length
  if c.ps.cntLog = 0 ∨ 2 ^ c.ps.cntLog ≤ i then (d.bump (actCount p 0x180), .ok c)
  else
    let a := c.ps.cntBase + 16 * i
    let old := d.hbmRead a 16
    (d.hbmWrite a (toLE 8 (leAt old 0 8 + 1) ++ toLE 8 (leAt old 8 8 + n)), .ok c)

/-- Operands of GOVERN are reserved. -/
def badGovern (w : Nat) : Bool := decide (iw w 36 2 = 3) || decide (iw w 38 2 = 3)

/-- What a colour does: 0 passes, 1 is a governor drop, 2 requeues (R262). -/
def ActCtx.colourAct (c : ActCtx) (act queue : Nat) : ActCtx :=
  if act = 1 then { c with stop := some .govDrop } else if act = 2 then { c with queue := queue } else c

/-- GOVERN (R262, R366). -/
def actGovern (d : Dev) (_p : Nat) (c : ActCtx) (w : Nat) : ActRun :=
  let g := if bitOf w 8 then (c.ref % 1048576 + iw w 16 20) % 1048576 else iw w 16 20
  let inCol := if iw w 52 2 = 3 then c.colour else iw w 52 2
  guardOp (badGovern w)
    (let (d, col) := d.govern g inCol c.lenNow
     let c := { c with colour := col }
     (d, .ok (if col = 1 then c.colourAct (iw w 36 2) (iw w 40 6)
              else if col = 2 then c.colourAct (iw w 38 2) (iw w 46 6) else c))) d

/-- CIPHER (R257). -/
def actCipher (d : Dev) (_p : Nat) (c : ActCtx) (w : Nat) : ActRun := pureAct d (.ok { c with dispo := some (.cipher (iw w 8 21)) })

/-- Operands of INSPECT are reserved. -/
def badInspect (w : Nat) : Bool := !bitOf w 15 && decide (16384 < iw w 32 15)

/-- INSPECT (R263). -/
def actInspect (d : Dev) (_p : Nat) (c : ActCtx) (w : Nat) : ActRun :=
  let q : InspectReq :=
    if bitOf w 15 then { off := true }
    else { off := false, stream := bitOf w 14, set := iw w 8 6, offset := iw w 16 16, limit := iw w 32 15 }
  guardOp (badInspect w) (pureAct d (.ok { c with inspect := some q })) d

/-- LEARN (R264, R336). -/
def actLearn (d : Dev) (p : Nat) (c : ActCtx) (w : Nat) : ActRun :=
  let t := iw w 8 4
  let key := slice (buildKey c.ps (iw w 16 5)) 0 (d.tabCfg t).keyLen
  (d.learnEvent { table := t, source := 1, pipe := p, key := key, hash := c.ps.pkt.hash, ingress := c.ps.pkt.ingress },
    .ok c)

/-- LEAT (R257). -/
def actLeat (d : Dev) (_p : Nat) (c : ActCtx) (_w : Nat) : ActRun := pureAct d (.ok { c with dispo := some .leat })

/-- TO_CORE (R238, R257). -/
def actToCore (d : Dev) (_p : Nat) (c : ActCtx) (w : Nat) : ActRun :=
  pureAct d (.ok { c with dispo := some (.core (if bitOf w 8 then some (iw w 16 5) else none)) })

/-- DROP (R257). -/
def actDrop (d : Dev) (_p : Nat) (c : ActCtx) (_w : Nat) : ActRun := pureAct d (.ok { c with stop := some .drop })

/-- TIMESTAMP_ONE_STEP (R265). -/
def actOneStep (d : Dev) (_p : Nat) (c : ActCtx) (w : Nat) : ActRun :=
  pureAct d (.ok { c with stamps := c.stamps ++ [(bitOf w 8, if bitOf w 20 then none else some (iw w 16 4))] })

/-- The instruction an opcode names (R253, R255). -/
def actOp (d : Dev) (p : Nat) (c : ActCtx) (w : Nat) : ActRun :=
  match iw w 0 8 with
  | 0x00 => actEnd d p c w
  | 0x01 => actSetField d p c w
  | 0x02 => actAddField d p c w
  | 0x03 => actCopyField d p c w
  | 0x04 => actPushHdr d p c w
  | 0x05 => actPopHdr d p c w
  | 0x06 => actSetPort d p c w
  | 0x07 => actSetQueue d p c w
  | 0x08 => actToRing d p c w
  | 0x09 => actMirror d p c w
  | 0x0A => actCountOp d p c w
  | 0x0B => actGovern d p c w
  | 0x0C => actCipher d p c w
  | 0x0D => actInspect d p c w
  | 0x0E => actLearn d p c w
  | 0x0F => actLeat d p c w
  | 0x10 => actToCore d p c w
  | 0x11 => actDrop d p c w
  | 0x12 => actOneStep d p c w
  | _ => (d, .error 0)

/-- The context after an instruction: an action fault is counted and ends the program (R276). -/
def settleAct (p : Nat) (c : ActCtx) (r : ActRun) : Dev × ActCtx :=
  match r.2 with
  | .ok c' => (r.1, c')
  | .error k => ((r.1.bump (actCount p (0x140 + 8 * k))).raise .act p 2 8, { c with stop := some (.fault k) })

/-- The words of a record executed until END, a stop or the sixth (R252). -/
def runWords (d : Dev) (p : Nat) (c : ActCtx) : List Nat → Dev × ActCtx
  | [] => (d, c)
  | w :: ws =>
    if c.recEnd ∨ c.stop.isSome then (d, c)
    else
      let q := settleAct p c (actOp d p c w)
      runWords q.1 p q.2 ws

/-- The record an action index names, or the cause of the fault its read meets (R247, R251). -/
def readRecord (d : Dev) (p : Nat) (c : ActCtx) (a : ActRef) : Dev × Except Nat (List Byte) :=
  if a.index < 4096 then (d, .ok (c.ps.rules.entry 9 a.index))
  else if c.ps.hbmLog = 0 ∨ 2 ^ c.ps.hbmLog ≤ a.index then (d, .error 6)
  else
    let x := c.ps.hbmBase + 64 * a.index
    match d.eccOf x 64 with
    | 2 => (d, .error 5)
    | 1 => (d.bump (actCount p 0x198), .ok (d.hbmRead x 64))
    | _ => (d, .ok (d.hbmRead x 64))

/-- A record taken into the unit, `as` the records after it. -/
def ActCtx.takeRecord (c : ActCtx) (a : ActRef) (as : List ActRef) (rec_ : List Byte) : ActCtx :=
  { c with recEnd := false, ref := a.ref, prog := as, words := (rangeFrom 0 6).map fun i => leAt rec_ (8 * i) 8,
           params := (rangeFrom 0 4).map fun i => leAt rec_ (48 + 4 * i) 4 }

/-- The records of an action list executed in order (R252). -/
def runProgram (d : Dev) (p : Nat) (c : ActCtx) : List ActRef → Dev × ActCtx
  | [] => (d, c)
  | a :: as =>
    if c.stop.isSome then (d, c)
    else
      let (d, r) := readRecord d p c a
      match r with
      | .error k =>
        let q := settleAct p c (d, .error k)
        runProgram q.1 p q.2 as
      | .ok rec_ =>
        let c := c.takeRecord a as rec_
        let q := runWords d p c c.words
        runProgram q.1 p q.2 as

/-! ### The end of a program (R259) -/

/-- The context a pass's program starts in. -/
def startCtx (ps : Pass) : ActCtx := { ps := ps, work := workOf ps.pkt.data ps.pstart 0 ps.stack }

/-- A mirror copy asked for (R260). -/
def Dev.makeMirror (d : Dev) (p : Nat) (pkt : Pkt) (new : List Byte) (m : MirrorReq) : Dev :=
  let fr := if m.rewritten then new else pkt.data
  let fr := if m.trunc = 0 then fr else fr.take m.trunc
  d.mirrorCopy p pkt fr m.toPort m.ring m.port m.queue fun d => (d.bump (actCount p 0x190)).countDrop 10

/-- The nearest UDP header of the final stack whose extent covers offset `x`: its start, and whether the IP header nearest
before it is IPv4 (R108, R271). [log 88: DEDUCED] -/
def ActCtx.udpOver (c : ActCtx) (x : Nat) : Option (Nat × Bool) :=
  let ks := (khdrs c none (((c.ps.pad : Int) + c.growth).toNat) (c.work.zip (startsOf c.work))).reverse
  match ks.find? fun k => decide (k.kind = 3 ∧ k.start + 8 ≤ x ∧ x < k.stop) with
  | some u => (ks.find? fun k => decide ((k.kind = 1 ∨ k.kind = 2) ∧ k.start < u.start)).map fun ip => (u.start, decide (ip.kind = 1))
  | none => none

/-- The position a one-step mark names in the final frame; none where it names no entry (R265). -/
def ActCtx.stampPos (c : ActCtx) (s : Bool × Option Nat) : Option OneStep :=
  let at_ (x : Nat) : OneStep := { correction := s.1, pos := x, udp := c.udpOver x }
  match s.2 with
  | none => some (at_ (c.work.foldl (fun a w => a + w.bytes.length) 0))
  | some k => ((startsOf c.work)[k]?).map at_

/-- The mark that acts: of several, the last one that names an entry (R108, R265). [log 210: DESIGN CHOICE] -/
def ActCtx.oneStep (c : ActCtx) : Option OneStep := (c.stamps.filterMap c.stampPos).getLast?

/-- The ring a spread to a function names (R238). -/
def Dev.spreadRing (d : Dev) (f : Func) (ps : Pass) : Option Nat :=
  d.ringOfLocal f (d.indAt (fkey f * 4096 + foldHash ps.pkt.hash) ps.admitted)

/-- A delivery to a ring that a program chose; a ring not of kind RX drops the pass (R258). -/
def Dev.actRing (d : Dev) (p : Nat) (r : Option Nat) (pkt : Pkt) : Dev :=
  match r with
  | some r => if d.ringKind r = 2 then d.toRx r pkt else (d.bump (actCount p 0x190)).dropPkt pkt 10
  | none => (d.bump (actCount p 0x190)).dropPkt pkt 10

/-- A pass ending counted by its disposition (R275). -/
def Dev.countDisp (d : Dev) (p k : Nat) : Dev := d.bump (actCount p (0x100 + 8 * k))

/-- The rewritten frame on its way (R257): `pkt` holds it, with its cells charged anew. -/
def Dev.dispose (d : Dev) (p : Nat) (c : ActCtx) (pkt : Pkt) : Dev :=
  match c.dispo with
  | some (.port n) => (d.countDisp p 0).enqueue n c.queue { pkt with oneStep := c.oneStep }
  | some (.ring r) => (d.countDisp p 1).actRing p (some r) pkt
  | some (.spread f) => let d := d.countDisp p 1; d.actRing p (d.spreadRing f c.ps) pkt
  | some (.core n) => (d.countDisp p 2).toFoldCore pkt c.ps.admitted n
  | some .leat =>
    let d := d.countDisp p 3
    let q := d.pipe p
    d.setPipe p { q with leats := q.leats ++ [{ pkt with inspect := c.inspect }] }
  | some (.cipher sa) => (d.countDisp p 4).toInline
      { pipe := p, sa := sa, pkt := { pkt with inspect := c.inspect }, rules := c.ps.rules, admitted := c.ps.admitted,
        stack := c.cipherStack, pstart := c.work.foldl (fun a w => a + w.bytes.length) 0,
        pad := ((c.ps.pad : Int) + c.growth).toNat }
  | none =>
    let dd := leAt (portRecord c.ps.rules pkt.ingress) 4 4
    let d := d.countDisp p 6
    if bitOf dd 31 then
      d.enqueue (bitsOf dd 0 3) (bitsOf dd 8 6) { pkt with oneStep := c.oneStep }
    else d.actRing p (some (bitsOf dd 0 16)) pkt

/-- A fourth pass asks for the leat or the cipher (R273). -/
def ActCtx.leatLimit (c : ActCtx) : Bool :=
  decide (4 ≤ c.ps.pkt.pass) && (match c.dispo with | some .leat => true | some (.cipher _) => true | _ => false)

/-- The end of a program (R259). -/
def Dev.programEnd (d : Dev) (p : Nat) (c : ActCtx) : Dev :=
  let pkt := c.ps.pkt
  match c.stop with
  | some (.fault _) => (d.freeSpare pkt).dropPkt pkt 5
  | _ =>
    let new := c.rewritten
    let d := c.mirrors.foldl (fun d m => d.makeMirror p pkt new m) d
    let d := c.stamps.foldl (fun d s => if (c.stampPos s).isNone then d.bump (actCount p 0x180) else d) d
    match c.stop with
    | some .govDrop => ((d.freeSpare pkt).countDisp p 5).dropPkt pkt 4
    | some _ => ((d.freeSpare pkt).countDisp p 5).dropPkt pkt 3
    | none =>
      if c.leatLimit then d.endDefault p c.ps 8
      else
        let (d, pkt) := (d.freeSpare pkt).recharge pkt (cellsFor new.length)
        d.dispose p c { pkt with data := new, inspect := none, oneStep := none }

/-! ### The program of the pass in the unit, an instruction at a time -/

/-- A pass whose next word holds a reserved opcode: the fault that it is (R253, R276). -/
def opcodeFault (d : Dev) (p : Nat) (c : ActCtx) : Dev × ActCtx :=
  match c.words with
  | w :: _ => if 0x12 < iw w 0 8 then settleAct p c (d, .error 0) else (d, c)
  | [] => (d, c)

/-- What follows an instruction (R252): the next word of the record, or the next record once the record is at its end.  A
program that is at its end is left without words. -/
def actNext (d : Dev) (p : Nat) (c : ActCtx) : Dev × ActCtx :=
  if c.stop.isSome then (d, c)
  else if !c.recEnd && c.words ≠ [] then opcodeFault d p c
  else match c.prog with
    | [] => (d, { c with words := [] })
    | a :: as =>
      let (d, r) := readRecord d p c a
      match r with
      | .error k => settleAct p c (d, .error k)
      | .ok rec_ => opcodeFault d p (c.takeRecord a as rec_)

/-- The context of the unit after an instruction, or the end of its program. -/
def Dev.actPut (d : Dev) (p : Nat) (c : ActCtx) : Dev :=
  if c.stop.isSome || c.words = [] then
    let d := d.programEnd p c
    d.setPipe p { d.pipe p with act := {} }
  else d.setPipe p { d.pipe p with act := c }

/-- An instruction has left the context `c`: what follows it (R252). -/
def Dev.actThen (d : Dev) (p : Nat) (c : ActCtx) : Dev :=
  let q := actNext d p c
  q.1.actPut p q.2

/-- A pass taken into the action unit, with the first record of its program (R252). -/
def Dev.actUnit (d : Dev) (p : Nat) (ps : Pass) : Dev := d.actThen p { startCtx ps with prog := ps.list }

/-- The program in a pipeline's action unit run to its end (R252, R277). [log 187: DESIGN CHOICE] -/
def Dev.actFinish (d : Dev) (p : Nat) : Dev :=
  let c := (d.pipe p).act
  if c.ps.pkt.id = 0 then d
  else
    let q := runWords d p c c.words
    let q := runProgram q.1 p q.2 c.prog
    q.1.actPut p { q.2 with words := [] }

/-! ### The commands -/

/-- One instruction of a pipeline's action unit (R252): the word `w` of opcode `op`, where it is the next of the program in
the unit. [log 187: DESIGN CHOICE] -/
def Dev.actRow (d : Dev) (p op : Nat) (f : Dev → Nat → ActCtx → Nat → ActRun) (w : BitVec 64) : Dev :=
  let c := (d.pipe p).act
  if c.words.head? = some w.toNat ∧ iw w.toNat 0 8 = op then
    let q := settleAct p c (f d p { c with words := c.words.drop 1 } w.toNat)
    q.1.actThen p q.2
  else d

/-- END (R252). -/
def execEndRecord (p : Nat) (w : BitVec 64) (s : State) : Host.Outcome State Fault Refusal := s.act fun d => d.actRow p 0x00 actEnd w

/-- SET_FIELD (R256). -/
def execSetField (p : Nat) (w : BitVec 64) (s : State) : Host.Outcome State Fault Refusal := s.act fun d => d.actRow p 0x01 actSetField w

/-- ADD_FIELD (R256). -/
def execAddField (p : Nat) (w : BitVec 64) (s : State) : Host.Outcome State Fault Refusal := s.act fun d => d.actRow p 0x02 actAddField w

/-- COPY_FIELD (R256). -/
def execCopyField (p : Nat) (w : BitVec 64) (s : State) : Host.Outcome State Fault Refusal := s.act fun d => d.actRow p 0x03 actCopyField w

/-- PUSH_HDR (R268). -/
def execPushHdr (p : Nat) (w : BitVec 64) (s : State) : Host.Outcome State Fault Refusal := s.act fun d => d.actRow p 0x04 actPushHdr w

/-- POP_HDR (R268). -/
def execPopHdr (p : Nat) (w : BitVec 64) (s : State) : Host.Outcome State Fault Refusal := s.act fun d => d.actRow p 0x05 actPopHdr w

/-- SET_PORT (R257). -/
def execSetPort (p : Nat) (w : BitVec 64) (s : State) : Host.Outcome State Fault Refusal := s.act fun d => d.actRow p 0x06 actSetPort w

/-- SET_QUEUE (R257). -/
def execSetQueue (p : Nat) (w : BitVec 64) (s : State) : Host.Outcome State Fault Refusal := s.act fun d => d.actRow p 0x07 actSetQueue w

/-- TO_RING (R257, R258). -/
def execToRing (p : Nat) (w : BitVec 64) (s : State) : Host.Outcome State Fault Refusal := s.act fun d => d.actRow p 0x08 actToRing w

/-- MIRROR (R260). -/
def execMirror (p : Nat) (w : BitVec 64) (s : State) : Host.Outcome State Fault Refusal := s.act fun d => d.actRow p 0x09 actMirror w

/-- COUNT (R261). -/
def execCount (p : Nat) (w : BitVec 64) (s : State) : Host.Outcome State Fault Refusal := s.act fun d => d.actRow p 0x0A actCountOp w

/-- GOVERN (R366). -/
def execGovern (p : Nat) (w : BitVec 64) (s : State) : Host.Outcome State Fault Refusal := s.act fun d => d.actRow p 0x0B actGovern w

/-- CIPHER (R257). -/
def execCipher (p : Nat) (w : BitVec 64) (s : State) : Host.Outcome State Fault Refusal := s.act fun d => d.actRow p 0x0C actCipher w

/-- INSPECT (R263). -/
def execInspect (p : Nat) (w : BitVec 64) (s : State) : Host.Outcome State Fault Refusal := s.act fun d => d.actRow p 0x0D actInspect w

/-- LEARN (R264). -/
def execLearn (p : Nat) (w : BitVec 64) (s : State) : Host.Outcome State Fault Refusal := s.act fun d => d.actRow p 0x0E actLearn w

/-- LEAT (R274). -/
def execLeat (p : Nat) (w : BitVec 64) (s : State) : Host.Outcome State Fault Refusal := s.act fun d => d.actRow p 0x0F actLeat w

/-- TO_CORE (R238). -/
def execToCore (p : Nat) (w : BitVec 64) (s : State) : Host.Outcome State Fault Refusal := s.act fun d => d.actRow p 0x10 actToCore w

/-- DROP (R257). -/
def execDrop (p : Nat) (w : BitVec 64) (s : State) : Host.Outcome State Fault Refusal := s.act fun d => d.actRow p 0x11 actDrop w

/-- TIMESTAMP_ONE_STEP (R265). -/
def execTimestampOneStep (p : Nat) (w : BitVec 64) (s : State) : Host.Outcome State Fault Refusal := s.act fun d => d.actRow p 0x12 actOneStep w

end Sys2Proof.Machine
end

