-- ==== Sys2Proof/Machine/Crypto.lean ====
section
/-! DEFINITION. The algorithms of R388, which the manual names by their standards: AES (FIPS 197) with GCM and GMAC (SP
800-38D), XTS (IEEE 1619), CTR and CBC (SP 800-38A) and CMAC (SP 800-38B), ChaCha20-Poly1305 (RFC 8439), SHA-2 (FIPS
180-4), SHA-3 (FIPS 202), HMAC (FIPS 198-1).  PRESUMED from those standards; masking (R422) changes no output. -/

namespace Sys2Proof.Machine

/-- Bytewise exclusive or, as long as the shorter. -/
def xorBytes (a b : List Byte) : List Byte := List.zipWith (fun x y => x ^^^ y) a b

/-- A byte string cut into blocks of `n` bytes, the last one short. -/
def blocksOf (n : Nat) : Nat → List Byte → List (List Byte)
  | 0, _ => []
  | k + 1, bs => if bs = [] then [] else bs.take n :: blocksOf n k (bs.drop n)

/-- The blocks of 16 bytes of a byte string. -/
def blocks16 (bs : List Byte) : List (List Byte) := blocksOf 16 (ceilDiv bs.length 16) bs

/-! ### AES -/

/-- Multiplication by x in GF(2^8). -/
def xtime (a : Nat) : Nat := if 128 ≤ a then ((a * 2) % 256) ^^^ 0x1B else a * 2

/-- Multiplication in GF(2^8), low `n` bits of `b`. -/
def gmulN (a b : Nat) : Nat → Nat
  | 0 => 0
  | n + 1 => (if b % 2 = 1 then a else 0) ^^^ gmulN (xtime a) (b / 2) n

/-- Multiplication in GF(2^8). -/
def gmul (a b : Nat) : Nat := gmulN a b 8

/-- The inverse in GF(2^8): the 254th power. -/
def ginv (a : Nat) : Nat :=
  let a2 := gmul a a
  let a3 := gmul a2 a
  let a6 := gmul a3 a3
  let a12 := gmul a6 a6
  let a15 := gmul a12 a3
  let a30 := gmul a15 a15
  let a60 := gmul a30 a30
  let a120 := gmul a60 a60
  let a126 := gmul a120 a6
  let a127 := gmul a126 a
  gmul a127 a127

/-- A byte rotated left by `n`. -/
def rotl8 (a n : Nat) : Nat := (a * 2 ^ n) % 256 + a / 2 ^ (8 - n)

/-- The S-box of AES. -/
def sbox (a : Nat) : Nat :=
  let b := ginv a
  b ^^^ rotl8 b 1 ^^^ rotl8 b 2 ^^^ rotl8 b 3 ^^^ rotl8 b 4 ^^^ 0x63

/-- The inverse S-box of AES. -/
def invSbox (a : Nat) : Nat := ginv (rotl8 a 1 ^^^ rotl8 a 3 ^^^ rotl8 a 6 ^^^ 0x05)

/-- One word of the key schedule after `w`, the words so far newest first; `i` its number, `nk` the words of the key. -/
def nextWord (nk i rcon : Nat) (w : List (List Nat)) : List Nat :=
  let prev := w.headD []
  let back := (w[nk - 1]?).getD []
  let t :=
    if i % nk = 0 then
      match prev with
      | [a, b, c, e] => [sbox b ^^^ rcon, sbox c, sbox e, sbox a]
      | x => x
    else if 6 < nk ∧ i % nk = 4 then prev.map sbox
    else prev
  List.zipWith (fun x y => x ^^^ y) back t

/-- The key schedule, newest word first. -/
def expandKey (nk : Nat) : Nat → Nat → Nat → List (List Nat) → List (List Nat)
  | 0, _, _, w => w
  | n + 1, i, rcon, w =>
    let w' := nextWord nk i rcon w :: w
    expandKey nk n (i + 1) (if i % nk = 0 then xtime rcon else rcon) w'

/-- Words of 4 bytes of a key. -/
def keyWords (key : List Byte) : List (List Nat) := (blocksOf 4 (key.length / 4) key).map fun b => b.map (·.toNat)

/-- The round keys of AES. -/
def roundKeys (key : List Byte) : List (List Nat) :=
  let nk := key.length / 4
  let nr := nk + 6
  let w := (expandKey nk (4 * (nr + 1) - nk) nk 1 (keyWords key).reverse).reverse
  (rangeFrom 0 (nr + 1)).map fun r => ((w.drop (4 * r)).take 4).flatMap id

/-- A round key added. -/
def addKey (s k : List Nat) : List Nat := List.zipWith (fun x y => x ^^^ y) s k

/-- The bytes of a state taken from the places `(i * step) mod 16`. -/
def permute (step : Nat) (s : List Nat) : List Nat := (rangeFrom 0 16).map fun i => (s[i * step % 16]?).getD 0

/-- MixColumns with the coefficients of a column. -/
def mixCols (a b c e : Nat) (s : List Nat) : List Nat :=
  (rangeFrom 0 4).flatMap fun col =>
    let x := (rangeFrom 0 4).map fun i => (s[4 * col + i]?).getD 0
    (rangeFrom 0 4).map fun i =>
      let g := fun k => (x[(i + k) % 4]?).getD 0
      gmul a (g 0) ^^^ gmul b (g 1) ^^^ gmul c (g 2) ^^^ gmul e (g 3)

/-- The rounds of AES after the first key addition. -/
def aesRounds : List (List Nat) → List Nat → List Nat
  | [], s => s
  | [k], s => addKey (permute 5 (s.map sbox)) k
  | k :: ks, s => aesRounds ks (addKey (mixCols 2 3 1 1 (permute 5 (s.map sbox))) k)

/-- The rounds of AES decryption, the round keys from the last but one down. -/
def aesInvRounds : List (List Nat) → List Nat → List Nat
  | [], s => s
  | [k], s => addKey ((permute 13 s).map invSbox) k
  | k :: ks, s => aesInvRounds ks (mixCols 14 11 13 9 (addKey ((permute 13 s).map invSbox) k))

/-- AES encryption of one block under round keys. -/
def aesEncK (rk : List (List Nat)) (b : List Byte) : List Byte :=
  (aesRounds (rk.drop 1) (addKey (b.map (·.toNat)) (rk.headD []))).map byteN

/-- AES decryption of one block under round keys. -/
def aesDecK (rk : List (List Nat)) (b : List Byte) : List Byte :=
  let r := rk.reverse
  (aesInvRounds (r.drop 1) (addKey (b.map (·.toNat)) (r.headD []))).map byteN

/-- AES encryption of one block. [log 94: PRESUMED] -/
def aesEnc (key b : List Byte) : List Byte := aesEncK (roundKeys key) b

/-! ### Modes of AES -/

/-- A key stream of `n` blocks from a counter block on, `bits` low bits of which count. -/
def ctrStream (rk : List (List Nat)) (bits ctr : Nat) : Nat → List Byte
  | 0 => []
  | n + 1 => aesEncK rk (toBE 16 ctr) ++ ctrStream rk bits (ctr / 2 ^ bits * 2 ^ bits + (ctr + 1) % 2 ^ bits) n

/-- CTR with a 128-bit big-endian counter (R388). -/
def aesCtr (key iv data : List Byte) : List Byte :=
  xorBytes data (ctrStream (roundKeys key) 128 (beNat iv) (ceilDiv data.length 16))

/-- Multiplication in the field of GHASH: `n` bits of `x` from the most significant. -/
def ghashMulN (x : Nat) : Nat → Nat → Nat → Nat
  | 0, _, z => z
  | n + 1, v, z =>
    let z := if bitOf x n then z ^^^ v else z
    ghashMulN x n (if v % 2 = 1 then v / 2 ^^^ 0xE1 * 2 ^ 120 else v / 2) z

/-- GHASH of blocks. -/
def ghash (h : Nat) (bs : List (List Byte)) : Nat :=
  bs.foldl (fun y b => ghashMulN (y ^^^ beNat (slice b 0 16)) 128 h 0) 0

/-- The tag of GCM over AAD and ciphertext. -/
def gcmTag (key nonce aad ct : List Byte) : List Byte :=
  let rk := roundKeys key
  let h := beNat (aesEncK rk (zeros 16))
  let s := ghash h (blocks16 aad ++ blocks16 ct ++ [toBE 8 (8 * aad.length) ++ toBE 8 (8 * ct.length)])
  xorBytes (toBE 16 s) (aesEncK rk (nonce.take 12 ++ [0, 0, 0, 1]))

/-- The key stream of GCM applied. -/
def gcmCrypt (key nonce data : List Byte) : List Byte :=
  xorBytes data (ctrStream (roundKeys key) 32 (beNat (nonce.take 12 ++ [0, 0, 0, 2])) (ceilDiv data.length 16))

/-- CBC encryption of whole blocks. -/
def cbcEnc (rk : List (List Nat)) (iv : List Byte) : List (List Byte) → List Byte
  | [] => []
  | b :: bs => let c := aesEncK rk (xorBytes b iv); c ++ cbcEnc rk c bs

/-- CBC decryption of whole blocks. -/
def cbcDec (rk : List (List Nat)) (iv : List Byte) : List (List Byte) → List Byte
  | [] => []
  | b :: bs => xorBytes (aesDecK rk b) iv ++ cbcDec rk b bs

/-- PKCS#7 padding (R389). -/
def pkcs7 (bs : List Byte) : List Byte :=
  let n := 16 - bs.length % 16
  bs ++ List.replicate n (byteN n)

/-- PKCS#7 padding checked and removed. -/
def unpkcs7 (bs : List Byte) : Option (List Byte) :=
  let n := ((bs.getLast?).getD 0).toNat
  if bs.length % 16 = 0 ∧ 1 ≤ n ∧ n ≤ 16 ∧ n ≤ bs.length ∧ bs.drop (bs.length - n) = List.replicate n (byteN n) then
    some (bs.take (bs.length - n))
  else none

/-- Doubling of a block in GF(2^128), most significant bit first (CMAC). -/
def dbl (b : List Byte) : List Byte :=
  let v := beNat b
  toBE 16 ((v * 2) % 2 ^ 128 ^^^ (if 2 ^ 127 ≤ v then 0x87 else 0))

/-- AES-CMAC. -/
def cmac (key data : List Byte) : List Byte :=
  let rk := roundKeys key
  let k1 := dbl (aesEncK rk (zeros 16))
  let n := (data.length - 1) / 16 * 16
  let last := data.drop n
  let last := if last.length = 16 then xorBytes last k1 else xorBytes (slice (last ++ [0x80]) 0 16) (dbl k1)
  let x := (blocks16 (data.take n)).foldl (fun x b => aesEncK rk (xorBytes b x)) (zeros 16)
  aesEncK rk (xorBytes last x)

/-- The next tweak of XTS: multiplication by x, least significant byte first. -/
def xtsNext (t : List Byte) : List Byte :=
  let v := leNat t
  toLE 16 ((v * 2) % 2 ^ 128 ^^^ (if 2 ^ 127 ≤ v then 0x87 else 0))

/-- One block of XTS. -/
def xtsBlock (enc : Bool) (rk : List (List Nat)) (t b : List Byte) : List Byte :=
  xorBytes ((if enc then aesEncK rk else aesDecK rk) (xorBytes b t)) t

/-- XTS over a data unit, with ciphertext stealing at its end. -/
def xtsRun (enc : Bool) (rk : List (List Nat)) (t : List Byte) : List (List Byte) → List Byte
  | [] => []
  | [a] => xtsBlock enc rk t a
  | [a, b] =>
    if b.length = 16 then xtsBlock enc rk t a ++ xtsBlock enc rk (xtsNext t) b
    else
      let t1 := if enc then t else xtsNext t
      let t2 := if enc then xtsNext t else t
      let x := xtsBlock enc rk t1 a
      xtsBlock enc rk t2 (b ++ x.drop b.length) ++ x.take b.length
  | a :: r => xtsBlock enc rk t a ++ xtsRun enc rk (xtsNext t) r

/-- AES-XTS: the key is the data key followed by the tweak key. -/
def xts (enc : Bool) (key tweak data : List Byte) : List Byte :=
  let n := key.length / 2
  xtsRun enc (roundKeys (key.take n)) (aesEnc (key.drop n) tweak) (blocks16 data)

/-! ### ChaCha20-Poly1305 -/

/-- A 32-bit word rotated left. -/
def rotl32 (a n : Nat) : Nat := (a * 2 ^ n) % p32 + a / 2 ^ (32 - n)

/-- The quarter round on words `a`, `b`, `c`, `e` of a state. -/
def quarter (s : Array Nat) (ia ib ic ie : Nat) : Array Nat :=
  let a := (s.getD ia 0 + s.getD ib 0) % p32
  let e := rotl32 (s.getD ie 0 ^^^ a) 16
  let c := (s.getD ic 0 + e) % p32
  let b := rotl32 (s.getD ib 0 ^^^ c) 12
  let a := (a + b) % p32
  let e := rotl32 (e ^^^ a) 8
  let c := (c + e) % p32
  let b := rotl32 (b ^^^ c) 7
  (((s.setIfInBounds ia a).setIfInBounds ib b).setIfInBounds ic c).setIfInBounds ie e

/-- A double round. -/
def doubleRound (s : Array Nat) : Array Nat :=
  let s := quarter (quarter (quarter (quarter s 0 4 8 12) 1 5 9 13) 2 6 10 14) 3 7 11 15
  quarter (quarter (quarter (quarter s 0 5 10 15) 1 6 11 12) 2 7 8 13) 3 4 9 14

/-- Little-endian words of 4 bytes. -/
def leWords (bs : List Byte) : List Nat := (blocksOf 4 (ceilDiv bs.length 4) bs).map leNat

/-- A ChaCha20 block. -/
def chachaBlock (key nonce : List Byte) (ctr : Nat) : List Byte :=
  let s := [0x61707865, 0x3320646E, 0x79622D32, 0x6B206574] ++ leWords key ++ [ctr] ++ leWords nonce
  let x := (rangeFrom 0 10).foldl (fun a _ => doubleRound a) s.toArray
  (List.zipWith (fun a b => toLE 4 ((a + b) % p32)) x.toList s).flatMap id

/-- The ChaCha20 key stream of `n` blocks from counter `i`. -/
def chachaStream (key nonce : List Byte) (i : Nat) : Nat → List Byte
  | 0 => []
  | n + 1 => chachaBlock key nonce i ++ chachaStream key nonce (i + 1) n

/-- The ChaCha20 key stream applied from counter 1. -/
def chachaCrypt (key nonce data : List Byte) : List Byte :=
  xorBytes data (chachaStream key nonce 1 (ceilDiv data.length 64))

/-- Poly1305 under a one-time key. -/
def poly1305 (otk data : List Byte) : List Byte :=
  let r := leNat (otk.take 16) &&& 0x0FFFFFFC0FFFFFFC0FFFFFFC0FFFFFFF
  let acc := (blocks16 data).foldl (fun a b => (a + leNat b + 2 ^ (8 * b.length)) * r % (2 ^ 130 - 5)) 0
  toLE 16 ((acc + leNat ((otk.drop 16).take 16)) % 2 ^ 128)

/-- The tag of ChaCha20-Poly1305. -/
def chachaTag (key nonce aad ct : List Byte) : List Byte :=
  let pad := fun (b : List Byte) => zeros (roundUp b.length 16 - b.length)
  poly1305 ((chachaBlock key nonce 0).take 32) (aad ++ pad aad ++ ct ++ pad ct ++ toLE 8 aad.length ++ toLE 8 ct.length)

/-! ### SHA-2 and SHA-3 -/

/-- The first 80 primes. -/
def primes80 : List Nat :=
  [2, 3, 5, 7, 11, 13, 17, 19, 23, 29, 31, 37, 41, 43, 47, 53, 59, 61, 67, 71] ++
  [73, 79, 83, 89, 97, 101, 103, 107, 109, 113, 127, 131, 137, 139, 149, 151, 157, 163, 167, 173] ++
  [179, 181, 191, 193, 197, 199, 211, 223, 227, 229, 233, 239, 241, 251, 257, 263, 269, 271, 277, 281] ++
  [283, 293, 307, 311, 313, 317, 331, 337, 347, 349, 353, 359, 367, 373, 379, 383, 389, 397, 401, 409]

/-- The greatest `r` below `2^n` added to `acc` whose `k`-th power is at most `v`. -/
def rootBits (k v : Nat) : Nat → Nat → Nat
  | 0, acc => acc
  | n + 1, acc => rootBits k v n (if (acc + 2 ^ n) ^ k ≤ v then acc + 2 ^ n else acc)

/-- The first `w` bits of the fraction of the `k`-th root of `p`. -/
def rootFrac (k w p : Nat) : Nat := rootBits k (p * 2 ^ (k * w)) (w + 5) 0 % 2 ^ w

/-- A word of `w` bits rotated right. -/
def rotr (w a n : Nat) : Nat := a / 2 ^ n + (a * 2 ^ (w - n)) % 2 ^ w

/-- The constants of one of the two SHA-2 functions: word size, rounds, rotations of Sigma0, Sigma1, sigma0, sigma1
(the last of the small ones a shift). -/
structure Sha2 where
  w : Nat
  rounds : Nat
  s0 : Nat × Nat × Nat
  s1 : Nat × Nat × Nat
  t0 : Nat × Nat × Nat
  t1 : Nat × Nat × Nat

/-- SHA-256. -/
def sha256P : Sha2 := ⟨32, 64, (2, 13, 22), (6, 11, 25), (7, 18, 3), (17, 19, 10)⟩

/-- SHA-512. -/
def sha512P : Sha2 := ⟨64, 80, (28, 34, 39), (14, 18, 41), (1, 8, 7), (19, 61, 6)⟩

/-- A Sigma function. -/
def bigS (p : Sha2) (r : Nat × Nat × Nat) (x : Nat) : Nat := rotr p.w x r.1 ^^^ rotr p.w x r.2.1 ^^^ rotr p.w x r.2.2

/-- A sigma function. -/
def smallS (p : Sha2) (r : Nat × Nat × Nat) (x : Nat) : Nat := rotr p.w x r.1 ^^^ rotr p.w x r.2.1 ^^^ x / 2 ^ r.2.2

/-- The message schedule, newest word first, `n` words still to make. -/
def schedule (p : Sha2) : Nat → List Nat → List Nat
  | 0, w => w
  | n + 1, w =>
    let g := fun i => (w[i]?).getD 0
    schedule p n ((smallS p p.t1 (g 1) + g 6 + smallS p p.t0 (g 14) + g 15) % 2 ^ p.w :: w)

/-- The rounds over pairs of round constant and schedule word. -/
def shaRounds (p : Sha2) : List (Nat × Nat) → List Nat → List Nat
  | [], s => s
  | (k, w) :: r, s =>
    match s with
    | [a, b, c, e, f, g, h, i] =>
      let m := 2 ^ p.w
      let ch := (f &&& g) ^^^ ((m - 1 - f) &&& h)
      let t1 := i + bigS p p.s1 f + ch + k + w
      let mj := (a &&& b) ^^^ (a &&& c) ^^^ (b &&& c)
      shaRounds p r [(t1 + bigS p p.s0 a + mj) % m, a, b, c, (e + t1) % m, f, g, h]
    | x => x

/-- A SHA-2 digest of all 8 words. -/
def sha2 (p : Sha2) (data : List Byte) : List Byte :=
  let bw := p.w / 8
  let blk := 16 * bw
  let z := (2 * blk - (data.length + 1 + 2 * bw) % blk) % blk
  let msg := data ++ [0x80] ++ zeros z ++ toBE (2 * bw) (8 * data.length)
  let ks := (primes80.take p.rounds).map (rootFrac 3 p.w)
  let h0 := (primes80.take 8).map (rootFrac 2 p.w)
  let h := (blocksOf blk (msg.length / blk) msg).foldl (fun h b =>
    let w := (schedule p (p.rounds - 16) (((blocksOf bw 16 b).map beNat).reverse)).reverse
    List.zipWith (fun x y => (x + y) % 2 ^ p.w) h (shaRounds p (ks.zip w) h)) h0
  h.flatMap (toBE bw)

/-- SHA-256. -/
def sha256 (data : List Byte) : List Byte := sha2 sha256P data

/-- SHA-512. -/
def sha512 (data : List Byte) : List Byte := sha2 sha512P data

/-- A 64-bit lane rotated left. -/
def rotl64 (a n : Nat) : Nat := (a * 2 ^ (n % 64)) % p64 + a / 2 ^ (64 - n % 64)

/-- The LFSR of the Keccak round constants: the constant of a round and the LFSR after it. -/
def keccakRc : Nat → Nat → Nat → Nat × Nat
  | 0, l, rc => (rc, l)
  | n + 1, l, rc =>
    let j := 6 - n
    let rc := if l % 2 = 1 then rc ^^^ 2 ^ (2 ^ j - 1) else rc
    keccakRc n ((if 128 ≤ l then ((l * 2) % 256) ^^^ 0x71 else l * 2)) rc

/-- The moves of rho and pi: `(x, y)`, the rotation of step `t`, the lane held. -/
def rhoPi : Nat → Nat → Nat → Nat → Nat → Array Nat → Array Nat
  | 0, _, _, _, _, a => a
  | n + 1, t, x, y, cur, a =>
    let x' := y
    let y' := (2 * x + 3 * y) % 5
    rhoPi n (t + 1) x' y' (a.getD (x' + 5 * y') 0) (a.setIfInBounds (x' + 5 * y') (rotl64 cur ((t + 1) * (t + 2) / 2)))

/-- One round of Keccak-f[1600]. -/
def keccakRound (rc : Nat) (a : Array Nat) : Array Nat :=
  let c := fun x => (rangeFrom 0 5).foldl (fun v y => v ^^^ a.getD (x % 5 + 5 * y) 0) 0
  let th := ((rangeFrom 0 25).map fun i => a.getD i 0 ^^^ c (i % 5 + 4) ^^^ rotl64 (c (i % 5 + 1)) 1).toArray
  let b := rhoPi 24 0 1 0 (th.getD 1 0) th
  let ch := (rangeFrom 0 25).map fun i =>
    let y := i / 5 * 5
    b.getD i 0 ^^^ ((p64 - 1 - b.getD (y + (i + 1) % 5) 0) &&& b.getD (y + (i + 2) % 5) 0)
  match ch with
  | h :: t => ((h ^^^ rc) :: t).toArray
  | [] => #[]

/-- Rounds of Keccak-f. -/
def keccakF : Nat → Nat → Array Nat → Array Nat
  | 0, _, a => a
  | n + 1, l, a => let (rc, l) := keccakRc 7 l 0; keccakF n l (keccakRound rc a)

/-- SHA3-256. -/
def sha3 (data : List Byte) : List Byte :=
  let rate := 136
  let z := rate - 1 - data.length % rate
  let msg := data ++ (if z = 0 then [0x86] else 0x06 :: zeros (z - 1) ++ [0x80])
  let s := (blocksOf rate (msg.length / rate) msg).foldl (fun a b =>
    let lanes := (blocksOf 8 17 b).map leNat
    keccakF 24 1 ((rangeFrom 0 25).map fun i => a.getD i 0 ^^^ (lanes[i]?).getD 0).toArray) (Array.replicate 25 0)
  ((s.toList.take 4).flatMap (toLE 8))

/-- HMAC over a hash with blocks of `n` bytes. -/
def hmac (h : List Byte → List Byte) (n : Nat) (key data : List Byte) : List Byte :=
  let k := slice (if n < key.length then h key else key) 0 n
  h (k.map (· ^^^ 0x5C) ++ h (k.map (· ^^^ 0x36) ++ data))

/-! ### By algorithm code (R388) -/

/-- An AEAD of R388: GCM or ChaCha20-Poly1305. -/
def aeadTag (alg : Nat) (key nonce aad ct : List Byte) : List Byte :=
  if alg = 0x0D then chachaTag key nonce aad ct else gcmTag key nonce aad ct

/-- The key stream of an AEAD applied. [log 95: DEDUCED] -/
def aeadCrypt (alg : Nat) (key nonce data : List Byte) : List Byte :=
  if alg = 0x0D then chachaCrypt key nonce data else gcmCrypt key nonce data

/-- CMAC or HMAC by its code. -/
def macOf (alg : Nat) (key data : List Byte) : List Byte :=
  if alg = 0x0B ∨ alg = 0x0C then cmac key data
  else if alg = 0x13 then hmac sha256 64 key data
  else if alg = 0x14 then hmac sha512 128 key data
  else hmac sha3 136 key data

/-- A digest by its code. -/
def digestOf (alg : Nat) (data : List Byte) : List Byte :=
  if alg = 0x10 then sha256 data else if alg = 0x11 then sha512 data else sha3 data

end Sys2Proof.Machine
end

