-- ==== Sys2Proof/Machine/Tables.lean ====
section
/-! DEFINITION. HBM exact tables: creation and destruction, the table commands, insertion with relocation and eviction,
the sweeper, the shadow compare (R312 to R335). -/

namespace Sys2Proof.Machine

/-! ### Creation and destruction (R312 to R315) -/

/-- Entries a table of a layout can hold. -/
def TabCfg.capacity (c : TabCfg) : Nat := 2 ^ c.log2 * (if c.wide then 1 else 2)

/-- Entry capacity of the tables that are not OFF: TBL_CAP_USED. -/
def Dev.tblCapUsed (d : Dev) : Nat :=
  (rangeFrom 0 16).foldl (fun a t => if (d.table t).state = .off then a else a + (d.tabCfg t).capacity) 0

/-- The layout of a table that is OFF may be created (R312). -/
def Dev.tabOk (d : Dev) (t : Nat) : Bool :=
  let c := d.tabCfg t
  decide (1 ≤ c.log2 ∧ c.log2 ≤ (if c.wide then 26 else 25)) &&
    decide (c.keyLen % 4 = 0 ∧ 4 ≤ c.keyLen ∧ c.keyLen ≤ (if c.wide then 96 else 32)) &&
    decide (c.base + 2 ^ c.log2 * 128 ≤ hbmSize) && decide (d.tblCapUsed + c.capacity ≤ 67108864)

/-- A table belongs to the firmware (R315). -/
def Dev.tabFw (d : Dev) (t : Nat) : Bool := d.bit (tabReg t 8) 20

/-- A party is a host. -/
def hostParty : Party → Bool
  | .hif0 | .hif1 => true
  | _ => false

/-- The commands for a table that are fetched and have not started complete with STATE_CONFLICT (R313). -/
def Dev.tblAbort (d : Dev) (tab : Nat) : Dev :=
  let ws := d.rings.cells.flatMap fun q => if d.ringKind q.1 = 4 then
    q.2.work.filter fun w => w.done.isNone && !w.started && w.note ≠ [1] && decide (byteAt w.entry 2 % 16 = tab) else []
  ws.foldl (fun d w => d.finish w.ring w.id 0x05) d

/-- What the device keeps of a table beside its entries is gone with it: owners, fault list, pending lists. -/
def Dev.tabForget (d : Dev) (t : Nat) : Dev :=
  { d.disown t with faults := d.faults.filter fun x => x.1 ≠ t, scrubs := d.scrubs.filter fun x => x.table ≠ t,
                    sweeps := d.sweeps.filter fun x => x.table ≠ t }

/-- A write of TBL_TAB_CMD of table `t` (R313, R315). -/
def tabCmdW (tab : Nat) (d : Dev) (t : Tgt) : Dev :=
  let v := t.acc.data % 4
  let s := d.table tab
  if hostParty t.acc.pt && d.tabFw tab then d.refuse t 0x0802
  else if v = 3 then d.refuse t 0x0001
  else if v = 1 then
    if s.state ≠ .off then d.refuse t 0x0802
    else if d.tabOk tab then
      d.tabForget tab |>.setTable tab { s with state := .init, initDone := false, changeTurn := d.turn, entries := 0, sweepAt := 0, scrubAt := 0 }
    else d.refuse t 0x0801
  else if v = 2 ∧ s.state = .ready then (d.setTable tab { s with state := .draining, changeTurn := d.turn, initDone := false }).tblAbort tab
  else d

/-- TABLE_CREATE (R312, R313): a write of TBL_TAB_CMD with CREATE. -/
def execTableCreate (pt : Party) (t : Nat) (v : BitVec 32) (s : State) : Host.Outcome State Fault Refusal :=
  s.onDev fun d => d.ownWrite pt (tabReg t 0x38) 4 (putBits v.toNat 0 1 1) (tabCmdW t)

/-- TABLE_DESTROY (R313): a write of TBL_TAB_CMD with DESTROY. -/
def execTableDestroy (pt : Party) (t : Nat) (v : BitVec 32) (s : State) : Host.Outcome State Fault Refusal :=
  s.onDev fun d => d.ownWrite pt (tabReg t 0x38) 4 (putBits v.toNat 1 1 1) (tabCmdW t)

/-- INIT_DONE (R313): the region of a table in INIT has been zeroed. -/
def execInitDone (t : Nat) (s : State) : Host.Outcome State Fault Refusal :=
  s.act fun d =>
    let x := d.table t
    if x.state = .init ∧ ¬ x.initDone then
      let c := d.tabCfg t
      let n := 2 ^ c.log2 * 128
      let d : Dev := { d with hbm := d.hbm.filter fun a _ => !(decide (c.base ≤ a) && decide (a < c.base + n)) }
      ((d.eccClear c.base n).setTable t { x with initDone := true, changeTurn := d.turn }).raise .tbl 0 0 8
    else d

/-- TABLE_DRAIN_DONE (R313): no command of a draining table is outstanding. -/
def execTableDrainDone (t : Nat) (s : State) : Host.Outcome State Fault Refusal :=
  s.act fun d =>
    let x := d.table t
    let open_ := d.rings.cells.any fun q => decide (d.ringKind q.1 = 4) &&
      q.2.work.any fun w => w.done.isNone && decide (byteAt w.entry 2 % 16 = t)
    if x.state = .draining ∧ ¬ open_ then d.setTable t { x with initDone := true, changeTurn := d.turn } else d

/-! ### Entries -/

/-- What is to be written in an entry (R226). -/
structure NewEntry where
  key : List Byte
  action : Nat
  flags : Nat
  valFrom : Nat
  valUntil : Nat
  owner : Func
  chain : Nat
  ref : Nat
deriving DecidableEq, Repr

/-- The image of an entry with LAST_HIT (R226). -/
def TabCfg.image (c : TabCfg) (n : NewEntry) (lastHit : Nat) : List Byte :=
  slice (n.key.take c.keyLen) 0 c.body ++ toLE 3 n.action ++ [byteN n.flags] ++ toLE 4 lastHit ++ toLE 4 n.valFrom ++
    toLE 4 n.valUntil ++ toLE 2 (ownerField n.owner) ++ zeros 2 ++ toLE 4 n.chain ++ toLE 8 n.ref

/-- FLAGS of an event the table controller writes on its own (R335). -/
def Dev.evtFlags (d : Dev) (repaired : Bool) : Nat := b2n repaired + 4 * b2n d.localOnly

/-- An entry as it is shown to software: its reserved fields zero (R16, R226). -/
def TabCfg.shown (c : TabCfg) (e : List Byte) : List Byte :=
  c.put (c.put (c.put e 3 1 (c.flags e % 16)) 16 2 (leAt e (c.body + 16) 2 % 8192)) 18 2 0

/-- An entry event (R334, R335). -/
def Dev.entryEvent (d : Dev) (kind t loc : Nat) (repaired : Bool) (e : List Byte) : Dev :=
  d.tblEvent t (d.tblEvtBytes kind t (d.evtFlags repaired) loc 0 0 0 0 ((d.tabCfg t).shown e))

/-- A bucket has an uncorrectable error; it enters the fault list (R333). -/
def Dev.bucketBad (d : Dev) (t : Nat) (c : TabCfg) (b : Nat) : Dev × Bool :=
  if d.eccOf (c.base + b * 128) 128 = 2 then (d.tableFault t b, true) else (d, false)

/-- Both candidate buckets of a key looked at for errors. -/
def Dev.keyBad (d : Dev) (t : Nat) (c : TabCfg) (key : List Byte) : Dev × Bool :=
  let (b0, b1) := c.buckets key
  let (d, x) := d.bucketBad t c b0
  let (d, y) := d.bucketBad t c b1
  (d, x || y)

/-! ### Insertion (R320 to R325) -/

/-- What a table change came to: its status, the location, the relocations, whether it evicted. -/
structure TblRes where
  st : Nat
  loc : Nat := 0
  moves : Nat := 0
  evicted : Bool := false
deriving DecidableEq, Repr

/-- The other candidate bucket of the entry at `loc` (R322). -/
def Dev.altOf (d : Dev) (c : TabCfg) (loc : Nat) : Nat :=
  let (b0, b1) := c.buckets (c.key (d.entryAt c loc))
  if c.bucketOf loc = b0 then b1 else b0

/-- The first free slot of a bucket (R321). -/
def Dev.freeSlot (d : Dev) (c : TabCfg) (b : Nat) : Option Nat :=
  (c.slots b).find? fun l => c.free d.turn (d.entryAt c l)

/-- The relocation path from `need` on, with its free slot (R322): steps `step` and on, `n` of them left. -/
def Dev.planPath (d : Dev) (c : TabCfg) : Nat → Nat → List Nat → List Nat → Option (List Nat × Nat)
  | 0, _, _, _ => none
  | n + 1, step, need, path =>
    let cand := (need.flatMap c.slots).filter fun l => !c.pinned (d.entryAt c l) && !decide (l ∈ path)
    match cand.find? fun l => (d.freeSlot c (d.altOf c l)).isSome with
    | some l => (d.freeSlot c (d.altOf c l)).map fun f => (path ++ [l], f)
    | none =>
      match cand[(step - 1) % cand.length]? with
      | some l => d.planPath c n (step + 1) [d.altOf c l] (path ++ [l])
      | none => none

/-- The buckets that the walk of R322 reads beside those in need, from step `step` on (R333). -/
def Dev.planReads (d : Dev) (c : TabCfg) : Nat → Nat → List Nat → List Nat → List Nat
  | 0, _, _, _ => []
  | n + 1, step, need, path =>
    let cand := (need.flatMap c.slots).filter fun l => !c.pinned (d.entryAt c l) && !decide (l ∈ path)
    let open_ (l : Nat) : Bool := (d.freeSlot c (d.altOf c l)).isSome
    match cand.find? open_ with
    | some l => ((cand.takeWhile fun x => !open_ x) ++ [l]).map (d.altOf c)
    | none =>
      match cand[(step - 1) % cand.length]? with
      | some l => cand.map (d.altOf c) ++ d.planReads c n (step + 1) [d.altOf c l] (path ++ [l])
      | none => []

/-- Buckets looked at for uncorrectable errors (R333). -/
def Dev.bucketsBad (d : Dev) (t : Nat) (c : TabCfg) (bs : List Nat) : Dev × Bool :=
  bs.eraseDups.foldl (fun (q : Dev × Bool) b =>
    let (d, x) := q.1.bucketBad t c b
    (d, q.2 || x)) (d, false)

/-- A planned path applied, last entry first: each entry of the reversed path is copied into `dst` (R323). -/
def Dev.applyPath (d : Dev) (t : Nat) (c : TabCfg) : List Nat → Nat → Dev
  | [], _ => d
  | l :: ls, dst =>
    let d := (d.putEntry t dst (d.entryAt c l)).bump (tabCount t 0x20)
    let d := if d.bit (tabReg t 0xC) 2 then d.tblEvent t (d.tblEvtBytes 0x53 t (d.evtFlags false) l 0 0 dst 0 []) else d
    d.applyPath t c ls l

/-- The age of an entry at the current turn (R327). -/
def Dev.entryAge (d : Dev) (c : TabCfg) (e : List Byte) : Nat :=
  let a := sub32 d.turn (c.f32 e 4)
  if a < 2147483648 then a else 0

/-- The first location with the greatest age. -/
def Dev.oldest (d : Dev) (c : TabCfg) : List Nat → Option Nat
  | [] => none
  | l :: ls => match d.oldest c ls with
    | some m => if d.entryAge c (d.entryAt c m) ≤ d.entryAge c (d.entryAt c l) then some l else some m
    | none => some l

/-- The occupant that makes room (R325). [log 71: DESIGN CHOICE] -/
def Dev.victim (d : Dev) (c : TabCfg) (locs : List Nat) : Dev × Option Nat :=
  let cand := locs.filter fun l => !c.pinned (d.entryAt c l)
  if c.policy = 1 ∧ cand ≠ [] then
    let (d, r) := d.entDraw 3
    (d, cand[r % cand.length]?)
  else if c.policy = 2 then (d, d.oldest c cand)
  else (d, none)

/-- A filter slot that holds a table and a key cleared (R337). -/
def Dev.filterClear (d : Dev) (t : Nat) (key : List Byte) : Dev :=
  let i := d.filterSlot t key
  match d.filter.find i with
  | some f => if f.table = t ∧ f.key = key then { d with filter := d.filter.erase i } else d
  | none => d

/-- An entry inserted (R320 to R325); `closing` is the entry a REPLACE closes, with its turn. -/
def Dev.tblInsert (d : Dev) (t : Nat) (n : NewEntry) (closing : Option (Nat × Nat)) : Dev × TblRes :=
  let c := d.tabCfg t
  let order := c.order n.key
  let e := c.image n d.turn
  let overlap := order.any fun l =>
    let o := d.entryAt c l
    let u := match closing with
      | some (m, at_) => if m = l then at_ else c.f32 o 12
      | none => c.f32 o 12
    c.valid o && c.key o = n.key && rangesMeet d.turn (c.f32 o 8) u n.valFrom n.valUntil
  let (d, bad) := d.keyBad t c n.key
  let (b0, b1) := c.buckets n.key
  if bad then (d, { st := 0x3F })
  else if overlap then (d, { st := 0x21 })
  else
    let ok (d : Dev) : Dev := (d.filterClear t n.key).bump (tabCount t 0)
    match order.find? fun l => c.free d.turn (d.entryAt c l) with
    | some l => (ok (d.putEntry t l e), { st := 0, loc := l })
    | none =>
      let (d, bad) := d.bucketsBad t c (d.planReads c 8 1 [b0, b1] [])
      if bad then (d, { st := 0x3F })
      else match d.planPath c 8 1 [b0, b1] [] with
      | some (path, f) =>
        let l := path.headD 0
        (ok ((d.applyPath t c path.reverse f).putEntry t l e), { st := 0, loc := l, moves := path.length })
      | none =>
        match d.victim c order with
        | (d, some l) =>
          let old := d.entryAt c l
          let d := ((d.putEntry t l e).bump (tabCount t 0x10)).entryEvent 0x51 t l false old
          (ok d, { st := 0, loc := l, evicted := true })
        | (d, none) => (d.bump (tabCount t 0x28), { st := 0x20 })

/-! ### Changes of the entry of a key (R317, R346) -/

/-- The entry of a key at a turn (R317). -/
def Dev.entryOf (d : Dev) (c : TabCfg) (key : List Byte) (at_ : Int) : Option Nat :=
  d.findEntry c key fun e => c.visible d.turn e at_

/-- The function may change or read an entry (R318). -/
def Dev.mayTouch (d : Dev) (f : Func) (c : TabCfg) (loc : Nat) : Bool :=
  let o := c.owner (d.entryAt c loc)
  if f.num ≠ 0 then decide (o = f) else decide (f.link = d.primary) || decide (o.link = f.link)

/-- A change of the entry of a key at a turn: NOT_FOUND without one, ACCESS_DENIED for another's (R317, R318, R333). -/
def Dev.onEntry (d : Dev) (t : Nat) (f : Func) (key : List Byte) (at_ : Int) (g : Dev → Nat → Dev × TblRes) : Dev × TblRes :=
  let c := d.tabCfg t
  let (d, bad) := d.keyBad t c key
  if bad then (d, { st := 0x3F })
  else match d.entryOf c key at_ with
    | none => (d, { st := 0x22 })
    | some l => if d.mayTouch f c l then g d l else (d, { st := 0x04 })

/-- A VF has reached its flow-table quota (R318). -/
def Dev.flowFull (d : Dev) (f : Func) : Bool := f.num ≠ 0 && decide (d.grantAt f 20 4 ≤ d.flowsOwned f)

/-- REPLACE at turn `a` (R317, R320): the insertion, then the closing write. -/
def Dev.tblReplaceAt (d : Dev) (t : Nat) (f : Func) (n : NewEntry) (a : Nat) : Dev × TblRes :=
  let c := d.tabCfg t
  d.onEntry t f n.key (turnOf d.turn a) fun d l =>
    let o := d.entryAt c l
    if d.flowFull f then (d, { st := 0x20 })
    else match d.tblInsert t n (some (l, a)) with
    | (d, r) =>
      if r.st ≠ 0 then (d, r)
      else
        -- the old entry lies wherever a relocation has left it; an eviction may have removed it
        match (c.order n.key).find? fun m => decide (m ≠ r.loc) && decide (d.entryAt c m = o) with
        | some m => (d.putEntry t m (c.put (d.entryAt c m) 12 4 a), r)
        | none => (d, r)

/-- DELETE, at once for AT = 0 (R317). -/
def Dev.tblDelete (d : Dev) (t : Nat) (f : Func) (key : List Byte) (a : Nat) : Dev × TblRes :=
  let c := d.tabCfg t
  d.onEntry t f key (if a = 0 then (d.turn : Int) else turnOf d.turn a) fun d l =>
    let e := d.entryAt c l
    let e := if a = 0 then c.put e 3 1 (c.flags e / 2 * 2) else c.put e 12 4 a
    ((d.putEntry t l e).bump (tabCount t 8), { st := 0, loc := l })

/-- REFRESH (R317). -/
def Dev.tblRefresh (d : Dev) (t : Nat) (f : Func) (key : List Byte) : Dev × TblRes :=
  d.onEntry t f key d.turn fun d l => (d.setLastHit (d.tabCfg t) l d.turn, { st := 0, loc := l })

/-! ### Commands (R316 to R319) -/

/-- FROM_AT of a table command. -/
def tblAt (w : Work) : Nat := leAt w.entry 16 4

/-- UNTIL of a table command. -/
def tblUntil (w : Work) : Nat := leAt w.entry 20 4

/-- REF of a table command. -/
def tblRef (w : Work) : Nat := leAt w.entry 24 8

/-- FLAGS of a table command. -/
def tblFlags (w : Work) : Nat := byteAt w.entry 3

/-- The KEY of a table command. -/
def tblKey (c : TabCfg) (w : Work) : List Byte := slice w.entry 32 c.keyLen

/-- The entry a table command asks for. -/
def Dev.tblNew (d : Dev) (c : TabCfg) (w : Work) : NewEntry :=
  let fl := tblFlags w
  { key := tblKey c w, action := leAt w.entry 8 3, valFrom := tblAt w, valUntil := tblUntil w, chain := leAt w.entry 12 4,
    ref := tblRef w, owner := d.ringFunc w.ring,
    flags := 1 + 2 * b2n (bitOf fl 2) + 4 * b2n (bitOf fl 1) + 8 * b2n (bitOf fl 0) }

/-- A value names a turn from C + 1 to C + 2^30 (R141). -/
def Dev.turnOk (d : Dev) (v : Nat) : Bool :=
  let x := sub32 v d.turn
  decide (1 ≤ x ∧ x ≤ 1073741824)

/-- AT of REPLACE and DELETE, other than 0, may name the turn of a change: it becomes a VALID_UNTIL (R141). [log 69: DEDUCED] -/
def Dev.atOk (d : Dev) (v : Nat) : Bool := v ≠ 0xFFFFFFFF && d.turnOk v

/-- UNTIL may become a VALID_UNTIL (R141, R317). -/
def Dev.untilOk (d : Dev) (v : Nat) : Bool := v = 0xFFFFFFFF || d.turnOk v

/-- A function may name a table (R315, R318, R543). -/
def Dev.tabGranted (d : Dev) (f : Func) (t : Nat) : Bool :=
  !d.tabFw t && (f.num = 0 || (bitOf (d.grantAt f 3 1) 0 && bitOf (d.grantAt f 16 2) t))

/-- A table command of ring `r` with opcode `op` at the head of its ring: the checks common to all, then `g`. -/
def Dev.tblc (d : Dev) (r op : Nat) (g : Dev → Work → Nat → Dev) : Dev :=
  match d.workHead r op with
  | some w =>
    let t := byteAt w.entry 2 % 16
    let f := d.ringFunc r
    if d.ringKind r ≠ 4 ∨ ¬ d.accepts .tbl 0 then d
    else if !d.tabGranted f t || (op = 6 && f.num ≠ 0) then d.finish r w.id 0x04
    else if op ≠ 5 ∧ d.standsBy (d.groupOf 4 t) then d.finish r w.id 0x05
    else if (d.table t).state ≠ .ready ∧ ¬ ((d.table t).state = .draining ∧ w.started = true) then d.finish r w.id 0x05
    else if w.entry.length ≠ 16 * (if 6 ≤ op then 2 else 2 + ceilDiv (d.tabCfg t).keyLen 16) then d.finish r w.id 0x01
    else g d w t
  | none => d

/-- The RESULT of a table command (R319). -/
def tblResult (x : TblRes) : List Byte :=
  if x.st = 0 then toLE 4 x.loc ++ [byteN x.moves, byteN (b2n x.evicted), 0, 0] else []

/-- A learning record (R343). -/
def lrnRecord (op t : Nat) (c : TabCfg) (key : List Byte) (pinned : Bool) (at_ until_ action chain ref : Nat) : List Byte :=
  [byteN op, byteN t, byteN c.keyLen, byteN (b2n pinned)] ++ toBE 4 at_ ++ toBE 4 until_ ++ toBE 3 action ++ [0] ++
    toBE 4 chain ++ toBE 8 ref ++ key ++ zeros (roundUp c.keyLen 4 - c.keyLen)

/-- A record counts as queued for the peers (R340). -/
def Dev.lrnNote (d : Dev) (rec_ : List Byte) (mirrored : Bool) : Dev :=
  { d with lrn := { d.lrn with queue := d.lrn.queue ++ [{ bytes := rec_, turn := d.bounds, mirrored := mirrored }] } }

/-- A record queued for the peers; where the table is covered, once the partner has acknowledged it (R340, R581). -/
def Dev.lrnQueue (d : Dev) (t : Nat) (rec_ : List Byte) : Dev :=
  if d.groupActive (d.groupOf 4 t) then (d.mirror 0 5 rec_).pairWait 0 (.queued rec_) else d.lrnNote rec_ false

/-- Records queued, those that wait for the partner among them. -/
def Dev.lrnQueued (d : Dev) : Nat :=
  d.lrn.queue.length + (d.pair.s0.waits.filter fun w => match w.2 with | .queued _ => true | _ => false).length

/-- A change command (R317 to R319, R340): the checks of PUBLISH and of the turns, the change, the record, the
completion. -/
def Dev.tblChange (d : Dev) (w : Work) (t recOp at_ : Nat) (good : Bool) (f : Dev → Dev × TblRes) : Dev :=
  let c := d.tabCfg t
  let pub := bitOf (tblFlags w) 0
  let lead := d.fld (reg .lrn 0 0x114) 0 16
  let x := sub32 at_ d.turn
  if pub && !d.bit (reg .lrn 0 0x100) 0 then d.finish w.ring w.id 0x05
  else if !good || (pub && recOp ≠ 3 && !(decide (lead ≤ x) && decide (x ≤ 1073741824) && decide (at_ ≠ 0))) then
    d.finish w.ring w.id 0x35
  else if pub && decide (1024 ≤ d.lrnQueued) then d
  else if d.groupActive (d.groupOf 4 t) && d.pairFull then d.mirrorStall
  else
    let n0 := d.pair.s0.next
    let before := d
    match f d with
    | (d, r) =>
      -- a RANDOM eviction waits while the generator of the caddy is stopped (R424)
      if d.draws ≠ before.draws && !d.entRuns 3 then before else
      let d := if pub && r.st = 0 then
          d.lrnQueue t (lrnRecord recOp t c (tblKey c w) (bitOf (tblFlags w) 1) (if recOp = 3 then d.turn % p32 else at_)
            (tblUntil w) (leAt w.entry 8 3) (leAt w.entry 12 4) (tblRef w))
        else d
      d.finishMirrored n0 w.ring w.id r.st (tblResult r)

/-- INSERT (R317, R320 to R325). -/
def execInsert (r : Nat) (s : State) : Host.Outcome State Fault Refusal :=
  s.act fun d => d.tblc r 1 fun d w t =>
    let a := tblAt w
    let good := (a = 0 || d.turnOk a) && d.untilOk (tblUntil w)
    d.tblChange w t 1 a good fun d =>
      if d.flowFull (d.ringFunc r) then (d, { st := 0x20 }) else d.tblInsert t (d.tblNew (d.tabCfg t) w) none

/-- REPLACE (R317, R320). -/
def execReplace (r : Nat) (s : State) : Host.Outcome State Fault Refusal :=
  s.act fun d => d.tblc r 2 fun d w t =>
    let c := d.tabCfg t
    let f := d.ringFunc r
    let a := tblAt w
    let u := tblUntil w
    let good := (a = 0 || d.atOk a) && d.untilOk u
    d.tblChange w t 1 a good fun d =>
      if a = 0 then
        d.onEntry t f (tblKey c w) d.turn fun d l =>
          let e := d.entryAt c l
          let fl := putBits (c.flags e) 2 1 (b2n (bitOf (tblFlags w) 1))
          let e := c.put (c.put (c.put e 0 3 (leAt w.entry 8 3)) 3 1 fl) 12 4 u
          let e := c.put (c.put e 20 4 (leAt w.entry 12 4)) 24 8 (tblRef w)
          (d.putEntry t l e, { st := 0, loc := l })
      else d.tblReplaceAt t f (d.tblNew c w) a

/-- DELETE (R317). -/
def execDelete (r : Nat) (s : State) : Host.Outcome State Fault Refusal :=
  s.act fun d => d.tblc r 3 fun d w t =>
    let a := tblAt w
    d.tblChange w t 2 a (a = 0 || d.atOk a) fun d => d.tblDelete t (d.ringFunc r) (tblKey (d.tabCfg t) w) a

/-- REFRESH (R317). -/
def execRefresh (r : Nat) (s : State) : Host.Outcome State Fault Refusal :=
  s.act fun d => d.tblc r 4 fun d w t =>
    let a := tblAt w
    d.tblChange w t 3 a (a = 0 || d.turnOk a) fun d => d.tblRefresh t (d.ringFunc r) (tblKey (d.tabCfg t) w)

/-- READ of a table (R317): the entry image is written to REF. -/
def execTblcRead (r : Nat) (s : State) : Host.Outcome State Fault Refusal :=
  s.act fun d => d.tblc r 5 fun d w t =>
    let c := d.tabCfg t
    let key := tblKey c w
    let (d, bad) := d.keyBad t c key
    if bad then d.finish r w.id 0x3F
    else match d.findEntry c key fun _ => true with
      | none => d.finish r w.id 0x22
      | some l =>
        if d.mayTouch (d.ringFunc r) c l then
          d.finishPut r w.id (tblRef w) (c.shown (d.entryAt c l)) (tblResult { st := 0, loc := l })
        else d.finish r w.id 0x04

/-- The entries of a bucket written raw, one after the other, as part of one bucket write. -/
def Dev.putBucket (d : Dev) (t : Nat) (c : TabCfg) (b : Nat) (bs : List Byte) : Dev :=
  let d := (c.slots b).foldl (fun d l => d.putEntry t l (slice bs ((l - (c.slots b).headD 0) * c.size) c.size)) d
  { d.eccClear (c.base + b * 128) 128 with faults := d.faults.filter fun x => x ≠ (t, b) }

/-- WRITE_BUCKET (R317, R318): the first run reads 128 B from REF, the run after its data has come writes the bucket; R141 is not
applied to the turn numbers in it. [log 211: DESIGN CHOICE] -/
def execWriteBucket (r : Nat) (s : State) : Host.Outcome State Fault Refusal :=
  s.act fun d => d.tblc r 6 fun d w t =>
    let c := d.tabCfg t
    let b := leAt w.entry 8 4
    if 2 ^ c.log2 ≤ b then d.finish r w.id 0x35
    else if !w.started then (d.setWork r w.id fun x => { x with started := true }).workRead w 0 (tblRef w) 128
    else if w.waiting ≠ [] then d
    else if d.groupActive (d.groupOf 4 t) && d.pairFull then d.mirrorStall
    else
      let n0 := d.pair.s0.next
      (d.putBucket t c b (slice w.allData 0 128)).finishMirrored n0 r w.id 0 []

/-- LEARN_KEY (R317, R339). -/
def execLearnKey (r : Nat) (s : State) : Host.Outcome State Fault Refusal :=
  s.act fun d => d.tblc r 7 fun d w _ =>
    match d.filter.find (leAt w.entry 8 2 % 4096) with
    | some f =>
      if crc32c 0xFFFFFFFF f.key = leAt w.entry 12 4 then d.finishPut r w.id (tblRef w) f.key
      else d.finish r w.id 0x22
    | none => d.finish r w.id 0x22

/-! ### Sweep (R142, R327, R328) -/

/-- The age the sweeper takes: from the later of LAST_HIT and the takeover turn, for AGE turns after a takeover (R584). -/
def Dev.sweepAge (d : Dev) (t : Nat) (c : TabCfg) (e : List Byte) : Nat :=
  let a := d.entryAge c e
  match d.groupOf 4 t with
  | some g => match d.pair.takeover.find g with
    | some k => if d.turn ≤ k + d.fld (tabReg t 0x18) 0 30 then min a (d.turn - k) else a
    | none => a
  | none => a

/-- An entry deleted as an aging (R328). -/
def Dev.ageOut (d : Dev) (t loc : Nat) : Dev :=
  let c := d.tabCfg t
  let e := d.entryAt c loc
  let d := (d.putEntry t loc (c.put e 3 1 (c.flags e / 2 * 2))).bump (tabCount t 0x18)
  if d.bit (tabReg t 0xC) 1 then d.entryEvent 0x52 t loc false e else d

/-- The sweeper ages and deletes entries of a table (R580). -/
def Dev.sweepsOut (d : Dev) (t : Nat) : Bool := !d.standsBy (d.groupOf 4 t)

/-- What changes entries of a table must wait: the pair mirrors them and its retransmission region is full (R579). -/
def Dev.tabStalled (d : Dev) (t : Nat) : Bool := d.groupActive (d.groupOf 4 t) && d.pairFull

/-- The sweeper's visit of one slot; on a table that stands by it neither ages nor deletes (R580). -/
def Dev.sweepSlot (t : Nat) (d : Dev) (loc : Nat) : Dev :=
  let c := d.tabCfg t
  let e := d.entryAt c loc
  let u := c.f32 e 12
  let f := c.f32 e 8
  if !c.valid e then d
  else if d.sweepsOut t ∧ u ≠ 0xFFFFFFFF ∧ turnOf d.turn u + 32768 ≤ (d.turn : Int) then d.ageOut t loc
  else
    let e' := if f ≠ 0 ∧ turnOf d.turn f + 32768 ≤ (d.turn : Int) then c.put e 8 4 0 else e
    let d := if e' = e then d else d.putEntry t loc e'
    let age := d.sweepAge t c e
    let lim := d.fld (tabReg t 0x18) 0 30
    if d.sweepsOut t ∧ lim ≠ 0 ∧ ¬ c.pinned e ∧ c.visible d.turn e d.turn ∧ lim < age then
      if d.sweeps.any fun p => decide (p.table = t ∧ p.slot = loc) then d
      else
        let p : SweepPend := { table := t, bucket := c.bucketOf loc, slot := loc, key := c.key e, lastHit := c.f32 e 4,
                               turn := d.turn + 2 }
        { d with sweeps := d.sweeps ++ [p] }
    else if 1073741824 < d.entryAge c e then d.setLastHit c loc ((d.turn + p32 - 1073741824) % p32)
    else d

/-- Corrected errors of a bucket written back (R333). -/
def Dev.bucketHeal (d : Dev) (c : TabCfg) (b : Nat) : Dev :=
  let a := c.base + b * 128
  { d with ecc := d.ecc.filter fun k v => !(decide (v = 1) && decide (k * 64 < a + 128) && decide (a < k * 64 + 64)) }

/-- Buckets a table's sweeper visits in the present turn (R327): SWEEP, and at least as many as the turns since the last
visit take of 2^29; none a second time in the turn. [log 188: DEDUCED] -/
def Dev.sweepPace (d : Dev) (t : Nat) : Nat :=
  let n := 2 ^ (d.tabCfg t).log2
  let k := d.bounds - (d.table t).swept
  if k = 0 then 0 else min n (max (d.fld (tabReg t 0x2C) 0 16) (k * n / 536870912))

/-- The sweeper's visits of the next `n` buckets. -/
def Dev.sweepBuckets (d : Dev) (t : Nat) : Nat → Dev
  | 0 => d
  | n + 1 =>
    if d.tabStalled t then d.mirrorStall
    else
    let x := d.table t
    let c := d.tabCfg t
    let b := x.sweepAt
    let d := d.setTable t { x with sweepAt := (b + 1) % 2 ^ c.log2 }
    let (d, bad) := d.bucketBad t c b
    (if bad then d else (c.slots b).foldl (Dev.sweepSlot t) (d.bucketHeal c b)).sweepBuckets t n

/-- SWEEP_VISIT (R142, R327, R333): the sweeper's buckets of the turn are visited. -/
def execSweepVisit (t : Nat) (s : State) : Host.Outcome State Fault Refusal :=
  s.act fun d =>
    let x := d.table t
    if x.state ≠ .ready ∨ ¬ d.accepts .tbl 0 then d
    else
      let n := d.sweepPace t
      if n = 0 then d
      else if d.tabStalled t then d.mirrorStall
      else (d.setTable t { x with swept := d.bounds }).sweepBuckets t n

/-- SWEEP_DELETE (R328): the oldest expired entry whose boundary has come is deleted, if it is unchanged. -/
def execSweepDelete (t : Nat) (s : State) : Host.Outcome State Fault Refusal :=
  s.act fun d =>
    match takeFirst (fun p => decide (p.table = t) && decide (p.turn ≤ d.turn)) d.sweeps with
    | some (p, rest) =>
      if d.tabStalled t then d.mirrorStall
      else
      let d : Dev := { d with sweeps := rest }
      let c := d.tabCfg t
      let e := d.entryAt c p.slot
      let (d, bad) := d.bucketBad t c p.bucket
      if !bad ∧ (d.table t).state = .ready ∧ ¬ d.standsBy (d.groupOf 4 t) ∧ c.valid e ∧ c.key e = p.key ∧ c.f32 e 4 = p.lastHit then
        d.ageOut t p.slot
      else d
    | none => d

/-! ### Shadow compare and repair (R329 to R333) -/

/-- VALID_FROM as the shadow compare reads it (R142). -/
def scrubFrom (cur v : Nat) : Nat := if v ≠ 0 ∧ turnOf cur v + 32768 ≤ (cur : Int) then 0 else v

/-- Two slots agree (R329). -/
def TabCfg.agree (c : TabCfg) (cur : Nat) (a b : List Byte) : Bool :=
  (!c.valid a && !c.valid b) ||
    (decide (c.key a = c.key b) && decide (leAt a c.body 3 = leAt b c.body 3) &&
      decide (c.flags a % 16 = c.flags b % 16) && decide (scrubFrom cur (c.f32 a 8) = scrubFrom cur (c.f32 b 8)) &&
      decide (c.f32 a 12 = c.f32 b 12))

/-- Slot `l` of a 128-B bucket image. -/
def TabCfg.slotIn (c : TabCfg) (b l : Nat) (bs : List Byte) : List Byte := slice bs ((l - (c.slots b).headD 0) * c.size) c.size

/-- The slots of a bucket that disagree with its shadow. -/
def Dev.disagree (d : Dev) (c : TabCfg) (b : Nat) (shadow : List Byte) : List Nat :=
  (c.slots b).filter fun l => !c.agree d.turn (d.entryAt c l) (c.slotIn b l shadow)

/-- A slot rewritten from the shadow in one write (R330). -/
def Dev.repairSlot (d : Dev) (t : Nat) (c : TabCfg) (b l : Nat) (shadow : List Byte) : Dev :=
  let e := c.slotIn b l shadow
  let o := d.entryAt c l
  let n := if c.valid e then c.put e 4 4 d.turn else c.put o 3 1 (c.flags o / 2 * 2)
  (d.putEntry t l n).bump (tabCount t 0x58)

/-- The function the shadow of a table is read as. -/
def Dev.shadowFn (d : Dev) (t : Nat) : Func := ⟨d.fld (tabReg t 0x28) 12 1, d.fld (tabReg t 0x28) 0 12⟩

/-- The scrubber visits a table: SCRUB_EN, READY. -/
def Dev.scrubOn (d : Dev) (t : Nat) : Bool :=
  d.bit (tabReg t 0xC) 4 && decide ((d.table t).state = .ready) && d.accepts .tbl 0

/-- What the shadow read of a bucket has brought: nothing where it failed, or could not be made because its function may not
master the bus (R331, R526). -/
def Dev.shadowGot (d : Dev) (t : Nat) (shadow : List Byte) : List Byte := if d.master (d.shadowFn t) then shadow else []

/-- A shadow read that failed (R331). -/
def Dev.shadowFail (d : Dev) (t : Nat) : Dev := (d.bump (tabCount t 0x68)).raise .tbl 0 0 11

/-- The host read of a bucket of the shadow, sent as DMA of SHADOW_FN (R329); its answer is an operand of the command that
reads it. [log 189: DESIGN CHOICE] -/
def Dev.shadowRead (d : Dev) (t b : Nat) : Dev :=
  let (d, id) := d.fresh
  if d.master (d.shadowFn t) then d.emit (.hostRead id (d.shadowFn t) (d.rd64 (tabReg t 0x20) + b * 128) 128) else d

/-- A bucket visited by the scrubber with its shadow: a disagreement goes into the pending list (R329, R330, R333). -/
def Dev.scrubBucket (d : Dev) (t b : Nat) (shadow : List Byte) : Dev :=
  let c := d.tabCfg t
  let shadow := d.shadowGot t shadow
  let d := d.shadowRead t b
  let (d, bad) := d.bucketBad t c b
  let d := if bad then d else d.bucketHeal c b
  if bad then d
  else if shadow = [] then d.shadowFail t
  else if d.disagree c b shadow = [] ∨ 64 ≤ d.scrubs.length ∨ (d.scrubs.any fun p => decide (p.table = t ∧ p.bucket = b)) then d
  else
    let p : ScrubPend := { table := t, bucket := b, hw := d.hbmRead (c.base + b * 128) 128, turn := d.bounds }
    { d with scrubs := d.scrubs ++ [p] }

/-- The scrubber's visits in order, from bucket to bucket. -/
def Dev.scrubVisits (d : Dev) (t : Nat) : List (List Byte) → Dev
  | [] => d
  | sh :: r =>
    let x := d.table t
    let b := x.scrubAt
    ((d.setTable t { x with scrubAt := (b + 1) % 2 ^ (d.tabCfg t).log2 }).scrubBucket t b sh).scrubVisits t r

/-- SCRUB_VISIT (R329 to R331): the buckets visited in a turn, at most PACE.SCRUB, with the answers to their shadow reads,
empty where a read failed. -/
def execScrubVisit (t : Nat) (shadow : List (List Byte)) (s : State) : Host.Outcome State Fault Refusal :=
  s.act fun d =>
    let x := d.table t
    if !d.scrubOn t ∨ d.bounds ≤ x.scrubbed then d
    else (d.setTable t { x with scrubbed := d.bounds }).scrubVisits t (shadow.take (d.fld (tabReg t 0x2C) 16 16))

/-- The MISMATCH events and repairs of a bucket that still disagrees (R330). -/
def Dev.mismatches (d : Dev) (t b : Nat) (shadow : List Byte) : List Nat → Dev
  | [] => d
  | l :: ls =>
    let c := d.tabCfg t
    let rep := d.bit (tabReg t 0xC) 5
    let d := ((d.entryEvent 0x54 t l rep (d.entryAt c l)).bump (tabCount t 0x50)).raise .tbl 0 0 9
    (if rep then d.repairSlot t c b l shadow else d).mismatches t b shadow ls

/-- SCRUB_RECHECK (R330): the first visit of a pending bucket at least TBL_SCRUB_HOLD turns later. -/
def execScrubRecheck (t bucket : Nat) (shadow : List Byte) (s : State) : Host.Outcome State Fault Refusal :=
  s.act fun d =>
    match takeFirst (fun p => decide (p.table = t ∧ p.bucket = bucket)) d.scrubs with
    | some (p, rest) =>
      if !d.scrubOn t ∨ d.bounds < p.turn + d.fld (reg .tbl 0 0x108) 0 24 then d
      else if d.tabStalled t then d.mirrorStall
      else
        let c := d.tabCfg t
        let shadow := d.shadowGot t shadow
        let (d, bad) := (d.shadowRead t bucket).bucketBad t c bucket
        let d := if bad then d else d.bucketHeal c bucket
        if bad then d
        else if shadow = [] then d.shadowFail t
        else
          let d : Dev := { d with scrubs := rest }
          if d.hbmRead (c.base + bucket * 128) 128 = p.hw then d.mismatches t bucket shadow (d.disagree c bucket shadow)
          else d
    | none => d

/-- FAULT_REPAIR (R333): a bucket of the fault list is rewritten from the shadow. -/
def execFaultRepair (t bucket : Nat) (shadow : List Byte) (s : State) : Host.Outcome State Fault Refusal :=
  s.act fun d =>
    if d.tabStalled t then d.mirrorStall
    else if (t, bucket) ∈ d.faults ∧ d.scrubOn t ∧ d.bit (tabReg t 0xC) 5 then
      let shadow := d.shadowGot t shadow
      let d := d.shadowRead t bucket
      if shadow = [] then d.shadowFail t
      else
        let c := d.tabCfg t
        let d := (c.slots bucket).foldl (fun d l => d.repairSlot t c bucket l shadow) d
        { d.eccClear (c.base + bucket * 128) 128 with faults := d.faults.filter fun x => x ≠ (t, bucket) }
    else d

end Sys2Proof.Machine
end

