-- ==== Sys2Proof/Machine/Keys.lean ====
section
/-! DEFINITION. The caddy, the KEK slots, security associations and the commands on them (R391 to R394, R402 to R405, R426
to R433). -/

namespace Sys2Proof.Machine

/-! ### Key slots (R426, R427) -/

/-- `n` bytes that the manual leaves open. -/
def Dev.drawBytes (d : Dev) : Nat → Dev × List Byte
  | 0 => (d, [])
  | n + 1 =>
    let (d, x) := d.drawFree
    let (d, r) := d.drawBytes n
    (d, byteN x :: r)

/-- SEC_DEBUG_STATE is UNLOCKED (R609). -/
def Dev.unlocked (d : Dev) : Bool := d.bit (reg .sec 0 0x100) 0

/-- A slot read, with a request of the caddy's wrap engine to its random generator (R422, R423): none when it holds no key; a slot that fails its integrity check is treated as empty (R426, R432). -/
def Dev.keyGet (d : Dev) (slot : Nat) : Dev × Option KeySlot :=
  if !d.keyEn then (d, none)
  else match d.keys.find slot with
    | none => (d, none)
    | some k =>
      if d.eccOf (d.keyAddr slot) 128 ≠ 2 ∧ d.hbmRead (d.keyAddr slot) 128 = k.wrap then (d.entAsk 3, some k)
      else (({ d with keys := d.keys.erase slot } : Dev).bump (reg .key 0 0x200) |>.raise .key 0 0 10, none)

/-- A slot loaded: its wrapped image goes into the caddy region; while KEY_CFG.EN = 0 the slot stays empty (R432).
[log 96: DEDUCED] [log 98: DESIGN CHOICE] -/
def Dev.keyPut (d : Dev) (slot usage : Nat) (owner : Func) (key : List Byte) : Dev :=
  if !d.keyEn then d
  else
    let (d, gen) := (d.entAsk 3).fresh
    let (d, wrap) := d.drawBytes 128
    let d := (d.hbmWrite (d.keyAddr slot) wrap).eccClear (d.keyAddr slot) 128
    { d with keys := d.keys.put slot { usage := usage, owner := owner, key := key, gen := gen, wrap := wrap } }

/-- A new wrap key, drawn by DRBG instance 3 (R426, R430). -/
def Dev.wrapFresh (d : Dev) : Dev :=
  let (d, v) := (rangeFrom 0 8).foldl (fun (q : Dev × Nat) _ => let (d, r) := q.1.entDraw 3; (d, q.2 * p32 + r % p32)) (d, 0)
  { d with wrapKey := BitVec.ofNat 256 v }

/-- A KEK loaded. -/
def Dev.kekPut (d : Dev) (k : Nat) (owner : Func) (key : List Byte) : Dev :=
  let (d, gen) := d.fresh
  { d with keks := d.keks.put k { usage := 1, owner := owner, key := key, gen := gen } }

/-- Slots and KEKs a function owns (R545, R548). -/
def Dev.keysOwned (d : Dev) (f : Func) : Nat :=
  (d.keys.values.filter fun k => k.owner = f).length + (d.keks.values.filter fun k => k.owner = f).length

/-- A VF is at its key-slot quota (R428, R542). -/
def Dev.keyFull (d : Dev) (f : Func) : Bool := f.num ≠ 0 && decide (d.grantAt f 24 4 ≤ d.keysOwned f)

/-- Some operation under way holds a key of these generations (R430). -/
def Dev.keyHeld (d : Dev) (gens : List Nat) : Bool := gens.any fun g => decide (g ∈ d.keyHolds)

/-- An operation that has read a slot. -/
def Dev.keyHold (d : Dev) (g : Nat) : Dev := { d with keyHolds := g :: d.keyHolds }

/-- The end of an operation that had read a slot. -/
def Dev.keyDrop (d : Dev) (g : Nat) : Dev := { d with keyHolds := d.keyHolds.erase g }

/-- Every slot and KEK that satisfies `p` zeroised (R430); the generations zeroised. -/
def Dev.keyErase (d : Dev) (p : Nat → KeySlot → Bool) (q : Nat → KeySlot → Bool) : Dev × List Nat :=
  let gone := ((d.keys.filter p).values ++ (d.keks.filter q).values).map (·.gen)
  ({ d with keys := d.keys.filter fun n k => !p n k, keks := d.keks.filter fun n k => !q n k }, gone)

/-- Every slot and KEK of a function zeroised (R430, R431). -/
def Dev.keyEraseFunc (d : Dev) (f : Func) : Dev × List Nat := d.keyErase (fun _ k => k.owner = f) fun _ k => k.owner = f

/-- Every slot and every KEK zeroised, and the wrap key replaced (R430). -/
def Dev.keyEraseAll (d : Dev) : Dev × List Nat := d.wrapFresh.keyErase (fun _ _ => true) fun _ _ => true

/-! ### The load registers (R428, R430) -/

/-- KEY_LOAD_STATUS.BUSY. -/
def Dev.keyIsBusy (d : Dev) : Bool := d.keyBusy.isSome || d.keyPend.isSome

/-- The load data zeroised. -/
def Dev.keyDataClear (d : Dev) : Dev := { (rangeFrom 0 16).foldl (fun d i => d.wrN (reg .key 0 (0x140 + 4 * i)) 0) d with keyLoadAt := none }

/-- BUSY cleared, with LOAD_DONE and ZEROISE_DONE as `b` says (R435). -/
def Dev.keyDone (d : Dev) (b : KeyBusy) : Dev :=
  let d : Dev := { d with keyBusy := none }
  let d := if b.load then d.raise .key 0 0 8 else d
  if b.zero then d.raise .key 0 0 9 else d

/-- RESULT written and BUSY cleared, or held until no operation reads an old key, those of a command still busy included. -/
def Dev.keyEnd (d : Dev) (load : Bool) (res : Nat) (gens : List Nat) : Dev :=
  let o := d.keyBusy.getD {}
  let b : KeyBusy := { load := o.load || load, zero := o.zero || !load, gens := o.gens ++ gens }
  let d := d.setFld (reg .key 0 0x18C) 8 8 res
  if !b.zero && !d.keyHeld b.gens then d.keyDone b else { d with keyBusy := some b }

/-- LOAD of a plaintext key (R428); a VF without CRYPTO may own none (R543). [log 223: DEDUCED] [log 96: DEDUCED] -/
def Dev.keyLoad (d : Dev) (data : List Byte) : Dev :=
  let v := d.rd64 (reg .key 0 0x180)
  let kek := bitOf v 23
  let slot := if kek then bitsOf v 0 4 else bitsOf v 0 21
  let len := bitsOf v 24 7
  let usage := bitsOf v 32 2
  let f : Func := ⟨bitsOf v 48 1, bitsOf v 36 12⟩
  let (d, old) := if kek then (d, d.keks.find slot) else d.keyGet slot
  if d.unlocked ∨ (old.isSome ∧ ¬ bitOf v 49) then d.keyEnd true 0x05 []
  else if len = 0 ∨ 64 < len ∨ (kek ∧ len ≠ 32) ∨ usage = 0 then d.keyEnd true 0x35 []
  else if d.keyFull f ∧ (match old with | some k => decide (k.owner ≠ f) | none => true) = true then d.keyEnd true 0x20 []
  else if !d.fnExists f || !d.mayOwn f 2 then d.keyEnd true 0x04 []
  else
    let d := if kek then d.kekPut slot f (data.take len) else d.keyPut slot usage f (data.take len)
    d.keyEnd true 0 (match old with | some k => [k.gen] | none => [])

/-- A command of the load registers started (R428, R430). -/
def Dev.keyRun (d : Dev) (v : Nat) : Dev :=
  let data := (rangeFrom 0 16).flatMap fun i => toLE 4 (d.rdN (reg .key 0 (0x140 + 4 * i)))
  let d := d.keyDataClear
  let r := d.rd64 (reg .key 0 0x180)
  let d : Dev := { d with keyPend := none }
  if v = 1 then d.keyLoad data
  else if v = 2 then
    let q := if bitOf r 23 then d.keyErase (fun _ _ => false) (fun n _ => n = bitsOf r 0 4)
             else d.keyErase (fun n _ => n = bitsOf r 0 21) fun _ _ => false
    q.1.keyEnd false 0 q.2
  else if v = 4 then
    let q := d.keyEraseFunc ⟨bitsOf r 48 1, bitsOf r 36 12⟩
    q.1.keyEnd false 0 q.2
  else
    let q := d.keyEraseAll
    q.1.keyEnd false 0 q.2

/-- A write of KEY_LOAD_CMD (R428, R432, R671); a write without one of its four bits is a reserved encoding.
[log 207: DESIGN CHOICE] -/
def keyCmdW (d : Dev) (t : Tgt) : Dev :=
  let v := t.acc.data % 16
  if v ≠ 1 ∧ v ≠ 2 ∧ v ≠ 4 ∧ v ≠ 8 then d.refuse t 0x0001
  else if d.keyIsBusy then d.refuse t 0x0C01
  else if d.accepts .key 0 then d.keyRun v
  else { d with keyPend := some v }

/-- A command written while KEY took no work, once it does (R671). -/
def Dev.keyResume (d : Dev) : Dev :=
  match d.keyPend with
  | some v => if d.accepts .key 0 then d.keyRun v else d
  | none => d

/-- A write of KEY_LOAD_DATA or KEY_LOAD_SLOT, whole or in part (R47). -/
def keyLoadW (d : Dev) (t : Tgt) : Dev :=
  let d := d.store t
  if t.x = 0x180 then d else { d with keyLoadAt := some d.bounds }

/-- A write of KEY_CFG: setting EN marks every slot EMPTY, clearing it acts as ZEROISE_ALL (R432). -/
def keyCfgW (d : Dev) (t : Tgt) : Dev :=
  let was := d.keyEn
  let d := d.store t
  if d.keyEn && !was then { d with keys := {} }
  else if was && !d.keyEn then
    let q := d.keyEraseAll
    q.1.keyEnd false 0 q.2
  else d

/-- The SAs whose records HBM lists as not all zero in byte 2, VALID included: the only ones that can be valid. -/
def Dev.saListed (d : Dev) : List Nat :=
  let base := d.rd64 (reg .key 0 0x10100)
  let n := if d.saLog = 0 then 0 else 2 ^ d.saLog
  (d.hbm.keys.filter fun a => base ≤ a ∧ a < base + 256 * n ∧ (a - base) % 256 = 2).map fun a => (a - base) / 256

/-- Every valid SA that satisfies `p` invalidated. -/
def Dev.saInvalidate (d : Dev) (p : List Byte → Bool) : Dev :=
  d.saListed.foldl (fun d i =>
    let r := d.saRead i
    if saFlag r 0 ∧ p r then d.hbmWrite (d.saAddr i + 2) [byteN (byteAt r 2 / 2 * 2)] else d) d

/-- The packets under way on SAs that satisfy `p` go on under the record they were started with (R393). -/
def Dev.saDetach (d : Dev) (p : Nat → Bool) : Dev :=
  { d with lanes := d.lanes.mapVal fun _ l =>
      match l.active with
      | some r => if p r.job.sa then { l with active := some { r with detached := true } } else l
      | none => l }

/-- A write of KEY_BASE, or of a register of the SA region: LOG2 = 0 invalidates every SA (R432, R433). -/
def keyBaseW (d : Dev) (t : Tgt) : Dev :=
  if t.x = 0x108 then (if d.keyEn then d.refuse t 0x0C01 else d.store t)
  else if d.fld (reg .key 0 0x10108) 0 5 ≠ 0 ∧ ¬ (t.x = 0x10108 ∧ t.acc.data % 32 = 0) then d.refuse t 0x0C01
  else
    let d := if t.x = 0x10108 ∧ t.acc.data % 32 = 0 then (d.saInvalidate fun _ => true).saDetach fun _ => true else d
    let d := d.store t
    let n := d.fld (reg .key 0 0x10108) 0 5
    if n = 0 then
      if t.x = 0x10108 then { d with saHigh := {}, saHighReq := {}, saLimit := {}, saDone := {}, saTaken := {} } else d
    else if d.rd64 (reg .key 0 0x10100) + 256 * 2 ^ n ≤ hbmSize ∧ d.rd64 (reg .key 0 0x10110) + 512 * 2 ^ n ≤ hbmSize then d
    else (d.setFld (reg .key 0 0x10108) 0 5 0).raise .key 0 1 8

/-- LOAD (R428). -/
def execKeyLoad (pt : Party) (v : BitVec 32) (s : State) : Host.Outcome State Fault Refusal :=
  s.act fun d => d.ownWrite pt (reg .key 0 0x188) 4 (putBits v.toNat 0 1 1) keyCmdW

/-- ZEROISE_SLOT (R430). -/
def execZeroiseSlot (pt : Party) (v : BitVec 32) (s : State) : Host.Outcome State Fault Refusal :=
  s.act fun d => d.ownWrite pt (reg .key 0 0x188) 4 (putBits v.toNat 1 1 1) keyCmdW

/-- ZEROISE_FUNC (R430). -/
def execZeroiseFunc (pt : Party) (v : BitVec 32) (s : State) : Host.Outcome State Fault Refusal :=
  s.act fun d => d.ownWrite pt (reg .key 0 0x188) 4 (putBits v.toNat 2 1 1) keyCmdW

/-- ZEROISE_ALL (R430). -/
def execZeroiseAll (pt : Party) (v : BitVec 32) (s : State) : Host.Outcome State Fault Refusal :=
  s.act fun d => d.ownWrite pt (reg .key 0 0x188) 4 (putBits v.toNat 3 1 1) keyCmdW

/-- ZEROISE_DONE (R430): no operation holds an old key any longer, so BUSY clears. -/
def execZeroiseDone (s : State) : Host.Outcome State Fault Refusal :=
  s.act fun d =>
    match d.keyBusy with
    | some b => if d.keyHeld b.gens then d else d.keyDone b
    | none => d

/-- KEY_LOAD_DATA_EXPIRE (R428): 16 turns after the last data write with no command. -/
def execKeyLoadDataExpire (s : State) : Host.Outcome State Fault Refusal :=
  s.act fun d =>
    match d.keyLoadAt with
    | some t => if t + 16 ≤ d.bounds then d.keyDataClear else d
    | none => d

/-- KEY_ENABLE (R432): a write of KEY_CFG with EN = 1. -/
def execKeyEnable (pt : Party) (v : BitVec 32) (s : State) : Host.Outcome State Fault Refusal :=
  s.act fun d => d.ownWrite pt (reg .key 0 0x100) 4 (putBits v.toNat 0 1 1) keyCfgW

/-- KEY_DISABLE (R432): a write of KEY_CFG with EN = 0. -/
def execKeyDisable (pt : Party) (v : BitVec 32) (s : State) : Host.Outcome State Fault Refusal :=
  s.act fun d => d.ownWrite pt (reg .key 0 0x100) 4 (putBits v.toNat 0 1 0) keyCfgW

/-- SA_REGION_DISABLE (R433): a write of KEY_SA_CFG with LOG2 = 0. -/
def execSaRegionDisable (pt : Party) (v : BitVec 32) (s : State) : Host.Outcome State Fault Refusal :=
  s.act fun d => d.ownWrite pt (reg .key 0 0x10108) 4 (putBits v.toNat 0 5 0) keyBaseW

/-! ### Commands on LOOK rings -/

/-- The piece of work of a LOOK ring that a key or SA command with an opcode acts on: the first that has not started or
is itself under way, when it has the opcode; jobs already on lanes are passed over (R385). -/
def Dev.lookHead (d : Dev) (r op : Nat) : Option Work :=
  match (d.ring r).work.find? fun w => w.done.isNone && w.note ≠ [1] && (!w.started || decide (0x20 ≤ w.opcode)) with
  | some w => if w.opcode = op then some w else none
  | none => none

/-- A key or SA command, run by the key controller while KEY accepts work (R385, R671). -/
def Dev.keyWork (d : Dev) (r op : Nat) (f : Dev → Work → Dev) : Dev :=
  match d.lookHead r op with
  | some w =>
    if d.ringKind r ≠ 3 ∨ ¬ d.accepts .key 0 then d
    else if w.entry.length ≠ 32 then d.finish r w.id 0x01
    else f d w
  | none => d

/-- The index in bytes 12 to 15 of a command. -/
def keyIndex (w : Work) : Nat := leAt w.entry 12 4 % 2097152

/-- A command completes, or waits until no operation holds a key of these generations (R430). -/
def Dev.keyFinish (d : Dev) (w : Work) (st : Nat) (gens : List Nat) : Dev :=
  if d.keyHeld gens then d.setWork w.ring w.id fun x => { x with started := true, waiting := [], note := 3 :: gens }
  else d.finish w.ring w.id st

/-- A command that waits for old keys completes once none is held. -/
def Dev.keyWaits (d : Dev) (w : Work) (f : Dev) : Dev :=
  match w.note with
  | 3 :: gens => if d.keyHeld gens then d else d.finish w.ring w.id 0
  | _ => f

/-- KEY_UNWRAP (R429): the first run reads the blob, the run after its data has come unwraps it. [log 97: DEDUCED] -/
def execKeyUnwrap (r : Nat) (s : State) : Host.Outcome State Fault Refusal :=
  s.act fun d => d.keyWork r 0x30 fun d w => d.keyWaits w <|
    let f := d.ringFunc r
    let len := leAt w.entry 8 4
    let usage := byteAt w.entry 24 % 4
    if d.unlocked then d.finish r w.id 0x05
    else if len < 29 ∨ 92 < len ∨ usage = 0 then d.finish r w.id 0x35
    else if !w.started then (d.setWork r w.id fun x => { x with started := true }).workRead w 0 (leAt w.entry 16 8) len
    else if w.waiting ≠ [] then d
    else
      let blob := slice w.allData 0 len
      let (d, old) := d.keyGet (keyIndex w)
      let aad := [byteN (len - 28), byteN usage] ++ zeros 6
      match d.keks.find (byteAt w.entry 2 % 16) with
      | none => d.finish r w.id 0x04
      | some k =>
        let ct := slice blob 12 (len - 28)
        if k.owner ≠ f ∧ k.owner ≠ pf0 f.link then d.finish r w.id 0x04
        else if (match old with | some o => decide (o.owner ≠ f) | none => false) = true then d.finish r w.id 0x04
        else if old.isSome ∧ byteAt w.entry 3 % 2 = 0 then d.finish r w.id 0x05
        else if old.isNone ∧ d.keyFull f then d.finish r w.id 0x20
        else if gcmTag k.key (blob.take 12) aad ct ≠ slice blob (len - 16) 16 then (d.entAsk 3).finish r w.id 0x10
        else
          ((d.entAsk 3).keyPut (keyIndex w) usage f (gcmCrypt k.key (blob.take 12) ct)).keyFinish w 0
            (match old with | some o => [o.gen] | none => [])

/-- KEY_ZEROISE (R429, R430). -/
def execKeyZeroise (r : Nat) (s : State) : Host.Outcome State Fault Refusal :=
  s.act fun d => d.keyWork r 0x31 fun d w => d.keyWaits w <|
    let f := d.ringFunc r
    if byteAt w.entry 3 % 2 = 1 then
      let q := d.keyEraseFunc f
      q.1.keyFinish w 0 q.2
    else
      let (d, old) := d.keyGet (keyIndex w)
      if (match old with | some k => decide (k.owner ≠ f) | none => false) = true then d.finish r w.id 0x04
      else
        let q := d.keyErase (fun n _ => n = keyIndex w) fun _ _ => false
        q.1.keyFinish w 0 q.2

/-- KEY_INFO (R429). -/
def execKeyInfo (r : Nat) (s : State) : Host.Outcome State Fault Refusal :=
  s.act fun d => d.keyWork r 0x32 fun d w =>
    match d.keyGet (keyIndex w) with
    | (d, none) => d.finish r w.id 0
    | (d, some k) =>
      if k.owner = d.ringFunc r then
        d.finish r w.id 0 ([1, byteN k.key.length, byteN k.usage, 0] ++ toLE 2 (ownerField k.owner) ++ zeros 2)
      else d.finish r w.id 0x04

/-! ### Security associations (R391 to R394) -/

/-- The record holds a reserved encoding (R391). -/
def saReserved (r : List Byte) : Bool :=
  let k := saKind r
  let w := leAt r 56 2
  let ol := byteAt r 3
  let alg := byteAt r 1
  decide (5 ≤ k) ||
    ((k = 1 || k = 3) && !(w = 0 || (decide (64 ≤ w ∧ w ≤ 4096) && decide (w % 64 = 0)))) ||
    (k = 2 && saFlag r 1 && !((ol = 20 && byteAt r 64 / 16 = 4) || (ol = 40 && byteAt r 64 / 16 = 6))) ||
    ((k = 1 || k = 2) && (saFlag r 3 || !(alg = 1 || alg = 2 || alg = 0x0D))) ||
    ((k = 3 || k = 4) && alg ≠ 2)

/-- The first 160 B of a record with its reserved fields zero (R16, R391). -/
def saShown (r : List Byte) : List Byte :=
  splice (splice (keepBits (keepBits (keepBits (keepBits (slice r 0 160) 0 1 4) 2 1 5) 4 4 21) 58 2 13) 60 (zeros 4)) 104 (zeros 24)

/-- A 64-bit field of a record in HBM written. -/
def Dev.saPut (d : Dev) (s off v : Nat) : Dev := d.hbmWrite (d.saAddr s + off) (toLE 8 v)

/-- A counter of a record increased, wrapping. -/
def Dev.saBump (d : Dev) (s off n : Nat) : Dev := d.saPut s off ((leAt (d.saRead s) off 8 + n) % p64)

/-- A function may act on an SA of an owner (R392). -/
def Dev.saMay (d : Dev) (f owner : Func) : Bool :=
  decide (f = owner) || (f.num = 0 && (decide (f.link = d.primary) || decide (owner.link = f.link)))

/-- The SA group of the pair is ACTIVE. -/
def Dev.saActive (d : Dev) : Bool := d.groupActive (d.groupKind 3)

/-- An SA record mirrored (R581). -/
def Dev.saMirror (d : Dev) (s : Nat) : Dev :=
  if saFlag (d.saRead s) 4 && d.saActive then d.mirror 0 2 (toBE 4 s ++ (d.saRead s).take 128) else d

/-- The mark HIGH of an inbound SA moved to `v`, at once or when the partner has acknowledged it (R589). -/
def Dev.saMarkNow (d : Dev) (s v : Nat) : Dev :=
  if d.saActive then
    let d := d.mirror 0 4 (toBE 4 s ++ toBE 8 v)
    ({ d with saHighReq := d.saHighReq.put s v } : Dev).pairWait 0 (.high s v)
  else { d with saHigh := d.saHigh.put s v, saHighReq := d.saHighReq.put s v }

/-- The same where the mirror stream has room; otherwise it waits (R579). -/
def Dev.saMark (d : Dev) (s v : Nat) : Dev := if d.saActive && d.pairFull then d.mirrorStall else d.saMarkNow s v

/-- Acknowledgements of ranges and marks of an SA's record, which a new record replaces, count no more (R587, R589). -/
def Dev.saForget (d : Dev) (s : Nat) : Dev :=
  { d with pair := { d.pair with s0 := { d.pair.s0 with waits := d.pair.s0.waits.filter fun w => match w.2 with
      | .range x => decide (x ≠ s)
      | .high x _ => decide (x ≠ s)
      | _ => true } } }

/-- An SA command on an index that exists, of a function that may act on its record: a new SA, in the place of one that is not
valid, is anyone's to write (R392).  A change waits for the standby role and the room of the mirror stream. -/
def Dev.saCommand (d : Dev) (r op : Nat) (f : Dev → Work → Dev) : Dev :=
  d.keyWork r op fun d w =>
    let s := keyIndex w
    if !d.saExists s then d.finish r w.id 0x35
    else
      let rec_ := d.saRead s
      if (op ≠ 0x20 || saFlag rec_ 0) && !d.saMay (d.ringFunc r) (saOwner rec_) then d.finish r w.id 0x04
      else if op ≠ 0x21 && saFlag rec_ 0 && saFlag rec_ 4 && d.standsBy (d.groupKind 3) then d.finish r w.id 0x05
      else if op ≠ 0x21 && d.saActive && d.pairFull then d.mirrorStall
      else f d w

/-- A new record written over SA `s` (R392, R393, R403, R589). -/
def Dev.saWrite (d : Dev) (s : Nat) (new old : List Byte) (keep : Bool) : Dev :=
  let new := if keep then splice new 32 (slice old 32 16)
             else if saOut new then splice new 40 (slice new 32 8) else new
  let d := d.saDetach fun i => decide (i = s) && (!keep || decide (saKind new ≠ saKind old))
  let d := d.hbmWrite (d.saAddr s) new
  let d := if keep then d
    else
      let d := ((d.hbmWrite (d.saAddr s + 128) (zeros 32)).hbmWrite (d.rplAddr s) (zeros 512)).saForget s
      { d with saLimit := d.saLimit.erase s, saDone := d.saDone.erase s, saTaken := d.saTaken.erase s,
               saHigh := d.saHigh.erase s, saHighReq := d.saHighReq.erase s }
  let d := d.saMirror s
  if saFlag new 4 && (saKind new = 1 || saKind new = 3) && saFlag new 0 then d.saMarkNow s ((saSeq new + 16384) % p64) else d

/-- SA_WRITE (R392): the first run reads 128 B from REF, the run after its data has come writes the record. -/
def execSaWrite (r : Nat) (s : State) : Host.Outcome State Fault Refusal :=
  s.act fun d => d.saCommand r 0x20 fun d w =>
    if !w.started then (d.setWork r w.id fun x => { x with started := true }).workRead w 0 (leAt w.entry 16 8) 128
    else if w.waiting ≠ [] then d
    else
      let i := keyIndex w
      let old := d.saRead i
      let owner := if saFlag old 0 then saOwner old else d.ringFunc r
      let new := splice (slice w.allData 0 128) 58 (toLE 2 (ownerField owner))
      let keep := byteAt w.entry 3 % 2 = 1
      if saReserved new then d.finish r w.id 0x01
      else if saFlag new 4 && d.standsBy (d.groupKind 3) then d.finish r w.id 0x05
      else match d.keyGet (saSlot new) with
        | (d, none) => d.finish r w.id 0x04
        | (d, some k) =>
          if k.owner ≠ owner then d.finish r w.id 0x04
          else if !keep && saFlag old 0 && saOut old && saSlot old = saSlot new && decide (saSeq new < saResv old) then
            d.finish r w.id 0x05
          else
            let n0 := d.pair.s0.next
            (d.saWrite i new old (keep && saFlag old 0)).finishMirrored n0 r w.id 0 []

/-- SA_READ (R392). -/
def execSaRead (r : Nat) (s : State) : Host.Outcome State Fault Refusal :=
  s.act fun d => d.saCommand r 0x21 fun d w =>
    d.finishPut r w.id (leAt w.entry 16 8) (saShown (d.saRead (keyIndex w)))

/-- SA_INVALIDATE (R392). -/
def execSaInvalidate (r : Nat) (s : State) : Host.Outcome State Fault Refusal :=
  s.act fun d => d.saCommand r 0x22 fun d w =>
    let i := keyIndex w
    let n0 := d.pair.s0.next
    let fl := byteAt (d.saRead i) 2
    ((d.hbmWrite (d.saAddr i + 2) [byteN (fl / 2 * 2)]).saMirror i).finishMirrored n0 r w.id 0 []

/-- Every SA of a function invalidated (R431). -/
def Dev.saInvalidateFunc (d : Dev) (f : Func) : Dev := d.saInvalidate fun r => saOwner r = f

/-! ### Packet numbers (R402 to R405) -/

/-- An event of an SA (R404). -/
def Dev.saEvent (d : Dev) (kind s seq : Nat) : Dev :=
  (d.evtVia (reg .key 0 0x10118) ([0xA1, byteN kind, 0, 0] ++ toLE 4 s ++ toLE 8 seq ++ toLE 8 d.turn ++ zeros 8)).1

/-- The next range of an outbound SA reserved, when SEQ has reached RESV_END - 2^18 (R402). -/
def Dev.saReserve (d : Dev) (s : Nat) : Dev :=
  let r := d.saRead s
  if saSeq r + 262144 < saResv r then d
  else if saFlag r 4 && d.saActive && d.pairFull then d.mirrorStall
  else
    let e := min (p64 - 1) (saResv r + 1048576)
    let d := d.saPut s 40 e
    if saFlag r 4 && d.saActive then
      let d := d.mirror 0 3 (toBE 4 s ++ toBE 8 e)
      let d : Dev := { d with saLimit := d.saLimit.put s ((d.saLimit.find s).getD (saResv r)) }
      d.pairWait 0 (.range s)
    else d

/-- What a packet of an outbound SA finds (R402, R405). -/
inductive NumRes where
  | wait
  | exhausted
  | number (q : Nat)
deriving DecidableEq, Repr

/-- The exhaustion of an SA, raised once (R405). [log 100: DEDUCED] -/
def Dev.saExhaust (d : Dev) (s seq : Nat) : Dev :=
  if d.saDone.getD s false then d else ({ d with saDone := d.saDone.put s true } : Dev).saEvent 0x61 s seq

/-- A number taken from an outbound SA (R399, R402, R405). -/
def Dev.saNumber (d : Dev) (s : Nat) : Dev × NumRes :=
  let d := d.saReserve s
  let r := d.saRead s
  let q := saSeq r
  if d.saDone.getD s false ∨ saTop r < q then (d.saExhaust s q, .exhausted)
  else if (match d.saLimit.find s with | some l => decide (l ≤ q) | none => decide (saResv r ≤ q ∧ q ≠ p64 - 1)) = true then (d, .wait)
  else
    let d := d.saPut s 32 ((q + 1) % p64)
    let d := if (q + 1) % p64 = leAt r 48 8 then d.saEvent 0x60 s ((q + 1) % p64) else d
    let d := if saTop r < q + 1 then d.saExhaust s ((q + 1) % p64) else d.saReserve s
    (d, .number q)

/-! ### Anti-replay (R397, R589) -/

/-- The sequence number a received low half stands for (R396); its high half has 32 bits, as T's. [log 194: DEDUCED] -/
def seqOf (esn : Bool) (t w low : Nat) : Nat :=
  if !esn then low
  else
    let tl := t % p32
    let th := t / p32
    let seqh :=
      if w - 1 ≤ tl then (if tl + 1 - w ≤ low then th else th + 1)
      else if (tl + 1 + p32 - w) % p32 ≤ low then th + p32 - 1
      else th
    seqh % p32 * p32 + low

/-- Bit `q mod 4096` of the window of an SA. -/
def Dev.rplBit (d : Dev) (s q : Nat) : Bool := bitOf ((d.hbm.getD (d.rplAddr s + q % 4096 / 8) 0).toNat) (q % 8)

/-- A bit of the window of an SA written. -/
def Dev.rplSet (d : Dev) (s q : Nat) (v : Bool) : Dev :=
  let a := d.rplAddr s + q % 4096 / 8
  d.hbmWrite a [byteN (putBits (d.hbm.getD a 0).toNat (q % 8) 1 (b2n v))]

/-- The first check of anti-replay fails (R397). -/
def Dev.rplBad (d : Dev) (s q : Nat) : Bool :=
  let r := d.saRead s
  q = 0 || decide (q + saWindow r ≤ saSeq r) || (decide (q ≤ saSeq r) && d.rplBit s q)

/-- The mark of a mirrored inbound SA moves on when T comes near it (R589). -/
def Dev.rplAdvance (d : Dev) (s : Nat) : Dev :=
  let r := d.saRead s
  match saFlag r 4, d.saHighReq.find s with
  | true, some h => if h ≤ saSeq r + 8192 then d.saMark s (h + 16384) else d
  | _, _ => d

/-- The second check and the update of T and the window (R397), under the record `r` read at the start (R393): none when the
number has been taken meanwhile. -/
def Dev.rplAccept (d : Dev) (s q : Nat) (r : List Byte) : Option Dev :=
  let t := saSeq (d.saRead s)
  if decide (q ≤ t) && d.rplBit s q then none
  else if q ≤ t then some (d.rplSet s q true)
  else
    let n := min (saWindow r - 1) (q - 1 - t)
    let d := (rangeFrom (q - n) n).foldl (fun d x => d.rplSet s x false) d
    let d := (d.rplSet s q true).saPut s 32 q
    some (d.rplAdvance s)

/-- A number above the acknowledged mark of a mirrored inbound SA waits (R589). -/
def Dev.rplWaits (d : Dev) (s q : Nat) : Bool :=
  saFlag (d.saRead s) 4 && d.saActive && (match d.saHigh.find s with | some h => decide (h < q) | none => true)

/-- The first packet of an inbound SA after a takeover: T := HIGH and every bit of the window set, and the next mark is mirrored
(R589). -/
def Dev.rplTakeover (d : Dev) (s : Nat) : Dev :=
  if d.saTaken.getD s false then
    let d : Dev := { d with saTaken := d.saTaken.erase s }
    match d.saHigh.find s with
    | some h => ((d.saPut s 32 h).hbmWrite (d.rplAddr s) (List.replicate 512 0xFF)).rplAdvance s
    | none => d
  else d

/-- The reason an SA cannot be used by KIND or key (R394), with its key. -/
def Dev.saUsable (d : Dev) (s : Nat) (kinds : List Nat) : Dev × Except Nat KeySlot :=
  let r := d.saRead s
  if !d.saExists s || !saFlag r 0 then (d, .error 0)
  else if saKind r ∉ kinds then (d, .error 1)
  else match d.keyGet (saSlot r) with
    | (d, none) => (d, .error 2)
    | (d, some k) =>
      if k.owner ≠ saOwner r ∨ k.usage % 2 = 0 ∨ k.key.length ≠ saKeyLen (byteAt r 1) then (d, .error 3) else (d, .ok k)

end Sys2Proof.Machine
end

