-- ==== Sys2Proof/Machine/Cipher.lean ====
section
/-! DEFINITION. The inline cluster with ESP, lookaside jobs, the entropy source (R384 to R401, R412 to R425). -/

namespace Sys2Proof.Machine

/-! ### Headers around a protected part -/

/-- A frame in which `growth` bytes were put in, or taken out, behind the headers of `hs` (kind, start, length): their
lengths and checksums are set, the innermost first (R272, R398). -/
def fixHeaders (old : List Byte) (growth : Int) : List Byte → List (Nat × Nat × Nat) → List Byte
  | new, [] => new
  | new, (k, a, _) :: hs =>
    let new :=
      if k = 1 then
        let x := splice new (a + 2) (toBE 2 (((beAt old (a + 2) 2 : Nat) : Int) + growth).toNat)
        splice x (a + 10) (toBE 2 (checksumUpdate (beAt old (a + 10) 2)
          (sum16 (zeroAt (slice old a (byteAt old a % 16 * 4)) 10)) (sum16 (zeroAt (slice x a (byteAt x a % 16 * 4)) 10))))
      else if k = 2 then splice new (a + 4) (toBE 2 (((beAt old (a + 4) 2 : Nat) : Int) + growth).toNat)
      else if k = 3 then
        let len := (((beAt old (a + 4) 2 : Nat) : Int) + growth).toNat
        let x := splice new (a + 4) (toBE 2 len)
        if beAt old (a + 6) 2 = 0 then x
        else splice x (a + 6) (toBE 2 (udpNonzero 3 (checksumUpdate (beAt old (a + 6) 2)
          (sum16 (zeroAt (slice old a (beAt old (a + 4) 2)) 6) + beAt old (a + 4) 2)
          (sum16 (zeroAt (slice x a len) 6) + len))))
      else new
    fixHeaders old growth new hs

/-- The byte of a header that names the next header (R398, R399). -/
def nextOff (kind : Nat) : Nat := if kind = 1 then 9 else if kind = 2 then 6 else 0

/-! ### ESP (R395 to R399) -/

/-- The nonce of an ESP packet: SALT then the IV (R395). -/
def espNonce (rec_ iv : List Byte) : List Byte := slice rec_ 8 4 ++ iv

/-- The AAD of an ESP packet (R395). -/
def espAad (rec_ : List Byte) (spi q : Nat) : List Byte :=
  if saFlag rec_ 2 then toBE 4 spi ++ toBE 4 (q / p32) ++ toBE 4 q else toBE 4 spi ++ toBE 4 q

/-- Where the ESP header of an ESP_IN packet stands, when the packet meets the conditions of R396. -/
def espPlace (j : InlineJob) : Option Nat :=
  match j.stack.getLast? with
  | some (_, a, n) =>
    let c := j.pad - j.pstart - 24
    if n = 8 ∧ a + 8 = j.pstart ∧ j.pstart + 26 ≤ j.pad ∧ c ≤ 16384 ∧ j.pad ≤ j.pkt.data.length then some a else none
  | none => none

/-- The nearest header of kind IPV4 or IPV6 in a stack given innermost first. -/
def nearestIp (hs : List (Nat × Nat × Nat)) : Option (Nat × Nat × Nat) := hs.find? fun h => decide (h.1 = 1 ∨ h.1 = 2)

/-- The output of an ESP_IN packet from its decrypted part; none is a FORMAT case (R398). -/
def espInOut (j : InlineJob) (rec_ : List Byte) (esp : Nat) (pt : List Byte) : Option (List Byte) :=
  let n := pt.length
  let padLen := byteAt pt (n - 2)
  let nh := byteAt pt (n - 1)
  let data := j.pkt.data
  let before := j.stack.reverse.drop 1
  if n < padLen + 2 then none
  else
    let m := n - 2 - padLen
    let inner := pt.take m
    if (pt.drop m).take padLen ≠ (rangeFrom 1 padLen).map byteN then none
    else if saFlag rec_ 1 then
      match nearestIp before with
      | none => none
      | some (_, a, _) =>
        if nh ≠ 4 ∧ nh ≠ 41 then none
        else
          let out := data.take a ++ inner
          let out := if 2 ≤ a then splice out (a - 2) (toBE 2 (if nh = 4 then 0x0800 else 0x86DD)) else out
          some (fixHeaders data ((out.length : Int) - (j.pad : Int)) out (before.filter fun h => decide (h.2.1 < a)))
    else
      match before with
      | [] => none
      | (k, a, _) :: _ =>
        if 3 ≤ k then none
        else
          let out := splice (data.take esp ++ inner) (a + nextOff k) [byteN nh]
          some (fixHeaders data ((out.length : Int) - (j.pad : Int)) out before)

/-- The protected part of an ESP_OUT packet: where it begins, the next header its trailer names, the IP header's kind
and start; none is a FORMAT case (R399). -/
def espOutPart (j : InlineJob) (rec_ : List Byte) : Option (Nat × Nat × Nat × Nat) :=
  match j.stack.find? fun h => decide (h.1 = 1 ∨ h.1 = 2) with
  | none => none
  | some (k, a, n) =>
    let p := if saFlag rec_ 1 then a else a + n
    let nh := if saFlag rec_ 1 then (if k = 1 then 4 else 41) else byteAt j.pkt.data (a + nextOff k)
    let m := j.pad - p + 2
    if p ≤ j.pad ∧ j.pad ≤ j.pkt.data.length ∧ m + (4 - m % 4) % 4 ≤ 16384 then some (p, nh, k, a) else none

/-- The output of an ESP_OUT packet with number `q` (R399). -/
def espOutOut (j : InlineJob) (rec_ key : List Byte) (q p nh k a : Nat) : List Byte :=
  let data := j.pkt.data
  let body := (data.drop p).take (j.pad - p)
  let pad := (4 - (body.length + 2) % 4) % 4
  let pt := body ++ (rangeFrom 1 pad).map byteN ++ [byteN pad, byteN nh]
  let spi := leAt rec_ 20 4
  let iv := toBE 8 q
  let nonce := espNonce rec_ iv
  let ct := aeadCrypt (byteAt rec_ 1) key nonce pt
  let tag := aeadTag (byteAt rec_ 1) key nonce (espAad rec_ spi q) ct
  let esp := toBE 4 spi ++ toBE 4 q ++ iv ++ ct ++ tag
  if saFlag rec_ 1 then
    let ol := byteAt rec_ 3
    let outer := slice rec_ 64 ol
    let outer :=
      if ol = 20 then
        let o := zeroAt (splice (splice outer 2 (toBE 2 (20 + esp.length))) 9 [50]) 10
        splice o 10 (toBE 2 (checksum o))
      else splice (splice outer 4 (toBE 2 esp.length)) 6 [50]
    let head := data.take a
    let head := if 2 ≤ a then splice head (a - 2) (toBE 2 (if ol = 20 then 0x0800 else 0x86DD)) else head
    let out := head ++ outer ++ esp
    fixHeaders data ((out.length : Int) - (j.pad : Int)) out ((j.stack.takeWhile fun h => decide (h.2.1 < a)).reverse)
  else
    let out := splice (data.take p) (a + nextOff k) [50] ++ esp
    fixHeaders data ((out.length : Int) - (j.pad : Int)) out ((j.stack.takeWhile fun h => decide (h.2.1 < p)).reverse)

/-! ### The inline cluster (R386, R387, R394, R400, R401) -/

/-- A packet counted in PKTS and BYTES of its SA (R391), and in AUTH_FAILS or REPLAYS with class 9 or 10 (R401), while the SA is
valid. [log 90: DEDUCED] -/
def Dev.saCount (d : Dev) (s n : Nat) (cls : Option Nat) : Dev :=
  if d.saExists s && saFlag (d.saRead s) 0 then
    let d := (d.saBump s 128 1).saBump s 136 n
    match cls with
    | some c => d.saBump s (if c = 9 then 144 else 152) 1
    | none => d
  else d

/-- A packet of the inline cluster ended under R401 with class 9 or 10. -/
def Dev.inlineEnd (d : Dev) (j : InlineJob) (cls : Nat) (detached : Bool := false) : Dev :=
  let d := if detached then d else d.saCount j.sa j.pkt.data.length (some cls)
  let d := if cls = 10 then d.bump (cipCount 0 0x118) else d
  let d := (d.bump (cipCount 0 0x100)).bump (cipCount 0 0x108) j.pkt.data.length
  d.applyDefault j.pipe j.rules j.pkt cls j.admitted

/-- An SA that cannot be used (R394). -/
def Dev.inlineUnusable (d : Dev) (j : InlineJob) (reason : Nat) (detached : Bool := false) : Dev :=
  (d.bump (cipCount 0 (0x140 + 8 * reason))).inlineEnd j 9 detached

/-- A lane takes a packet into work. -/
def Dev.inlineRun (d : Dev) (lane : Nat) (j : InlineJob) (k : KeySlot) (q units : Nat) : Dev :=
  let d := (d.keyHold k.gen).entAsk 0
  let l := d.lane 0 lane
  let r : InlineRun := { job := j, rec_ := d.saRead j.sa, key := k.key, gen := k.gen, q := q, units := units, started := d.bounds }
  d.setLane 0 lane { l with active := some r }

/-- The head packet of a lane removed from its queue. -/
def Dev.lanePop (d : Dev) (lane : Nat) : Dev :=
  let l := d.lane 0 lane
  d.setLane 0 lane { l with queue := l.queue.drop 1 }

/-- An ESP_IN packet at its start (R396, R397, R589): `d0` is the device to stay in when it must wait. -/
def Dev.startIn (d : Dev) (lane : Nat) (j : InlineJob) (k : KeySlot) (d0 : Dev) : Dev :=
  let r := d.saRead j.sa
  match espPlace j with
  | none => (d.lanePop lane).inlineUnusable j 6
  | some e =>
    if beAt j.pkt.data e 4 ≠ leAt r 20 4 then (d.lanePop lane).inlineUnusable j 4
    else
      let d := d.rplTakeover j.sa
      let q := seqOf (saFlag r 2) (saSeq (d.saRead j.sa)) (saWindow r) (beAt j.pkt.data (e + 4) 4)
      if d.rplWaits j.sa q then d0
      else if d.rplBad j.sa q then (d.lanePop lane).inlineEnd j 10
      else
        let c := j.pad - j.pstart - 24
        match d.holdRoom 0 (ceilDiv c 256) with
        | (d, true) => (d.lanePop lane).inlineRun lane j k q (ceilDiv c 256)
        | (d, false) => d

/-- An ESP_OUT packet at its start (R399, R402, R405). -/
def Dev.startOut (d : Dev) (lane : Nat) (j : InlineJob) (k : KeySlot) : Dev :=
  match espOutPart j (d.saRead j.sa) with
  | none => (d.lanePop lane).inlineUnusable j 6
  | some _ =>
    match d.saNumber j.sa with
    | (d, .wait) => d
    | (d, .exhausted) => (d.lanePop lane).inlineUnusable j 5
    | (d, .number q) => (d.lanePop lane).inlineRun lane j k q 0

/-- INLINE_START (R387, R394): the head packet of a lane, once the lane is free and randomness runs (R424). -/
def execInlineStart (lane : Nat) (s : State) : Host.Outcome State Fault Refusal :=
  s.act fun d =>
    let l := d.lane 0 lane
    match l.queue with
    | [] => d
    | j :: _ =>
      if l.active.isSome ∨ l.fenced.isSome ∨ ¬ d.accepts .cip 0 ∨ ¬ d.entRuns 0 then d
      else match d.saUsable j.sa [1, 2] with
        | (d, .error e) => (d.lanePop lane).inlineUnusable j e
        | (d, .ok k) => if saKind (d.saRead j.sa) = 1 then d.startIn lane j k d else d.startOut lane j k

/-- The output of the inline cluster goes round the leat in fresh cells (R400, R361); the device waits where there are
none (R360). -/
def Dev.inlineRelease (d : Dev) (r : InlineRun) (out : List Byte) (done : Dev → Dev) : Option Dev :=
  let j := r.job
  let n := cellsFor out.length
  (d.cellAlloc j.pkt.src n).map fun d =>
    let d := d.cellFree j.pkt.src n
    let (d, p) := d.recharge j.pkt n
    let d := done d
    let q := d.pipe j.pipe
    let d := d.setPipe j.pipe { q with leats := q.leats ++ [{ p with data := out }] }
    let d := if r.detached then d else d.saCount j.sa j.pkt.data.length none
    (d.bump (cipCount 0 0x100)).bump (cipCount 0 0x108) j.pkt.data.length

/-- The lane is free again, and the key let go. -/
def Dev.laneDone (d : Dev) (lane : Nat) (r : InlineRun) : Dev :=
  let l := d.lane 0 lane
  (d.setLane 0 lane { l with active := none }).keyDrop r.gen

/-- The second check of anti-replay for a packet: the window of a record that has been replaced is gone, and only this packet
could have changed it (R386, R393, R397). -/
def Dev.runAccept (d : Dev) (r : InlineRun) : Option Dev := if r.detached then some d else d.rplAccept r.job.sa r.q r.rec_

/-- The end of an ESP_IN packet (R397, R398, R401, R417). -/
def Dev.endIn (d : Dev) (lane : Nat) (r : InlineRun) : Dev :=
  let j := r.job
  match espPlace j with
  | none => (d.laneDone lane r).inlineUnusable j 6 r.detached
  | some e =>
    let iv := slice j.pkt.data j.pstart 8
    let ct := slice j.pkt.data (j.pstart + 8) (j.pad - j.pstart - 24)
    let nonce := espNonce r.rec_ iv
    let alg := byteAt r.rec_ 1
    if aeadTag alg r.key nonce (espAad r.rec_ (leAt r.rec_ 20 4) r.q) ct ≠ slice j.pkt.data (j.pad - 16) 16 then
      ((d.laneDone lane r).bump (cipCount 0 0x110)).inlineEnd j 9 r.detached
    else
      match d.runAccept r with
      | none => (d.laneDone lane r).inlineEnd j 10
      | some d' =>
        match espInOut j r.rec_ e (aeadCrypt alg r.key nonce ct) with
        | none => (d'.laneDone lane r).inlineUnusable j 6 r.detached
        | some out => (d'.inlineRelease r out fun d => d.laneDone lane r).getD d

/-- The end of an ESP_OUT packet (R399, R400). -/
def Dev.endOut (d : Dev) (lane : Nat) (r : InlineRun) : Dev :=
  match espOutPart r.job r.rec_ with
  | none => (d.laneDone lane r).inlineUnusable r.job 6 r.detached
  | some (p, nh, k, a) =>
    (d.inlineRelease r (espOutOut r.job r.rec_ r.key r.q p nh k a) fun d => d.laneDone lane r).getD d

/-- INLINE_COMPLETE (R400, R401): the packet a lane has started, while randomness runs (R424). -/
def execInlineComplete (lane : Nat) (s : State) : Host.Outcome State Fault Refusal :=
  s.act fun d =>
    match (d.lane 0 lane).active with
    | none => d
    | some r => if !d.entRuns 0 then d else if saKind r.rec_ = 1 then d.endIn lane r else d.endOut lane r

/-! ### Lookaside jobs (R412 to R415) -/

/-- FLAGS.ETM of a job; it acts on ENCRYPT and DECRYPT (R413). [log 224: DEDUCED] -/
def jobEtm (w : Work) : Bool := bitOf (byteAt w.entry 3) 0 && decide (w.opcode ≤ 2)

/-- FLAGS.PKCS7 of a job. -/
def jobPkcs7 (w : Work) : Bool := bitOf (byteAt w.entry 3) 1

/-- AAD_LEN of a job. -/
def jobAadLen (w : Work) : Nat := leAt w.entry 64 4

/-- An AEAD. -/
def algAead (a : Nat) : Bool := a = 1 || a = 2 || a = 0x0D

/-- XTS, CTR or CBC. -/
def algPlain (a : Nat) : Bool := decide (5 ≤ a ∧ a ≤ 10)

/-- CBC. -/
def algCbc (a : Nat) : Bool := a = 9 || a = 10

/-- XTS. -/
def algXts (a : Nat) : Bool := a = 5 || a = 6

/-- CMAC or HMAC. -/
def algMac (a : Nat) : Bool := a = 0x0B || a = 0x0C || a = 0x13 || a = 0x14 || a = 0x15

/-- A digest. -/
def algHash (a : Nat) : Bool := a = 0x10 || a = 0x11 || a = 0x12

/-- IV_LEN that R388 requires. -/
def algIv (a : Nat) : Nat := if algAead a || algGmac a then 12 else if algPlain a then 16 else 0

/-- Bytes of the tag or digest (R388). -/
def algTag (a : Nat) : Nat :=
  if algAead a || algGmac a || a = 0x0B || a = 0x0C then 16 else if a = 0x11 ∨ a = 0x14 then 64 else if algPlain a then 0 else 32

/-- A key length suits an algorithm (R388). -/
def algKeyOk (a n : Nat) : Bool :=
  if a = 1 ∨ a = 3 ∨ a = 7 ∨ a = 9 ∨ a = 0x0B then n = 16
  else if a = 6 then n = 64
  else if a = 0x13 ∨ a = 0x14 ∨ a = 0x15 then decide (1 ≤ n ∧ n ≤ 64)
  else n = 32

/-- The combination of an opcode and an algorithm exists (R413, R414). -/
def jobFits (op a : Nat) : Bool :=
  if op ≤ 2 then algAead a || algPlain a else if op ≤ 4 then algGmac a || algMac a else algHash a

/-- Bytes a job writes to DST at most. -/
def jobOut (w : Work) : Nat :=
  if 3 ≤ w.opcode then 0
  else if w.opcode = 1 ∧ algCbc (jobAlg w) ∧ jobPkcs7 w then jobLen w / 16 * 16 + 16 else jobLen w

/-- Two byte ranges overlap. [log 101: DEDUCED] -/
def rangesOverlap (a n b m : Nat) : Bool := decide (n ≠ 0 ∧ m ≠ 0 ∧ a < b + m ∧ b < a + n)

/-- The first three checks of a job (R414), the length first. -/
def jobCheck (w : Work) : Option Nat :=
  let op := w.opcode
  let a := jobAlg w
  let etm := jobEtm w
  let src := leAt w.entry 16 8
  let dst := leAt w.entry 24 8
  if w.entry.length ≠ 80 ∨ ¬ jobFits op a ∨ byteAt w.entry 68 ≠ algIv a ∨
      (etm = true ∧ ¬ algMac (byteAt w.entry 69)) ∨ (op = 2 ∧ algPlain a ∧ etm = false) ∨
      (op ≤ 2 ∧ src ≠ dst ∧ rangesOverlap src (jobLen w) dst (jobOut w)) then some 0x01
  else if 1073741824 < jobLen w ∨ 1048576 < jobAadLen w ∨
      (algCbc a ∧ (¬ jobPkcs7 w ∨ op = 2) ∧ jobLen w % 16 ≠ 0) ∨ (algXts a ∧ (jobLen w < 16 ∨ 16777216 < jobLen w)) then some 0x35
  else if (op = 2 ∨ (op = 4 ∧ algGmac a)) ∧ 1048576 < jobLen w then some 0x11
  else none

/-- A key slot of a job read: KEY_EMPTY, ACCESS_DENIED or the slot (R414). -/
def Dev.jobKey (d : Dev) (f : Func) (slot alg usage : Nat) : Dev × Except Nat KeySlot :=
  match d.keyGet slot with
  | (d, none) => (d, .error 0x12)
  | (d, some k) =>
    if k.owner ≠ f ∨ ¬ bitOf k.usage usage ∨ ¬ algKeyOk alg k.key.length then (d, .error 0x04) else (d, .ok k)

/-- The usage bit an algorithm needs: 0 CIPHER, 1 MAC (R427). -/
def algUsage (a : Nat) : Nat := if algGmac a || algMac a then 1 else 0

/-- The keys a job names: the cipher key and the ETM MAC key; the first that is empty, then the first not permitted. -/
def Dev.jobKeys (d : Dev) (w : Work) : Dev × Except Nat (List KeySlot) :=
  let f := d.ringFunc w.ring
  if w.opcode = 5 then (d, .ok [])
  else
    let names := (leAt w.entry 12 4 % 2097152, jobAlg w) ::
      (if jobEtm w then [(leAt w.entry 72 4 % 2097152, byteAt w.entry 69)] else [])
    let q := names.foldl (fun (q : Dev × List (Except Nat KeySlot)) n =>
      let (d, k) := q.1.jobKey f n.1 n.2 (algUsage n.2)
      (d, q.2 ++ [k])) (d, [])
    let errs := q.2.filterMap fun k => match k with | .error e => some e | .ok _ => none
    let ks := q.2.filterMap fun k => match k with | .ok k => some k | .error _ => none
    match errs with
    | [] => (q.1, .ok ks)
    | e :: es => (q.1, .error (if 0x12 ∈ e :: es then 0x12 else e))

/-- Lookaside jobs under way. -/
def Dev.jobsRunning (d : Dev) : Nat :=
  d.rings.values.foldl (fun a r => a + (r.work.filter fun w => w.done.isNone && (match w.note with | 2 :: _ => true | _ => false)).length) 0

/-- Lanes of a cluster in service. -/
def Dev.lanesFree (d : Dev) (c : Nat) : Nat := ((rangeFrom 0 (laneCount c)).filter fun i => (d.lane c i).fenced.isNone).length

/-- The end of a job (R415). -/
def Dev.jobEnd (d : Dev) (w : Work) (st dst tag : Nat) : Dev :=
  let d := match w.note with
    | 2 :: g :: h :: _ => (d.keyDrop g).keyDrop h
    | _ => d
  let d := (d.bump (cipCount 1 0x100)).bump (cipCount 1 0x108) (jobLen w)
  let d := if st = 0x10 then d.bump (cipCount 1 0x110) else if st = 0x11 then d.bump (cipCount 1 0x120) else d
  (d.setWork w.ring w.id fun x => { x with note := [] }).finish w.ring w.id st (toLE 4 dst ++ [byteN tag, 0, 0, 0])

/-- A job on its lane, with its keys held: the reads of its inputs. -/
def Dev.jobRun (d : Dev) (w : Work) (op : Nat) (ks : List KeySlot) : Dev :=
  let gens := ks.map (·.gen)
  let d := gens.foldl Dev.keyHold (d.entAsk 1)
  let d := d.setWork w.ring w.id fun x => { x with started := true, note := [2, gens.headD 0, (gens.drop 1).headD 0, jobUnits w op],
                                                   data := [(10, (ks.map (·.key)).headD []), (11, ((ks.drop 1).map (·.key)).headD [])] }
  let d := if jobLen w = 0 then d else d.workRead w 0 (leAt w.entry 16 8) (jobLen w)
  let aad := algAead (jobAlg w) || algGmac (jobAlg w) || jobEtm w
  let d := if !aad || jobAadLen w = 0 then d else d.workRead w 1 (leAt w.entry 32 8) (jobAadLen w)
  let tagLen := if jobEtm w then algTag (byteAt w.entry 69) else algTag (jobAlg w)
  if op = 2 ∨ op = 4 then d.workRead w 2 (leAt w.entry 40 8) tagLen else d

/-- A job started (R412 to R414, R419, R424): its checks, its lane, its keys and its hold memory. -/
def Dev.jobStart (d : Dev) (r op : Nat) : Dev :=
  match (d.ring r).work.find? fun w => w.done.isNone && !w.started with
  | some w =>
    if d.ringKind r ≠ 3 ∨ w.opcode ≠ op ∨ ¬ d.accepts .cip 1 ∨ ¬ d.entRuns 1 ∨ d.lanesFree 1 ≤ d.jobsRunning then d
    else match jobCheck w with
      | some st => d.jobEnd w st 0 0
      | none =>
        match d.jobKeys w with
        | (d, .error st) => d.jobEnd w st 0 0
        | (d, .ok ks) =>
          match d.holdRoom 1 (jobUnits w op) with
          | (d, false) => d
          | (d, true) => d.jobRun w op ks
  | none => d

/-- ENCRYPT (R413, R414). -/
def execEncrypt (r : Nat) (s : State) : Host.Outcome State Fault Refusal := s.act fun d => d.jobStart r 1

/-- DECRYPT (R413, R414). -/
def execDecrypt (r : Nat) (s : State) : Host.Outcome State Fault Refusal := s.act fun d => d.jobStart r 2

/-- MAC (R413, R414). -/
def execMacJob (r : Nat) (s : State) : Host.Outcome State Fault Refusal := s.act fun d => d.jobStart r 3

/-- VERIFY of a LOOK ring (R413, R414). -/
def execLookVerify (r : Nat) (s : State) : Host.Outcome State Fault Refusal := s.act fun d => d.jobStart r 4

/-- HASH (R413, R414). -/
def execHashJob (r : Nat) (s : State) : Host.Outcome State Fault Refusal := s.act fun d => d.jobStart r 5

/-- Input encrypted under an algorithm without a tag of its own (R388, R389). -/
def plainEnc (alg : Nat) (pk7 : Bool) (key iv src : List Byte) : List Byte :=
  if algXts alg then xts true key iv src
  else if algCbc alg then cbcEnc (roundKeys key) iv (blocks16 (if pk7 then pkcs7 src else src))
  else aesCtr key iv src

/-- The inverse; none where the padding is bad (R389). -/
def plainDec (alg : Nat) (pk7 : Bool) (key iv src : List Byte) : Option (List Byte) :=
  if algXts alg then some (xts false key iv src)
  else if algCbc alg then
    let x := cbcDec (roundKeys key) iv (blocks16 src)
    if pk7 then unpkcs7 x else some x
  else some (aesCtr key iv src)

/-- What a job computes from its inputs: status, output and tag written (R413). -/
def jobResult (w : Work) : Nat × List Byte × List Byte :=
  let alg := jobAlg w
  let src := slice (w.part 0) 0 (jobLen w)
  let aad := w.part 1
  let key := w.part 10
  let iv := slice w.entry 48 (algIv alg)
  let mac := fun data => macOf (byteAt w.entry 69) (w.part 11) data
  let pk7 := jobPkcs7 w
  let tagIn := w.part 2
  if w.opcode = 1 then
    if algAead alg && !jobEtm w then
      let ct := aeadCrypt alg key iv src
      (0, ct, aeadTag alg key iv aad ct)
    else if algAead alg then
      let ct := aeadCrypt alg key iv src
      (0, ct, mac (aad ++ ct))
    else
      let ct := plainEnc alg pk7 key iv src
      (0, ct, if jobEtm w then mac (aad ++ ct) else [])
  else if w.opcode = 2 then
    if (if jobEtm w then mac (aad ++ src) else aeadTag alg key iv aad src) ≠ tagIn then (0x10, [], [])
    else if algAead alg then (0, aeadCrypt alg key iv src, [])
    else match plainDec alg pk7 key iv src with
      | some pt => (0, pt, [])
      | none => (0x10, [], [])
  else
    let t := if w.opcode = 5 then digestOf alg src
             else if algGmac alg then gcmTag key iv (aad ++ src) [] else macOf alg key src
    if w.opcode = 4 then (if t = tagIn then 0 else 0x10, [], []) else (0, [], t)

/-- LOOK_JOB_COMPLETE (R415, R417): the oldest job of a ring whose inputs have come, while randomness runs (R424). -/
def execLookJobComplete (r : Nat) (s : State) : Host.Outcome State Fault Refusal :=
  s.act fun d =>
    if !d.entRuns 1 then d
    else match (d.ring r).work.find? fun w => w.done.isNone && w.started && decide (w.opcode ≤ 5) && decide (w.note.head? = some 2) &&
        decide (w.waiting = []) with
    | some w =>
      let (st, out, tag) := jobResult w
      let f := d.ringFunc r
      if (out ≠ [] ∨ tag ≠ []) ∧ ¬ d.master f then d.jobEnd w 0x08 0 0 else
      let d := if out = [] then d else d.dmaWrite f (leAt w.entry 24 8) out
      let d := if tag = [] then d else d.dmaWrite f (leAt w.entry 40 8) tag
      d.jobEnd w st out.length tag.length
    | none => d

/-! ### Entropy (R423 to R425) -/

/-- RAND_STALL of every cluster brought up to date (R424, R435). -/
def Dev.randStall (d : Dev) (c : Nat) (v : Bool) : Dev :=
  let k := reg .cip c 0x100
  let was := d.bit k 16
  let d := if was = v then d else d.setFld k 16 1 (b2n v)
  if v && !was then d.raise .cip c 0 9
  else if was && !v then d.stallEnd c 0x128
  else d

/-- ENT_HEALTH_FAIL (R423): every instance stops, FAIL is set; `apt` names the test. -/
def execEntHealthFail (apt : Bool) (s : State) : Host.Outcome State Fault Refusal :=
  s.act fun d =>
    let k := reg .ent 0 0x100
    let was := d.bit k 1
    let d := d.bump (reg .ent 0 (if apt then 0x118 else 0x110))
    let d := d.wrN k 2
    let d := if was then d else d.raise .ent 0 0 8
    ((d.randStall 0 true).randStall 1 true).randStall 2 true

/-- Every DRBG instance seeded again (R423). -/
def Dev.entReseed (d : Dev) : Dev :=
  { d with entReqs := {}, entSeeds := (rangeFrom 0 4).foldl (fun m i => m.set i (m.getD i 0 + 1) 0) d.entSeeds }

/-- ENT_RAND as a read finds it (R425). -/
def Dev.entRand (d : Dev) : Dev × Nat :=
  if d.entRuns 3 then
    let (d, r) := d.entDraw 3
    (d, r % p32 + 9223372036854775808)
  else (d, 0)

/-- ENT_RAND_READ (R425): a read of ENT_RAND by a party. [log 104: DEDUCED] -/
def execEntRandRead (pt : Party) (width : Nat) (s : State) : Host.Outcome State Fault Refusal :=
  s.onDev fun d =>
    match d.readCheck pt (reg .ent 0 0x108) width with
    | (d, some t) => let (d, v) := d.entRand; d.emit (.readData pt (w64 (t.view v)))
    | (d, none) => d.emit (.readData pt 0)

end Sys2Proof.Machine
end

