-- ==== Sys2Proof/Machine/Inspect.lean ====
section
/-! DEFINITION. Payload inspection (R283 to R306): what a pass scans, pattern matching, stream states, the verdict. -/

namespace Sys2Proof.Machine

/-! ### Matching (R291, R294) -/

/-- The lengths at which a byte term that starts after each length of `offs` can end. -/
def termEnds (t : PTerm) (bs : List Byte) (offs : List Nat) : List Nat :=
  (offs.flatMap fun o =>
    let k := ((bs.drop o).take t.hi).takeWhile (fun b => bitOf t.set b.toNat)
    (rangeFrom t.lo (k.length + 1 - t.lo)).map (o + ·)).eraseDups

/-- The lengths of the strings at the head of `bs` that a run produces. -/
def runEnds (r : List PTerm) (bs : List Byte) : List Nat := r.foldl (fun o t => termEnds t bs o) [0]

/-- The least of a list. -/
def leastOf : List Nat → Option Nat
  | [] => none
  | x :: xs => some (xs.foldl min x)

/-- The earliest end of a run that starts at offset `s` or later. -/
def runFrom (r : List PTerm) (bs : List Byte) (s : Nat) : Option Nat :=
  leastOf ((rangeFrom s (bs.length + 1 - s)).flatMap fun p => (runEnds r (bs.drop p)).map (p + ·))

/-- The earliest end of a sequence of runs with gaps between them, the first starting at `s` or later. -/
def runsFrom (bs : List Byte) (s : Nat) : List (List PTerm) → Option Nat
  | [] => some s
  | r :: rs => match runFrom r bs s with
    | some e => runsFrom bs e rs
    | none => none

/-- The earliest end of a pattern in the bytes of its scope. -/
def Pattern.find (p : Pattern) (bs : List Byte) : Option Nat :=
  match p.anchor with
  | none => runsFrom bs 0 p.runs
  | some n =>
    if bs.length < n then none
    else leastOf ((runEnds (p.runs.headD []) (bs.drop n)).filterMap fun l => runsFrom bs (n + l) p.runs.tail)

/-- A match: END, set, identifier. -/
structure PMatch where
  stop : Nat
  set : Nat
  id : Nat
deriving DecidableEq, Repr

/-- The order of R291. -/
def PMatch.le (a b : PMatch) : Bool :=
  decide (a.stop < b.stop ∨ (a.stop = b.stop ∧ (a.set < b.set ∨ (a.set = b.set ∧ a.id ≤ b.id))))

/-- The patterns of a set of a rule set (R297). -/
def Dev.setPatterns (d : Dev) (rs : RuleSet) (set : Nat) : List Pattern :=
  d.images.getD (leAt (rs.entry 12 set) 0 2) []

/-- The line of the compiled image of a set of a rule set (R305). -/
def imgLine (rs : RuleSet) (set : Nat) : Nat := hbmSize / 64 + leAt (rs.entry 12 set) 0 2

/-- A compiled image of the sets of a scan cannot be read (R305). -/
def Dev.imgFails (d : Dev) (rs : RuleSet) (sets : List Nat) : Bool := sets.any fun s => d.ecc.getD (imgLine rs s) 0 = 2

/-- The sets of a scan whose compiled images can be read (R305). -/
def Dev.setsRead (d : Dev) (rs : RuleSet) (sets : List Nat) : List Nat := sets.eraseDups.filter fun s => d.ecc.getD (imgLine rs s) 0 ≠ 2

/-- The matches of a scan in PACKET mode: `bs` are the bytes scanned, `base` the offset of their first byte. -/
def Dev.packetMatches (d : Dev) (rs : RuleSet) (sets : List Nat) (bs : List Byte) (base : Nat) : List PMatch :=
  (d.setsRead rs sets).flatMap fun set =>
    (d.setPatterns rs set).filterMap fun p => (p.find bs).map fun e => { stop := base + e, set := set, id := p.id }

/-- The matches of a scan in STREAM mode: `old` are the bytes of the stream since it was started fresh, `bs` those scanned
now, `seen` the pairs reported before. -/
def Dev.streamMatches (d : Dev) (rs : RuleSet) (sets : List Nat) (old bs : List Byte) (seen : List (Nat × Nat)) : List PMatch :=
  (d.setsRead rs sets).flatMap fun set =>
    (d.setPatterns rs set).filterMap fun p =>
      if p.anchor.isSome then (p.find bs).map fun e => { stop := e, set := set, id := p.id }
      else if (set, p.id) ∈ seen then none
      else match p.find (old ++ bs) with
        | some e => if old.length < e then some { stop := e - old.length, set := set, id := p.id } else none
        | none => none

/-- Pairs an unanchored scan has reported, for the stream. -/
def Dev.pairsOf (d : Dev) (rs : RuleSet) (ms : List PMatch) : List (Nat × Nat) :=
  (ms.filter fun m => (d.setPatterns rs m.set).any fun p => decide (p.id = m.id) && p.anchor.isNone).map fun m => (m.set, m.id)

/-! ### The verdict (R290) -/

/-- STATUS bits. -/
abbrev vScanned : Nat := 1
/-- STREAM. -/
abbrev vStream : Nat := 2
/-- STREAM_GAP. -/
abbrev vGap : Nat := 4
/-- FRESH. -/
abbrev vFresh : Nat := 8
/-- CUT. -/
abbrev vCut : Nat := 16

/-- The verdict of a scan: the matches in order, the STATUS bits, whether the scan was cut under R288. -/
structure Verdict where
  ms : List PMatch := []
  status : Nat := 0
  cut : Bool := false
deriving DecidableEq, Repr

/-- Field 120 + `i` of a verdict. -/
def Verdict.word (v : Verdict) (i : Nat) : Nat :=
  let n := v.ms.length
  match i with
  | 0 => v.ms.foldl (fun a m => if m.set < 32 then a ||| 2 ^ m.set else a) 0
  | 1 => v.ms.foldl (fun a m => if 32 ≤ m.set then a ||| 2 ^ (m.set - 32) else a) 0
  | 2 => v.status + (if 4 < n then 32 else 0) + 256 * min n 255
  | 7 => (rangeFrom 0 4).foldl (fun a k => match v.ms[k]? with | some m => a + m.set * 64 ^ k | none => a) 0
  | k => match v.ms[k - 3]? with | some m => m.id + 65536 * (m.stop % 32768) | none => 0

/-- A counter of PAT page 1. -/
def patCount (p o : Nat) : Nat := reg .pat p (0x10000 + o)

/-- The verdict written into the field vector of a pass, and counted; `n` bytes were scanned (R290, R310). -/
def Dev.verdict (d : Dev) (p : Nat) (ps : Pass) (v : Verdict) (n : Nat) : Dev × Pass :=
  let v := { v with ms := sortBy PMatch.le v.ms }
  let bumpIf (c : Bool) (o : Nat) (d : Dev) : Dev := if c then d.bump (patCount p o) else d
  let d := bumpIf (bitOf v.status 0) 0x200 d
  let d := if n = 0 then d else d.bump (patCount p 0x208) n
  let d := bumpIf (v.ms ≠ []) 0x210 d
  let d := bumpIf v.cut 0x218 d
  let d := bumpIf (bitOf v.status 2) 0x220 d
  (d, { ps with fields := (rangeFrom 0 8).foldl (fun f i => f.set (120 + i) (v.word i) 0) ps.fields })

/-! ### What a pass scans (R284, R298, R299, R306) -/

/-- The binding entry of a pass: that of the state of the last header whose length was accepted (R284). -/
def bindingOf (ps : Pass) : List Byte :=
  match ps.stack.reverse.find? fun h => h.accepted with
  | some h => ps.rules.entry 13 h.state
  | none => zeros 16

/-- The set slots a binding entry enables, each with its set. -/
def bindingSlots (b : List Byte) : List (Nat × Nat) :=
  ((rangeFrom 0 4).filter fun j => bitOf (byteAt b 1) j).map fun j => (j, byteAt b (2 + j) % 64)

/-- The mode of a scan that asks for STREAM, with the OFFSET and LIMIT of an INSPECT request (R299, R306). -/
def streamOr (ps : Pass) (slots : List (Nat × Nat)) (params : Bool) (offset limit : Nat) : Scan :=
  if !params then .packet (slots.map (·.2)) offset limit vGap
  else if ps.pkt.streamed then .packet (slots.map (·.2)) 0 0 0
  else .stream slots

/-- The scan of a pass, chosen at its mark (R284). -/
def Dev.chooseScan (d : Dev) (p : Nat) (ps : Pass) : Scan :=
  let b := bindingOf ps
  let fl := byteAt b 0
  if !d.accepts .pat p then .none vGap
  else match ps.pkt.inspect with
    | some q =>
      if q.off then .none 0
      else if q.stream then streamOr ps [(0, q.set)] (bitOf fl 2) q.offset q.limit
      else .packet [q.set] q.offset q.limit 0
    | none =>
      if ps.pstart = 0 then .none 0
      else if bitOf fl 0 then
        if bitOf fl 1 then streamOr ps (bindingSlots b) true 0 0
        else .packet ((bindingSlots b).map (·.2)) (leAt b 6 2) (leAt b 8 2 % 32768) 0
      else .none 0

/-- The first byte and the number of bytes a PACKET scan covers (R285). -/
def packetSpan (ps : Pass) (offset limit : Nat) : Nat × Nat :=
  let a := ps.pstart + offset
  (a, min ps.pad (a + (if limit = 0 then 16384 else limit)) - a)

/-- Memory errors met in the compiled images of a scan (R305, R310). -/
def Dev.imgErrors (d : Dev) (p : Nat) (rs : RuleSet) (sets : List Nat) : Dev :=
  sets.eraseDups.foldl (fun d s => match d.ecc.getD (imgLine rs s) 0 with
    | 1 => d.bump (patCount p 0x240)
    | 2 => (d.bump (patCount p 0x248)).raise .pat p 1 9
    | _ => d) d

/-- CUT of a verdict: the scan was cut, or a compiled image could not be read (R288, R305). -/
def cutBit (cut fails : Bool) : Nat := if cut || fails then vCut else 0

/-- A PACKET scan, cut after `cut` bytes where that is less than it covers (R288). -/
def Dev.scanPacket (d : Dev) (ps : Pass) (sets : List Nat) (offset limit status : Nat) (cut : Option Nat) : Verdict × Nat :=
  let (a, n) := packetSpan ps offset limit
  let m := match cut with | some c => min c n | none => n
  let isCut := decide (m < n)
  ({ ms := d.packetMatches ps.rules sets (slice ps.pkt.data a m) (a - ps.pstart),
     status := status + vScanned + cutBit isCut (d.imgFails ps.rules sets), cut := isCut }, m)

/-! ### Stream states (R300 to R305) -/

/-- A register of the stream region of pipeline `p`. -/
def patReg (p o : Nat) : Nat := reg .pat p (0x10000 + o)

/-- The region of a pipeline: LOG2, 0 where it is absent (R310). -/
def Dev.streamLog (d : Dev) (p : Nat) : Nat :=
  let l := d.fld (patReg p 0x108) 0 5
  if d.rd64 (patReg p 0x100) + 64 * 2 ^ l ≤ hbmSize then l else 0

/-- A stream state (R301): its address and its bytes; the automata are kept beside HBM. -/
structure SState where
  addr : Nat
  bytes : List Byte
deriving DecidableEq, Repr

/-- FLAGS. -/
def SState.flags (s : SState) : Nat := byteAt s.bytes 12

/-- Turns since the last update of a state. -/
def SState.age (s : SState) (turn : Nat) : Nat := sub32 turn (leAt s.bytes 8 4)

/-- The four slots of the bucket of a key. -/
def Dev.streamSlots (d : Dev) (p : Nat) (key : List Byte) : List SState :=
  let b := crc32c (d.rdN (patReg p 0x110)) key % 2 ^ (d.streamLog p - 2)
  let a := d.rd64 (patReg p 0x100) + 256 * b
  (rangeFrom 0 4).map fun i => { addr := a + 64 * i, bytes := d.hbmRead (a + 64 * i) 64 }

/-- A slot holds a state in use: valid, readable, written since the region was set up, not too old (R300, R305, R310). -/
def Dev.slotLive (d : Dev) (p : Nat) (s : SState) : Bool :=
  bitOf s.flags 0 && decide (d.eccOf s.addr 64 ≠ 2) && (d.autos.find s.addr).isSome &&
    decide (s.age d.turn ≤ d.rdN (patReg p 0x10C))

/-- Memory errors met in a bucket (R305, R310). -/
def Dev.slotErrors (d : Dev) (p : Nat) (ss : List SState) : Dev :=
  ss.foldl (fun d s => match d.eccOf s.addr 64 with
    | 1 => d.bump (patCount p 0x240)
    | 2 => (d.bump (patCount p 0x248)).raise .pat p 1 9
    | _ => d) d

/-- The states that the other engines hold (R304). -/
def Dev.holdsOf (d : Dev) (p : Nat) : List StreamHold :=
  (rangeFrom 0 8).filterMap fun q => if q = p then none else ((d.pipe q).marks.head?).bind fun ps => ps.hold

/-- The slot allocation takes: the first free one, else the valid one with the oldest update, counted as an eviction; none
where every slot is held (R303). -/
def Dev.streamAlloc (d : Dev) (p : Nat) (ss : List SState) : Option (Dev × Nat) :=
  let hs := (d.holdsOf p).map (·.addr)
  let ss := ss.filter fun s => decide (s.addr ∉ hs)
  match ss.find? fun s => !d.slotLive p s with
  | some s => some (d.bump (patCount p 0x228), s.addr)
  | none =>
    let oldest := ss.foldl (fun (q : Option SState) s => match q with
      | none => some s
      | some o => if o.age d.turn < s.age d.turn then some s else q) none
    oldest.map fun s => ((d.bump (patCount p 0x228)).bump (patCount p 0x230), s.addr)

/-- What a row of R302 does to the stream: how the automata go on, how the payload is scanned, NEXT_SEQ, FLAGS, STATUS. -/
structure SRow where
  fresh : Bool
  packet : Bool
  scan : Bool
  next : Nat
  flags : Nat
  status : Nat
deriving DecidableEq, Repr

/-- The row of R302 for a segment: `st` is the state (FLAGS, NEXT_SEQ) if there is one. -/
def streamRow (st : Option (Nat × Nat)) (seq len : Nat) (syn : Bool) : SRow :=
  let start (gap : Nat) (n : Nat) : SRow :=
    { fresh := true, packet := false, scan := true, next := n % p32, flags := 1, status := vScanned + vStream + vFresh + gap }
  let gapped (nx : Nat) : SRow :=
    { fresh := false, packet := true, scan := true, next := nx, flags := 3, status := vGap }
  match st with
  | none => if syn then start 0 (seq + 1 + len) else start vGap (seq + len)
  | some (fl, nx) =>
    if syn then start 0 (seq + 1 + len)
    else if bitOf fl 3 then start vGap (seq + len)
    else if len = 0 then { fresh := false, packet := false, scan := false, next := nx, flags := fl, status := vScanned }
    else if seq = nx then
      if bitOf fl 1 ∨ bitOf fl 2 then start 0 (seq + len)
      else { fresh := false, packet := false, scan := true, next := (seq + len) % p32, flags := 1, status := vScanned + vStream }
    else gapped nx

/-- The bytes of a stream state; the AUTO words are values of the device's own (R301). [log 63: DESIGN CHOICE] -/
def stateBytes (tag next turn flags sets auto : Nat) : List Byte :=
  toLE 4 tag ++ toLE 4 next ++ toLE 4 turn ++ [byteN flags] ++ toLE 3 sets ++ toLE 32 auto ++ zeros 16

/-- SETS of a stream state. -/
def packSets (slots : List (Nat × Nat)) : Nat := slots.foldl (fun a q => a + q.2 * 64 ^ q.1) 0

/-- The key of a pass's stream (R300). -/
def streamKey (ps : Pass) : List Byte :=
  buildKey { ps with fields := ps.fields.filter fun k _ => decide (k < 112) } (byteAt (bindingOf ps) 10 % 32)

/-- SEQ_FIELD and TCPF_FIELD of a pass (R298). -/
def streamFields (ps : Pass) : Nat × Nat :=
  let b := bindingOf ps
  (ps.fields.getD (byteAt b 11 % 128) 0, ps.fields.getD (byteAt b 12 % 128) 0)

/-- The read of the state of a pass's stream: the state held from now on, or none where another engine holds it or holds
every slot of its bucket (R300, R303 to R305).  A slot that another engine holds for another stream holds no state of this one. -/
def Dev.streamRead (d : Dev) (p : Nat) (ps : Pass) : Dev × Option StreamHold :=
  let key := streamKey ps
  let tag := crc32c (d.rdN (patReg p 0x114)) key
  let ss := d.streamSlots p key
  let d := d.slotErrors p ss
  let busy := d.bump (patCount p 0x238)
  if (d.holdsOf p).any fun h => decide (h.tag = tag) && ss.any fun s => decide (s.addr = h.addr) then (busy, none)
  else match ss.find? fun s => d.slotLive p s && decide (leAt s.bytes 0 4 = tag) && (d.holdsOf p).all fun h => decide (h.addr ≠ s.addr) with
    | some s => (d, some { addr := s.addr, tag := tag, state := some (s.flags, leAt s.bytes 4 4), auto := d.autos.getD s.addr {} })
    | none => match d.streamAlloc p ss with
      | some (d, a) => (d, some { addr := a, tag := tag, state := none })
      | none => (busy, none)

/-- The engine begins the scan of its oldest pass: the read of its stream state (R304). -/
def Dev.scanBegin (d : Dev) (p : Nat) : Dev :=
  match (d.pipe p).marks with
  | [] => d
  | ps :: rest =>
    if ps.begun then d
    else
      let (d, h) := match ps.scan with
        | .stream _ => if d.streamLog p = 0 then (d, none) else d.streamRead p ps
        | _ => (d, none)
      d.setPipe p { d.pipe p with marks := { ps with begun := true, hold := h } :: rest }

/-- The state an engine holds written back; its line holds no memory error any more.  It stays unused where a commit has left
its region unused (R310). -/
def Dev.streamPut (d : Dev) (h : StreamHold) (bs : List Byte) (auto : StreamAuto) : Dev :=
  let d := (d.hbmWrite h.addr bs).eccClear h.addr 64
  if h.unused then d else { d with autos := d.autos.put h.addr auto }

/-- A pass without a scan. -/
def Pass.noScan (ps : Pass) : Bool := match ps.scan with | .none _ => true | _ => false

/-- Passes without a scan do not wait where none before them does (R28, R287); the engine begins the next scan. -/
def Dev.marksFlow (d : Dev) (p : Nat) : Dev :=
  let q := d.pipe p
  (d.setPipe p { q with marks := q.marks.dropWhile Pass.noScan, ready := q.ready ++ q.marks.takeWhile Pass.noScan }).scanBegin p

/-- The state a pattern engine holds is written back with LOST (R305). [log 62: DESIGN CHOICE] -/
def Dev.patBack (d : Dev) (p : Nat) : Dev :=
  match ((d.pipe p).marks.head?).bind fun ps => (ps.hold.map fun h => (ps, h)) with
  | some (ps, h) =>
    let old := d.hbmRead (h.addr + 13) 51
    match h.state with
    | some (fl, nx) => d.streamPut h (toLE 4 h.tag ++ toLE 4 nx ++ toLE 4 d.turn ++ byteN (fl ||| 8) :: old) {}
    | none => d.streamPut h (stateBytes h.tag (streamFields ps).1 d.turn 9 0 0) {}
  | none => d

/-- A pattern engine is lost: its state goes back, and the passes at their marks get no scan but the verdict of the first row of
R284. [log 62: DESIGN CHOICE] -/
def Dev.patLost (d : Dev) (p : Nat) : Dev :=
  let d := d.patBack p
  let q := (d.pipe p).marks.foldl (fun (q : Dev × List Pass) ps =>
    if ps.noScan then (q.1, q.2 ++ [ps])
    else
      let (d, ps) := q.1.verdict p ps { status := vGap } 0
      (d, q.2 ++ [{ ps with scan := .none vGap, begun := true, hold := none }])) (d, [])
  (q.1.setPipe p { q.1.pipe p with marks := q.2 }).marksFlow p

/-- A STREAM scan of a pass against the state it holds (R286, R288, R302 to R306). -/
def Dev.scanStream (d : Dev) (p : Nat) (ps : Pass) (slots : List (Nat × Nat)) (h : StreamHold) (cut : Option Nat) :
    Dev × Pass × Verdict × Nat :=
  let sets := slots.map (·.2)
  let (seq, tf) := streamFields ps
  let len := ps.pad - ps.pstart
  let row := streamRow h.state seq len (bitOf tf 1)
  let old : StreamAuto := if row.fresh then {} else h.auto
  let most := min len 16384
  let n := if row.scan then (match cut with | some c => min c most | none => most) else 0
  let bs := slice ps.pkt.data ps.pstart n
  let isCut := cut = some 0 || (row.scan && decide (n < if row.packet then most else len))
  let ms := if !row.scan then [] else if row.packet then d.packetMatches ps.rules sets bs 0
            else d.streamMatches ps.rules sets old.bytes bs old.seen
  let fails := row.scan && d.imgFails ps.rules sets
  let v : Verdict := { ms := ms, status := (if row.packet then vScanned else 0) + row.status + cutBit isCut fails, cut := isCut }
  let auto : StreamAuto :=
    if row.packet ∨ isCut then {}
    else if !row.scan then old
    else { bytes := old.bytes ++ bs, seen := old.seen ++ d.pairsOf ps.rules ms }
  let flags := if isCut then 5 else row.flags
  let next := if isCut then (seq + len) % p32 else row.next
  let flags := if bitOf tf 0 ∨ bitOf tf 2 then flags / 2 * 2 else flags
  let d := if row.scan then d.imgErrors p ps.rules sets else d
  let (d, a) := if row.scan then d.drawFree else (d, leAt (d.hbmRead (h.addr + 16) 32) 0 32)
  let sp := if row.packet ∨ ¬ row.scan then leAt (d.hbmRead (h.addr + 13) 3) 0 3 else packSets slots
  let d := d.streamPut h (stateBytes h.tag next d.turn flags sp a) auto
  (d, { ps with pkt := { ps.pkt with streamed := true }, hold := none }, v, n)

/-- A pass's payload scanned, or cut after `cut` bytes, and its verdict written (R284 to R290); that of a pass without a scan has
been written at its mark (R287). -/
def Dev.inspectPass (d : Dev) (p : Nat) (ps : Pass) (cut : Option Nat) : Dev × Pass :=
  let packet (sets : List Nat) (o l st : Nat) : Dev × Pass :=
    let (v, n) := d.scanPacket ps sets o l st cut
    (d.imgErrors p ps.rules sets).verdict p ps v n
  match ps.scan, ps.hold with
  | .none _, _ => (d, ps)
  | .packet sets o l st, _ => packet sets o l st
  | .stream slots, none => packet (slots.map (·.2)) 0 0 vGap
  | .stream slots, some h =>
    let (d, ps, v, n) := d.scanStream p ps slots h cut
    d.verdict p ps v n

/-- Bytes the scan of a pass covers, uncut; none where no scan is made. -/
def scanBytes (ps : Pass) : Option Nat :=
  match ps.scan, ps.hold with
  | .none _, _ => none
  | .packet _ o l _, _ => some (packetSpan ps o l).2
  | .stream _, none => some (packetSpan ps 0 0).2
  | .stream _, some _ => some (ps.pad - ps.pstart)

/-- The verdict of a pass can fall due when `n` bytes have been covered: there are more, or none has been covered for want of
the stream state (R288). [log 62: DESIGN CHOICE] -/
def mayCut (ps : Pass) (n : Nat) : Bool :=
  (match scanBytes ps with | some m => decide (n < m) | none => false) || (ps.hold.isSome && decide (n = 0))

/-- The oldest pass of a pipeline whose verdict is due gets it, with its scan cut after `cut` bytes (R283, R288). -/
def Dev.scanNext (d : Dev) (p : Nat) (cut : Option Nat) : Dev :=
  let q := d.pipe p
  match q.marks with
  | [] => d
  | ps :: rest =>
    let (d, ps) := d.inspectPass p ps cut
    (d.setPipe p { d.pipe p with marks := rest, ready := q.ready ++ [ps] }).marksFlow p

/-- PATTERN_SCAN (R283). [log 64: DESIGN CHOICE] -/
def execPatternScan (p : Nat) (s : State) : Host.Outcome State Fault Refusal := s.act fun d => d.scanNext p none

/-- SCAN_CUT (R288): the verdict falls due when `scanned` bytes have been covered, fewer than the scan has, or before the
stream state has come. -/
def execScanCut (p scanned : Nat) (s : State) : Host.Outcome State Fault Refusal :=
  s.act fun d =>
    match (d.pipe p).marks with
    | ps :: _ => if mayCut ps scanned then d.scanNext p (some scanned) else d
    | [] => d

/-! ### Regions that change (R310) -/

/-- The stream region and the seeds of pipeline `p` (R310). -/
def Dev.streamRegion (d : Dev) (p : Nat) : Nat × Nat × Nat × Nat :=
  (d.rd64 (patReg p 0x100), d.streamLog p, d.rdN (patReg p 0x110), d.rdN (patReg p 0x114))

/-- Every stream of a region is unused from now on, those that engines hold too (R310). -/
def Dev.streamsUnused (d : Dev) (base log : Nat) : Dev :=
  let within (a : Nat) : Bool := decide (base ≤ a ∧ a < base + 64 * 2 ^ log)
  if log = 0 then d
  else { d with
    autos := d.autos.filter fun a _ => !within a,
    pipes := d.pipes.mapVal fun _ q => { q with marks := q.marks.map fun ps =>
      { ps with hold := ps.hold.map fun h => { h with unused := h.unused || within h.addr } } } }

end Sys2Proof.Machine
end

