-- ==== Sys2Proof/Machine/Pipeline.lean ====
section
/-! DEFINITION. The distributor, the sluice and the stages of a pass (R25 to R31, R124 to R127, R133 to R136, R184, R197 to
R205, R217 to R221, R231, R236, R237, R362, R363). -/

namespace Sys2Proof.Machine

/-! ### The distributor -/

/-- LRN_ETHERTYPE. -/
def Dev.lrnType (d : Dev) : Nat := d.fld (reg .lrn 0 0x104) 0 16

/-- The ingress port of a frame: frames of control cores and block engines take PF0 of the primary link (R200). -/
def Dev.ingressOf (d : Dev) (p : Pkt) : Nat := if p.src = 7 ∨ p.src = 8 then funcPort (pf0 d.primary) else p.ingress

/-- A frame taken into the pre-parse: to LRN, to PRL, or hashed and steered to a pipeline (R25, R236, R237). -/
def Dev.distribute (d : Dev) (p : Pkt) : Dev :=
  let t := etherType p.data
  if t = d.lrnType then
    let d := d.freePkt p
    { d with lrn := { d.lrn with rx := d.lrn.rx ++ [(p.ingress, p.data)] } }
  else if p.src = 4 ∧ t = d.prlType then
    (d.freePkt p).pairReceive false p.data
  else
    let h := symHash d.ppCfg p.data
    match d.serving (d.pipeInd (foldHash h)) 8 with
    | none => d.dropPkt p 11
    | some i =>
      let q := d.pipe i
      d.setPipe i { q with firsts := q.firsts ++ [{ p with hash := h, ingress := d.ingressOf p }] }

/-- DISTRIBUTE (R236): the oldest frame in front of the distributor is taken, while DST accepts work (R671). -/
def execDistribute (s : State) : Host.Outcome State Fault Refusal :=
  s.act fun d =>
    match d.dst with
    | p :: rest => if d.accepts .dst 0 then ({ d with dst := rest } : Dev).distribute p else d
    | [] => d

/-- A frame has waited MPD_WAIT_MAX boundaries (R363). -/
def Dev.waitedOut (d : Dev) (p : Pkt) : Bool := decide (p.arrived + d.fld (reg .mpd 0 0x104) 0 16 ≤ d.bounds)

/-- A waiting first pass of pipeline `i` that has waited too long is dropped. -/
def waitExpire (id : Nat) (d : Dev) (i : Nat) : Dev :=
  let q := d.pipe i
  match takeFirst (fun p => decide (p.id = id) && d.waitedOut p) q.firsts with
  | some (p, rest) => (d.setPipe i { q with firsts := rest }).dropPkt p 1
  | none => d

/-- SLUICE_WAIT_EXPIRE (R363): the frame `id`, in the sluice queue or before a distributor that takes no work. -/
def execSluiceWaitExpire (id : Nat) (s : State) : Host.Outcome State Fault Refusal :=
  s.act fun d =>
    let d := if d.accepts .dst 0 then d
      else match takeFirst (fun p => decide (p.id = id) && d.waitedOut p) d.dst with
        | some (p, rest) => ({ d with dst := rest } : Dev).dropPkt p 1
        | none => d
    (rangeFrom 0 8).foldl (waitExpire id) d

/-! ### The sluice -/

/-- A pipeline can hold passes: its domain is on and none of its instances is fenced. -/
def Dev.pipeAlive (d : Dev) (p : Nat) : Bool := !d.fenced .prs p && !d.fenced .cls p && !d.fenced .act p

/-- B: the passes a pipeline may admit in a turn; A, the lookups, is the same number (R124, R230). -/
def Dev.budget (d : Dev) : Nat := d.period * 5 / 4

/-- The passes a pipeline admits in a turn at most: B, less while throttled (R632) and while the clocks coast (R144). -/
def Dev.admitMax (d : Dev) : Nat :=
  let b := if d.bit (reg .clk 0 0x100) 1 then d.period * 5 / 32 else d.budget
  match d.fld (reg .pwr 0 0x100) 4 2 with
  | 0 => b
  | 1 => b * 3 / 4
  | _ => b / 2

/-- Leat passes and cipher returns are admitted (R637, R671). -/
def Dev.leatsOpen (d : Dev) (q : Pipe) : Bool :=
  q.inService || (match q.leatUntil with | some t => decide (d.bounds < t) | none => false)

/-- MPD_SLUICE_WT of a source. -/
def Dev.sluiceWt (d : Dev) (s : Nat) : Nat := d.fld (reg .mpd 0 (0x300 + 4 * s)) 0 8

/-- A source of the round may admit: it has a first pass waiting, weight left, and was refused no spare cell in this turn. -/
def Dev.mayAdmit (d : Dev) (q : Pipe) (s : Nat) : Bool :=
  decide (q.rrUsed.getD s 0 < d.sluiceWt s) && !q.refused.contains s && q.firsts.any fun p => decide (p.src = s)

/-- The source the round stands at next (R362): from the one it stands at, in ascending order, wrapping within the round.
[log 67: DEDUCED] -/
def Dev.roundSource (d : Dev) (q : Pipe) : Option Nat :=
  ((rangeFrom 0 9).map fun i => (q.rrSource + i) % 9).find? (d.mayAdmit q)

/-- The round ended where no source may admit any more (R362): every one has used its weight or has nothing waiting. -/
def Dev.roundEnd (d : Dev) (q : Pipe) : Pipe :=
  if (d.roundSource q).isSome then q else { q with rrSource := 0, rrUsed := {} }

/-- The first pass the round chooses, with the pipeline after it; a round ends with the admission that exhausts it. -/
def Dev.chooseFirst (d : Dev) (q : Pipe) : Option (Pkt × Pipe) :=
  let q := d.roundEnd q
  (d.roundSource q).bind fun s =>
    (takeFirst (fun p => decide (p.src = s)) q.firsts).map fun r =>
      (r.1, d.roundEnd { q with firsts := r.2, rrSource := s, rrUsed := q.rrUsed.set s (q.rrUsed.getD s 0 + 1) 0 })

/-- The full turn of a stamp at turn `c` (R133). -/
def fullTurn (c stamp : Nat) : Int := (c : Int) - (((c + 65536 - stamp % 65536) % 65536 : Nat) : Int)

/-- The rule set of a pass of full turn `f`, and whether it is the retained one; none for EPOCH_LAPSED (R126, R135). -/
def Dev.chooseRules (d : Dev) (f : Int) : Option (RuleSet × Bool) :=
  if f + 32768 ≤ (d.turn : Int) then none
  else if (d.active.activeAt : Int) ≤ f then some (d.active, false)
  else match d.retained with
    | some r =>
      if (r.activeAt : Int) ≤ f ∧ d.turn ≤ d.rd64 (reg .trn 0 0x130) then some (r, true) else none
    | none => none

/-- The LOG2 of a region of `unit`-byte records at a TL base register, 0 where it is absent or would pass the end of HBM
(R280). -/
def Dev.regionLog (d : Dev) (base cfg unit : Nat) : Nat :=
  let l := d.fld cfg 0 5
  if d.rd64 base + unit * 2 ^ l ≤ hbmSize then l else 0

/-- A pass admitted now: its packet, rule set and regions (R29, R135, R248). -/
def Dev.newPass (d : Dev) (p : Nat) (pkt : Pkt) (f : Int) (rs : RuleSet) (ret : Bool) : Pass :=
  let b := reg .act p 0x10000
  { pkt := pkt, rules := rs, retained := ret, admitted := d.turn, full := f.toNat, exempt := d.extended,
    hbmBase := d.rd64 (b + 0x100), hbmLog := d.regionLog (b + 0x100) (b + 0x108) 64,
    cntBase := d.rd64 (b + 0x110), cntLog := d.regionLog (b + 0x110) (b + 0x118) 16 }

/-- Stages 1 to 6 after a parse; the pass waits for its scan, or has its verdict at its mark (R287). -/
def Dev.firstStages (d : Dev) (p : Nat) (ps : Pass) : Dev :=
  let ps := { ps with ranges := rangeVector ps }
  let (d, ps, c) := matchStages d p 1 ps 6
  let ps := { ps with early := c, scan := d.chooseScan p ps }
  let (d, ps) := match ps.scan with
    | .none st => d.verdict p ps { status := st } 0
    | _ => (d, ps)
  let q := d.pipe p
  (d.setPipe p { q with marks := q.marks ++ [ps] }).marksFlow p

/-- The parse of a pass and what its exception does (R197, R199, R202, R203, R205). -/
def Dev.parseAndMatch (d : Dev) (p : Nat) (ps : Pass) : Dev :=
  let (ps, c) := parsePass ps
  match c with
  | none => d.firstStages p ps
  | some c =>
    if ps.pkt.cls.isSome then (d.bump (reg .prs p 0x300)).firstStages p ps
    else if bitsOf (classEntry ps.rules ps.pkt.ingress c) 0 3 = 4 then
      (d.bump (reg .prs p (0x200 + 8 * c))).firstStages p { ps with pkt := ps.pkt.raise c }
    else d.endDefault p ps c

/-- The turn's remaining slots go unused: a pass lacks lookups (R231). -/
def Dev.defer (d : Dev) (p : Nat) : Dev :=
  let q := d.pipe p
  (d.setPipe p { q with deferred := true }).bump (clsCount p 0x308)

/-- A pass whose spare cell cannot be reserved competes again in the next turn; until then no pass of its source is
admitted, and the passes of the others are (R33, R357). [log 191: DESIGN CHOICE] -/
def Dev.refuseSpare (d : Dev) (p src : Nat) : Dev :=
  let q := d.pipe p
  d.setPipe p { q with refused := src :: q.refused }

/-- A pass that leaves by a default action at its admission, without a parse (R136, R407): its spare cell, reserved like that
of every pass (R357), goes back at once, and it is charged no lookups (R230). [log 215: DESIGN CHOICE] -/
def Dev.admitDefault (d : Dev) (p : Nat) (q : Pipe) (pkt : Pkt) (c : Nat) : Dev :=
  match d.cellAlloc pkt.src 1 with
  | none => d.refuseSpare p pkt.src
  | some d' => ((d'.setPipe p { q with admitted := q.admitted + 1 }).freeSpare pkt).applyDefault p d.active pkt c d.turn

/-- A pass admitted under a rule set: a slot, its lookups, its spare cell (R230, R231, R357). -/
def Dev.sluiceIn (d : Dev) (p : Nat) (q : Pipe) (pkt : Pkt) (f : Int) (rs : RuleSet) (ret : Bool) : Dev :=
  let cost := lookupCost rs
  if d.budget < (d.pipe p).lookups + cost then d.defer p
  else match d.cellAlloc pkt.src 1 with
    | none => d.refuseSpare p pkt.src
    | some d' =>
      (d'.setPipe p { q with admitted := q.admitted + 1, lookups := q.lookups + cost }).parseAndMatch p
        (d.newPass p pkt f rs ret)

/-- One admission of a pipeline's sluice (R124, R125, R362). -/
def Dev.sluice (d : Dev) (p : Nat) : Dev :=
  let q := d.pipe p
  if !d.pipeAlive p || q.deferred || decide (d.admitMax ≤ q.admitted) then d
  else match (if d.leatsOpen q then takeFirst (fun l => !q.refused.contains l.src) q.leats else none) with
    | some (pkt, rest) =>
      let q := { q with leats := rest }
      let pkt := { pkt with pass := pkt.pass + 1 }
      let f := fullTurn d.turn pkt.stamp
      match d.chooseRules f with
      | none => d.admitDefault p q pkt 7
      | some (rs, ret) => d.sluiceIn p q pkt f rs ret
    | none =>
      if q.inService then
        match d.chooseFirst q with
        | some (pkt, q) =>
          let pkt := { pkt with stamp := d.turn % 65536, pass := 1 }
          match pkt.cls with
          | some c => d.admitDefault p q pkt c
          | none => d.sluiceIn p q pkt d.turn d.active false
        | none => d
      else d

/-- SLUICE_ADMIT (R362). -/
def execSluiceAdmit (p : Nat) (s : State) : Host.Outcome State Fault Refusal := s.act fun d => d.sluice p

/-! ### Stages 7 to 12 and the action unit -/

/-- The oldest pass of a pipeline whose verdict is written goes through stages 7 to 12 and the action unit (R219 to R221,
R252). -/
def Dev.lateStages (d : Dev) (p : Nat) : Dev :=
  let q := d.pipe p
  match q.ready with
  | [] => d
  | ps :: rest =>
    let d := d.setPipe p { q with ready := rest }
    match ps.early with
    | some c => d.endDefault p ps c
    | none =>
      let (d, ps, c) := matchStages d p 7 ps 6
      match c with
      | some c => d.endDefault p ps c
      | none => if ps.list = [] then d.endDefault p ps 0 else d.actUnit p ps

/-- STAGE7_START (R220): the pass before is at the end of its program (R277). -/
def execStage7Start (p : Nat) (s : State) : Host.Outcome State Fault Refusal := s.act fun d => (d.actFinish p).lateStages p

end Sys2Proof.Machine
end

