-- ==== Sys2Proof/Machine/PortOps.lean ====
section
/-! DEFINITION. The named operations over ports: link states (R567, R376), timestamps (R100, R101), MACsec (R406 to R409),
the choice of the next frame (R371 to R375), one-step insertion (R108, R109) and egress records (R106, R107). -/

namespace Sys2Proof.Machine

/-! ### Registers of a port -/

/-- MAC_CFG.MODE of a network port (R561). -/
def Dev.macMode (d : Dev) (n : Nat) : Nat := d.fld (reg .mac n 0x100) 0 3

/-- The rate of a port in Gb/s (R561, R574). -/
def Dev.rate (d : Dev) (n : Nat) : Nat := if n < 4 then 50 * 2 ^ d.macMode n else 400

/-- A MAC counter (R571). -/
def macCount (n k : Nat) : Nat := reg .mac n (0x200 + 8 * k)

/-- A register of R104 of a port: the PRL page holds those of the pair link. -/
def tsReg (n off : Nat) : Nat := if n < 4 then reg .mac n off else reg .prl 0 off

/-- 1 added to a MAC counter of a network port. -/
def Dev.macBump (d : Dev) (n k : Nat) (v : Nat := 1) : Dev := if n < 4 then d.bump (macCount n k) v else d

/-- An interrupt bit of the page of a network port (R572). -/
def Dev.macRaise (d : Dev) (n bit : Nat) : Dev := if n < 4 then d.raise .mac n 0 bit else d

/-- The index s of the timestamp corrections for the speed of a port (R101). -/
def Dev.speedIndex (d : Dev) (n : Nat) : Nat := if n < 4 then 4 - d.macMode n else 1

/-- A signed 32-bit register. -/
def Dev.rdInt (d : Dev) (k : Nat) : Int := (d.rd k).toInt

/-- The corrected timestamp of a moment: `off` is 0xE10 for ingress and 0xE20 for egress (R100, R101). [log 80: DEDUCED] -/
def Dev.portTs (d : Dev) (t : TimeSt) (n off : Nat) : Ts :=
  tsOf ((((t.count : Nat) : Int) + d.rdInt (tsReg n (off + 4 * d.speedIndex n)) * 65536).toNat)

/-! ### Links (R567, R376) -/

/-- The core PLLs are locked to the reference: SerDes links run (R620, R624). -/
def Dev.refUp (d : Dev) : Bool := decide (d.fld (reg .clk 0 0x100) 4 4 = 15)

/-- The conditions of R567 for a link to be out of DISABLED. [log 81, 86: DEDUCED] -/
def Dev.portReady (d : Dev) (n : Nat) : Bool :=
  if n < 4 then
    d.bit (reg .mac n 0x100) 3 && decide (d.macMode n ≠ 0) && ((d.port n).modPresent || d.bit (reg .mac n 0x100) 5) &&
      d.accepts .mac n && d.enabled .sds 0 && !d.quiesce .sds 0 && !d.fencedAt .sds 0 (2 * n)
  else decide (n = 4) && d.bit (reg .prl 0 0x100) 0 && d.accepts .prl 0

/-- SDS_LANE_CTRL of a lane; quad 8 stands for the pair link (R573). -/
def laneCtrl (quad lane : Nat) : Nat :=
  if quad < 8 then reg .sds 0 (quad * 0x10000 + 0x120 + 4 * lane) else reg .prl 0 (0x320 + 4 * lane)

/-- SDS_LANE_STATUS of a lane, of which the model stores RECAL. -/
def laneStat (quad lane : Nat) : Nat :=
  if quad < 8 then reg .sds 0 (quad * 0x10000 + 0x100 + 4 * lane) else reg .prl 0 (0x300 + 4 * lane)

/-- The lanes of a port (R561). -/
def portLanes (n : Nat) : List (Nat × Nat) :=
  if n < 4 then (rangeFrom 0 8).map fun i => (2 * n + i / 4, i % 4) else (rangeFrom 0 4).map fun i => (8, i)

/-- No recalibration of a lane of the port is in progress any longer. [log 83: DEDUCED] -/
def Dev.recalDone (d : Dev) (n : Nat) : Dev := (portLanes n).foldl (fun d l => d.setFld (laneStat l.1 l.2) 2 1 0) d

/-- A link out of UP or another state into `st`: R376 and LINK_DOWN where it was UP; `count` for LINK_DOWNS (R567); a port in DISABLED
reports no fault. -/
def Dev.linkTo (d : Dev) (n : Nat) (st : LState) (count : Bool) : Dev :=
  let p := d.port n
  let was := p.link
  let clear := decide (st = .disabled)
  let d := d.setPort n { p with link := st, since := d.bounds, paused := {}, pfcSent := {},
                                localFault := p.localFault && !clear, remoteFault := p.remoteFault && !clear }
  if was = .up then
    let d := d.dropQueues n
    let d := if count then d.macBump n 13 else d
    d.macRaise n 10
  else d

/-- A port goes to DISABLED where it may not be out of it; no frame is in progress between two commands (R567, R671).
[log 86: DEDUCED] -/
def Dev.portCease (d : Dev) (n : Nat) : Dev :=
  if (d.port n).link ≠ .disabled ∧ d.portReady n = false then (d.linkTo n .disabled false).recalDone n else d

/-! ### MACsec (R406 to R409) -/

/-- A frame of these EtherTypes passes unprotected (R406). -/
def secExempt (data : List Byte) : Bool := decide (beAt data 12 2 = 0x888E ∨ beAt data 12 2 = 0x8808)

/-- The nonce of a MACsec frame with packet number `pn` (IEEE 802.1AE, 802.1AEbw). [log 89: PRESUMED] -/
def secNonce (r sci : List Byte) (pn : Nat) : List Byte :=
  if saFlag r 3 then xorBytes (slice r 8 12) (toBE 4 (leAt r 20 4) ++ toBE 8 pn) else sci ++ toBE 4 pn

/-- The packet number a received PN stands for, with `t` the highest authenticated and `w` the window (802.1AEbw). -/
def secPn (xpn : Bool) (t w pn : Nat) : Nat :=
  if !xpn then pn
  else
    let low := t + 1 - w
    let hi := low / p32
    if pn < low % p32 ∧ 0x80000000 ≤ low % p32 ∧ pn < 0x80000000 then (hi + 1) * p32 + pn else hi * p32 + pn

/-- A SecTAG read: association, SCI, PN, whether E and C are both 1, where the secure data starts and ends; none when
the tag is not valid or the frame is too short. -/
structure SecTag where
  an : Nat
  sci : List Byte
  pn : Nat
  enc : Bool
  start : Nat
  stop : Nat
deriving DecidableEq, Repr

/-- The SecTAG of a frame. [log 93: DEDUCED] -/
def secTag (data : List Byte) : Option SecTag :=
  let tci := byteAt data 14
  let sl := byteAt data 15
  let sc := bitOf tci 5
  let start := if sc then 28 else 20
  let stop := if sl = 0 then data.length - 16 else start + sl
  if bitOf tci 7 ∨ bitOf tci 3 ≠ bitOf tci 2 ∨ 48 ≤ sl ∨ (sc ∧ (bitOf tci 6 ∨ bitOf tci 4)) ∨ data.length < start + 16 ∨
      data.length < stop + 16 then none
  else some { an := tci % 4, sci := if sc then slice data 20 8 else slice data 6 6 ++ [0, 1], pn := beAt data 16 4,
              enc := bitOf tci 3, start := start, stop := stop }

/-- The receive SC of port `n` with an SCI (R407). -/
def Dev.rxSc (d : Dev) (n : Nat) (sci : List Byte) : Option Nat :=
  (rangeFrom 0 32).find? fun i => d.bit (reg .mac n (0x1008 + 0x20 * i)) 0 &&
    decide (toLE 8 (d.rd64 (reg .mac n (0x1000 + 0x20 * i))) = sci)

/-- A received frame that fails: its counter, and the class it enters the distributor with (R407). -/
def Dev.secFail (d : Dev) (n k : Nat) (data : List Byte) : Dev × List Byte × Option Nat :=
  (d.bump (secCount n k), data, some (if k = 2 then 10 else 9))

/-- A protected frame verified with the key of its SA (R397, R407). [log 90: DEDUCED] -/
def Dev.secVerify (d : Dev) (n s : Nat) (tag : SecTag) (key data : List Byte) : Dev × List Byte × Option Nat :=
  let d := d.rplTakeover s
  let r := d.saRead s
  let q := secPn (saFlag r 3) (saSeq r) (saWindow r) tag.pn
  if d.rplBad s q then (d.saCount s data.length (some 10)).secFail n 2 data
  else
    let body := (data.drop tag.start).take (tag.stop - tag.start)
    let nonce := secNonce r tag.sci q
    let icv := slice data tag.stop 16
    let good := if tag.enc then aeadTag (byteAt r 1) key nonce (data.take tag.start) body
                else aeadTag (byteAt r 1) key nonce (data.take tag.start ++ body) []
    if good ≠ icv then (d.saCount s data.length (some 9)).secFail n 1 data
    else match d.rplAccept s q r with
      | none => (d.saCount s data.length (some 10)).secFail n 2 data
      | some d =>
        let out := data.take 12 ++ if tag.enc then aeadCrypt (byteAt r 1) key nonce body else body
        ((d.saCount s data.length none).bump (secCount n 0), out, none)

/-- The SA whose mark a received protected frame must not pass, with its tag (R407, R589). -/
def Dev.secSa (d : Dev) (n : Nat) (data : List Byte) : Option (Nat × SecTag) :=
  if beAt data 12 2 ≠ 0x88E5 ∨ d.clusterTakes 0 = false then none
  else (secTag data).bind fun tag => (d.rxSc n tag.sci).bind fun i =>
    let v := d.rdN (reg .mac n (0x1010 + 0x20 * i + 4 * tag.an))
    let s := v % 2097152
    let r := d.saRead s
    if bitOf v 31 ∧ d.saExists s ∧ saFlag r 0 ∧ saKind r = 3 then some (s, tag) else none

/-- A received frame whose number is above the acknowledged mark of its SA waits in the MAC (R589). [log 92: DEDUCED] -/
def Dev.secWaits (d : Dev) (n : Nat) (data : List Byte) : Dev × Bool :=
  match d.secSa n data with
  | some (s, tag) =>
    let d := d.rplTakeover s
    let r := d.saRead s
    (d, d.rplWaits s (secPn (saFlag r 3) (saSeq r) (saWindow r) tag.pn))
  | none => (d, false)

/-- A received frame of a port with RX_EN (R407): the frame that enters the distributor, with the class it fails with.
[log 92: DEDUCED] -/
def Dev.secRx (d : Dev) (n : Nat) (data : List Byte) : Dev × List Byte × Option Nat :=
  if secExempt data then (d, data, none)
  else if beAt data 12 2 ≠ 0x88E5 then d.secFail n 4 data
  else if !d.clusterTakes 0 then d.secFail n 1 data
  else match secTag data with
    | none => d.secFail n 1 data
    | some tag =>
      match d.rxSc n tag.sci with
      | none => d.secFail n 3 data
      | some i =>
        let v := d.rdN (reg .mac n (0x1010 + 0x20 * i + 4 * tag.an))
        if !bitOf v 31 then d.secFail n 3 data
        else match d.saUsable (v % 2097152) [3] with
          | (d, .error _) => d.secFail n 3 data
          | (d, .ok k) => (d.entAsk 0).secVerify n (v % 2097152) tag k.key data

/-- A frame protected with number `pn` of the transmit SA (R408). [log 91: DEDUCED] -/
def Dev.secProtect (d : Dev) (n : Nat) (r key data : List Byte) (pn : Nat) : List Byte :=
  let incl := d.bit (reg .mac n 0xC00) 2
  let sci := toLE 8 (d.rd64 (reg .mac n 0xC08))
  let len := data.length - 12
  let tci := (if incl then 0x20 else 0x40) + 0x0C + d.fld (reg .mac n 0xC10) 0 2
  let head := data.take 12 ++ [0x88, 0xE5, byteN tci, byteN (if len < 48 then len else 0)] ++ toBE 4 pn ++
    (if incl then sci else [])
  let nonce := secNonce r sci pn
  let ct := aeadCrypt (byteAt r 1) key nonce (data.drop 12)
  head ++ ct ++ aeadTag (byteAt r 1) key nonce head ct

/-- The frame as it leaves a port with MACsec transmission; none while it must wait for a number or for randomness. -/
def Dev.secTx (d : Dev) (n : Nat) (data : List Byte) : Dev × Option (List Byte) :=
  if !d.bit (reg .mac n 0xC00) 0 || secExempt data then (d, some data)
  else if !d.entRuns 0 then (d, none)
  else
    let s := d.txSa n % 2097152
    match d.saUsable s [4] with
    | (d, .error _) => (d, none)
    | (d, .ok k) =>
      match d.saNumber s with
      | (d, .number pn) =>
        let d := ((d.saCount s data.length none).entAsk 0).bump (secCount n 5)
        (d, some (d.secProtect n (d.saRead s) k.key data pn))
      | (d, _) => (d, none)

/-! ### PTP messages -/

/-- Bytes of a frame from `b` on replaced, and the checksum of the UDP header that covers them updated under RFC 1624, but not
one of zero under IPv4 (R108). -/
def oneStepPut (data : List Byte) (udp : Option (Nat × Bool)) (b : Nat) (new : List Byte) : List Byte :=
  let out := splice data b new
  match udp with
  | none => out
  | some (u, v4) =>
    let old := beAt data (u + 6) 2
    let lead := zeros ((b - u) % 2)
    if v4 ∧ old = 0 then out
    else splice out (u + 6) (toBE 2 (udpNonzero 3 (checksumUpdate old (sum16 (lead ++ slice data b new.length)) (sum16 (lead ++ new)))))

/-- One-step insertion at departure (R108, R109): the frame, whether a value was inserted, whether the insertion failed,
whether it stands for a two-step record. -/
def Dev.insertOneStep (d : Dev) (n : Nat) (p : Pkt) (ts : Ts) : List Byte × Bool × Bool × Bool :=
  match p.oneStep with
  | none => (p.data, false, false, false)
  | some o =>
    if !d.bit (tsReg n 0xE00) 1 then (p.data, false, false, true)
    else if o.correction then
      match p.ts with
      | none => (p.data, false, true, false)
      | some i =>
        let v : Nat := ((((beAt p.data (o.pos + 8) 8 : Nat) : Int) + ts.units - i.units) % ((p64 : Nat) : Int)).toNat
        (oneStepPut p.data o.udp (o.pos + 8) (toBE 8 v), true, false, false)
    else (oneStepPut p.data o.udp (o.pos + 34) (toBE 6 ts.sec ++ toBE 4 ts.ns), true, false, false)

/-- The `k` oldest egress records of a port written to the ring of MAC_TS_RING, in order (R106). -/
def Dev.recordsWrite (d : Dev) (n k : Nat) : Dev :=
  let p := d.port n
  (p.records.take k).foldl (fun d bs => (d.evtWrite (d.fld (tsReg n 0xE04) 0 16) bs).1) (d.setPort n { p with records := p.records.drop k })

/-- An egress record (R106): kept to be written, or discarded with TS_LOST (R107).  How many of those kept have been written by
then is left open. [log 76: DESIGN CHOICE] -/
def Dev.egressRecord (d : Dev) (n : Nat) (p : Pkt) (data : List Byte) (ts : Ts) (ins failed suspect : Bool) : Dev :=
  let (seq, mt, dom) := match ptpAt data with
    | some (a, _) => (beAt data (a + 30) 2, byteAt data a % 16, byteAt data (a + 4))
    | none => (0, 0, 0)
  let (tag, ring) := match p.tx with
    | some t => (t.tag, t.ring)
    | none => (0, 0xFFFF)
  let bs := [0xA1, 0x40, byteN n, byteN (b2n ins + 2 * b2n failed + 4 * b2n suspect)] ++ toLE 4 tag ++ toLE 2 ring ++
    toLE 2 seq ++ [byteN mt, byteN dom, 0, 0] ++ tsBytes ts ++ toLE 4 d.turn
  let (d, k) := d.drawFree
  let d := d.recordsWrite n (k % ((d.port n).records.length + 1))
  let s := d.port n
  if d.bit (tsReg n 0xE04) 31 ∧ s.records.length < 64 then d.setPort n { s with records := s.records ++ [bs] }
  else
    let d := d.bumpSat (tsReg n 0xE08)
    if n < 4 then d.raise .mac n 0 8 else d.raise .prl 0 0 8

/-- A record is due for a frame (R106, R109); the fantail's own messages have none on a ring (R98). -/
def Dev.recordDue (d : Dev) (n : Nat) (p : Pkt) (data : List Byte) (failed asked : Bool) : Bool :=
  !p.fantail && ((match p.tx with | some t => t.tsReq | none => false) || (d.bit (tsReg n 0xE00) 0 && ptpEvent data) ||
    failed || asked)

/-! ### The next frame (R371 to R375) -/

/-- EGR_Q_CFG of a queue of a network port. -/
def Dev.qCfg (d : Dev) (n q : Nat) : Nat := d.rd64 (reg .egr 0 (n * 0x10000 + 0x400 + 8 * q))

/-- The bytes a frame takes on the wire with its FCS, without preamble and gap. [log 78: DEDUCED] -/
def wireLen (n : Nat) : Nat := max n 60 + 4

/-- Entries of a port's turn-gate list: MASK and DURATION (R373). -/
def Dev.gates (d : Dev) (n : Nat) : List (Nat × Nat) :=
  (rangeFrom 0 (d.fld (reg .egr 0 (n * 0x10000 + 0x104)) 0 9)).map fun i =>
    (d.rd64 (reg .egr 0 (n * 0x10000 + 0x1000 + 0x10 * i)), d.fld (reg .egr 0 (n * 0x10000 + 0x1008 + 0x10 * i)) 0 16)

/-- The open mask of a port in turn `t` (R373). -/
def Dev.openAt (d : Dev) (n t : Nat) : Nat :=
  let gs := d.gates n
  let total := gs.foldl (fun a g => a + g.2) 0
  let base := d.rd64 (reg .egr 0 (n * 0x10000 + 0x108))
  if d.bit (reg .egr 0 (n * 0x10000 + 0x100)) 0 ∧ base ≤ t ∧ total ≠ 0 then
    let rec pick : List (Nat × Nat) → Nat → Nat
      | [], _ => p64 - 1
      | (m, dur) :: r, x => if x < dur then m else pick r (x - dur)
    pick gs ((t - base) % total)
  else p64 - 1

/-- The first offset from `off` on, in a list of entries from offset `acc`, at which queue `q` is closed (R374). -/
def closeIn (q off : Nat) : Nat → List (Nat × Nat) → Option Nat
  | _, [] => none
  | acc, (m, dur) :: r => if off < acc + dur ∧ ¬ bitOf m q then some (max acc off) else closeIn q off (acc + dur) r

/-- The turn at whose boundary the window of queue `q` closes (R374). -/
def Dev.closeTurn (d : Dev) (n q : Nat) : Option Nat :=
  let gs := d.gates n
  let total := gs.foldl (fun a g => a + g.2) 0
  let base := d.rd64 (reg .egr 0 (n * 0x10000 + 0x108))
  let s := max (d.turn + 1) base
  if d.bit (reg .egr 0 (n * 0x10000 + 0x100)) 0 ∧ total ≠ 0 then
    let off := (s - base) % total
    (closeIn q off 0 (gs ++ gs)).map fun x => s + x - off
  else none

/-- A frame of `len` bytes ends before the window of its queue closes (R374). -/
def Dev.guardOk (d : Dev) (t : TimeSt) (n q len : Nat) : Bool :=
  match d.closeTurn n q with
  | none => true
  | some m => decide ((wireLen len + 20) * 8 * nsUnit + d.rate n * t.count ≤ d.rate n * (m * d.period * nsUnit))

/-- The head frame of a queue. -/
def PortSt.head (p : PortSt) (q : Nat) : Option EgrItem := (p.queues.getD q []).head?

/-- A queue of a network port is eligible (R371). -/
def Dev.eligible (d : Dev) (t : TimeSt) (n q : Nat) : Bool :=
  let p := d.port n
  let c := d.qCfg n q
  match p.head q with
  | none => false
  | some i => bitOf p.openMask q && !p.paused.getD (bitsOf c 2 3) false && (!bitOf c 1 || d.guardOk t n q i.pkt.data.length)

/-- Deficit round robin over the MODE 1 queues `qs` from the queue the visit stands at (R372): the queue whose head
frame leaves, and the port after the visits before it. -/
def drrPick (quantum : Nat → Nat) (len : Nat → Nat) (qs : List Nat) (p : PortSt) : Nat → PortSt × Option Nat
  | 0 => (p, none)
  | fuel + 1 =>
    match (match qs.find? fun q => decide (p.rr ≤ q) with | some q => some q | none => qs.head?) with
    | none => (p, none)
    | some q =>
      let here := p.rr = q ∧ p.rrVisited
      let df := p.deficits.getD q 0 + if here then 0 else quantum q
      let p := { p with rr := q, rrVisited := true, deficits := p.deficits.set q df 0 }
      if len q + 20 ≤ df then ({ p with deficits := p.deficits.set q (df - (len q + 20)) 0 }, some q)
      else drrPick quantum len qs { p with rr := q + 1, rrVisited := false } fuel

/-- The queue whose head frame a port starts next, and the port after the choice (R371, R375). -/
def Dev.pickQueue (d : Dev) (t : TimeSt) (n : Nat) : PortSt × Option Nat :=
  let p := d.port n
  if n = 4 then (p, (rangeFrom 0 8).find? fun q => (p.head q).isSome)
  else if n < 4 ∧ d.enabled .egr 0 then
    let el := (rangeFrom 0 64).filter (d.eligible t n)
    match el.find? fun q => !bitOf (d.qCfg n q) 0 with
    | some q => (p, some q)
    | none =>
      let len (q : Nat) : Nat := match p.head q with | some i => wireLen i.pkt.data.length | none => 0
      let most := el.foldl (fun a q => max a (len q)) 0
      drrPick (fun q => bitsOf (d.qCfg n q) 8 16 * 64) len el p (65 * (most / 64 + 3))
  else (p, none)

/-- The head frame of queue `q` removed; a queue that becomes empty loses its deficit (R372). -/
def PortSt.pop (p : PortSt) (q : Nat) : PortSt :=
  let rest := (p.queues.getD q []).drop 1
  { p with queues := p.queues.set q rest [], deficits := if rest = [] then p.deficits.erase q else p.deficits }

/-- The head frame `i` of queue `q` leaves port `n` (R106 to R109, R361, R408, R565); it stays where it must wait for its
packet number. [log 77: DEDUCED] -/
def Dev.sendFrame (d0 : Dev) (t : TimeSt) (n q : Nat) (p : PortSt) (i : EgrItem) (suspect : Bool) : Dev :=
  let ts := d0.portTs t n 0xE20
  let (data, ins, failed, asked) := d0.insertOneStep n i.pkt ts
  let (d, out) := if n < 4 then d0.secTx n data else (d0, some data)
  match out with
  | none => d
  | some wire =>
    let wire := wire ++ zeros (60 - wire.length)
    let d := (d.setPort n (p.pop q)).freePkt i.pkt
    let d := if n < 4 then d.bump (reg .egr 0 (n * 0x10000 + 0x4000 + 0x10 * q)) else d
    let d := ((d.macBump n 8).macBump n 9 (wire.length + 4)).emit (.frame n wire)
    let d := if i.pkt.fantail then d.ftLeft n data ts else d
    if d.recordDue n i.pkt data failed asked then d.egressRecord n i.pkt data ts ins failed suspect else d

end Sys2Proof.Machine
end

