-- ==== Sys2Proof/Machine/Ports.lean ====
section
/-! DEFINITION. Frames received and sent, priority-based flow control, link states and module sideband of the ports. -/

namespace Sys2Proof.Machine

/-! ### Frames -/

/-- The ingress priority of a frame of port `n` (R378). -/
def Dev.ingressPri (d : Dev) (n : Nat) (data : List Byte) : Nat :=
  if isVlan (beAt data 12 2) then byteAt data 14 / 32 else d.fld (reg .mpd 0 (0x400 + 0x10 * n)) 16 3

/-- A PFC frame of a network port taken up (R377): quanta of 0 end a pause. -/
def Dev.pfcTake (d : Dev) (n enables : Nat) (quanta : List Nat) : Dev :=
  let p := d.port n
  let paused := (rangeFrom 0 8).foldl (fun m i =>
    if bitOf enables i ∧ d.bit (reg .mpd 0 (0x400 + 0x10 * n)) (8 + i) then m.set i (decide ((quanta[i]?).getD 0 ≠ 0)) false
    else m) p.paused
  (d.setPort n { p with paused := paused }).macBump n 5

/-- What the MAC does with a received frame before its first cell (R564, R377): none where the frame goes on. -/
def Dev.macDiscard (d : Dev) (n : Nat) (data : List Byte) (fcsOk : Bool) : Option Dev :=
  let most := if n < 4 then d.fld (reg .mac n 0x100) 16 14 else 16128
  if !fcsOk then some (d.macBump n 2)
  else if data.length < 60 then some (d.macBump n 3)
  else if most < data.length then some (d.macBump n 4)
  else if beAt data 12 2 = 0x8808 then
    if n < 4 ∧ beAt data 14 2 = 0x0101 then
      some (d.pfcTake n (beAt data 16 2) ((rangeFrom 0 8).map fun i => beAt data (18 + 2 * i) 2))
    else some (d.macBump n 6)
  else none

/-- A frame kept by a network port in standby (R580). -/
def Dev.standbyKeeps (d : Dev) (data : List Byte) : Bool :=
  let t := etherType data
  decide (t = 0x88F7 ∨ t = d.lrnType ∨ t = d.prlType)

/-- A frame stored in cells of its port and handed to the distributor, or dropped with NO_CELL (R359, R360, R378). -/
def Dev.storeFrame (d : Dev) (n : Nat) (data : List Byte) (cls : Option Nat) (ts : Ts) (suspect : Bool) : Dev :=
  let c := cellsFor data.length
  match d.cellAlloc n c with
  | none => d.countDrop 0
  | some d =>
    let (d, id) := d.fresh
    let pri := if n < 4 then some (n, d.ingressPri n data) else none
    let d : Dev := match pri with
      | some (p, i) => { d with priCells := d.priCells.set (p * 8 + i) (d.priCells.getD (p * 8 + i) 0 + c) 0 }
      | none => d
    d.toDst { id := id, data := data, src := n, cells := c, ingress := n, cls := cls, ts := some ts, suspect := suspect,
              pri := pri }

/-- A frame that the MAC would verify waits for randomness (R424): exempt ones pass. [log 195: DESIGN CHOICE] -/
def Dev.secHolds (d : Dev) (data : List Byte) : Bool := !secExempt data && d.clusterTakes 0 && !d.entRuns 0

/-- A received frame of a port that verifies: kept in the MAC while it must wait, else handed on. -/
def Dev.secTake (n : Nat) (d : Dev) (h : SecHeld) : Dev :=
  let (d, w) := d.secWaits n h.data
  if w || d.secHolds h.data then
    let p := d.port n
    d.setPort n { p with secHeld := p.secHeld ++ [h] }
  else
    let (d, data, cls) := d.secRx n h.data
    d.storeFrame n data cls h.ts h.suspect

/-- The frames that wait in a MAC are taken up again. -/
def Dev.secResume (d : Dev) (n : Nat) : Dev :=
  let p := d.port n
  p.secHeld.foldl (Dev.secTake n) (d.setPort n { p with secHeld := [] })

/-- The codewords FEC corrected and could not correct are counted (R562, R571, R572). -/
def Dev.fecCount (d : Dev) (n : Nat) (c : RxCheck) : Dev :=
  let d := (d.macBump n 11 c.corrected).macBump n 12 c.uncorrectable
  if c.uncorrectable = 0 then d else d.macRaise n 13

/-- A port that detects a local fault sends remote fault (R563). -/
def Dev.tellRemote (d : Dev) (n : Nat) (kind : LinkFault) : Dev := if kind = .localFault then d.emit (.remoteFault n) else d

/-- FRAME_RECEIVE (R562, R564): the bytes of a frame without its FCS, and how it arrived. [log 79: DEDUCED] -/
def execFrameReceive (port : Nat) (frame : List Byte) (chk : RxCheck) (s : State) : Host.Outcome State Fault Refusal :=
  s.act fun d =>
    if 4 < port ∨ (d.port port).link ≠ .up then d
    else match (d.fecCount port chk).macDiscard port frame chk.ok with
      | some d => d
      | none =>
        let d := d.fecCount port chk
        let ts := d.portTs s.time port 0xE10
        let d := (d.macBump port 0).macBump port 1 (frame.length + 4)
        if d.portStandby port && !d.standbyKeeps frame then d.macBump port 7
        else
          let suspect := s.time.suspect d.holdLimit
          if port < 4 && d.bit (reg .mac port 0xC00) 1 then
            Dev.secTake port d { data := frame, ts := ts, suspect := suspect }
          else d.storeFrame port frame none ts suspect

/-- ENT_RECOVERED (R423): the start-up test has passed; every instance reseeds and runs, and received frames that waited in
their MACs go on (R424). -/
def execEntRecovered (s : State) : Host.Outcome State Fault Refusal :=
  s.act fun d =>
    let k := reg .ent 0 0x100
    if d.rdN k = 0xF1 then d
    else
      let d := ((d.wrN k 0xF1).raise .ent 0 0 9).entReseed
      let d := ((d.randStall 0 false).randStall 1 false).randStall 2 false
      (rangeFrom 0 4).foldl Dev.secResume d

/-- FRAME_TRANSMIT (R371): a port at a frame boundary.  A MACsec port that is not operational has no queue (R409), but its MAC
reads the key it would use (R426). -/
def execFrameTransmit (port : Nat) (s : State) : Host.Outcome State Fault Refusal :=
  s.act fun d =>
    if (d.port port).link ≠ .up then d
    else if d.secDown port then (d.keyGet (saSlot (d.saRead (d.txSa port % 2097152)))).1
    else
      let (p, q) := d.pickQueue s.time port
      match q with
      | none => d
      | some q =>
        match p.head q with
        | none => d
        | some i => d.sendFrame s.time port q p i (s.time.suspect d.holdLimit)

/-- PFC_RECEIVE (R377): a PFC frame as its class-enable bits and its quanta. -/
def execPfcReceive (port : Nat) (enables : BitVec 8) (quanta : List Nat) (s : State) : Host.Outcome State Fault Refusal :=
  s.act fun d => if port < 4 ∧ (d.port port).link = .up then d.pfcTake port enables.toNat quanta else d

/-- PFC_PAUSE_EXPIRE (R377): the pause time of a priority has run out. -/
def execPfcPauseExpire (port pri : Nat) (s : State) : Host.Outcome State Fault Refusal :=
  s.act fun d => let p := d.port port; d.setPort port { p with paused := p.paused.erase pri }

/-- PFC_REFRESH (R378). -/
def execPfcRefresh (port pri : Nat) (s : State) : Host.Outcome State Fault Refusal :=
  s.act fun d =>
    let p := d.port port
    let c := reg .mpd 0 (0x400 + 0x10 * port)
    match p.pfcSent.find pri with
    | some t =>
      if port < 4 ∧ t + d.fld (c + 12) 0 16 ≤ d.bounds ∧ d.fld (c + 8) 0 21 ≤ d.priCells.getD (port * 8 + pri) 0 then
        (d.setPort port { p with pfcSent := p.pfcSent.put pri d.bounds }).pfcEmit port pri 0xFFFF
      else d
    | none => d

/-! ### Link states (R567) -/

/-- PORT_ENABLE: the conditions of R567 hold, and acquisition starts. -/
def execPortEnable (port : Nat) (s : State) : Host.Outcome State Fault Refusal :=
  s.act fun d => if (d.port port).link = .disabled ∧ d.portReady port ∧ d.refUp then d.linkTo port .training false else d

/-- PORT_LINK_UP: lock has held for MAC_UP_HOLD boundaries; the pair link has no such register. -/
def execPortLinkUp (port : Nat) (s : State) : Host.Outcome State Fault Refusal :=
  s.act fun d =>
    let p := d.port port
    let hold := if port < 4 then d.fld (reg .mac port 0x108) 0 16 else 0
    if p.link = .training ∧ d.portReady port ∧ d.refUp ∧ p.since + hold ≤ d.bounds then
      let d := d.recalDone port
      (d.setPort port { p with link := .up, since := d.bounds, localFault := false, remoteFault := false }).macRaise port 9
    else d

/-- PORT_LINK_FAULT: alignment lost, or a local or remote fault, on a link in UP. [log 82: DEDUCED] -/
def execPortLinkFault (port : Nat) (kind : LinkFault) (s : State) : Host.Outcome State Fault Refusal :=
  s.act fun d =>
    if (d.port port).link = .up then
      let d := (d.linkTo port .fault true).tellRemote port kind
      let p := d.port port
      d.setPort port { p with localFault := kind = .localFault, remoteFault := kind = .remoteFault }
    else d

/-- TRAINING_TIMEOUT: acquisition restarts. -/
def execTrainingTimeout (port : Nat) (s : State) : Host.Outcome State Fault Refusal :=
  s.act fun d => if (d.port port).link = .training then d.linkTo port .training false else d

/-- PORT_DISABLE: a condition of R567 has ceased to hold, and the frame in progress has finished. -/
def execPortDisable (port : Nat) (s : State) : Host.Outcome State Fault Refusal :=
  s.act fun d => d.portCease port

/-- MODPRS_CHANGE (R569): the debounced presence of a module. -/
def execModprsChange (port : Nat) (present : Bool) (s : State) : Host.Outcome State Fault Refusal :=
  s.act fun d =>
    let p := d.port port
    if port < 4 ∧ p.modPresent ≠ present then (d.setPort port { p with modPresent := present }).raise .mac port 0 11 else d

/-- MODINT_ASSERT (R569, R572): a module pulls its interrupt ball low; where it holds it low already, it lets it go high again.
[log 232: DESIGN CHOICE] -/
def execModintAssert (port : Nat) (s : State) : Host.Outcome State Fault Refusal :=
  s.act fun d =>
    if port < 4 then
      let p := d.port port
      let d := d.setPort port { p with modInt := !p.modInt }
      if p.modInt then d else d.raise .mac port 0 12
    else d

/-- A lane serves its port in the present mode (R561). -/
def Dev.laneUsed (d : Dev) (quad lane : Nat) : Bool :=
  if quad < 8 then decide (quad % 2 * 4 + lane < 2 ^ (d.macMode (quad / 2) - 1) ∧ d.macMode (quad / 2) ≠ 0) else decide (lane < 4)

/-- A write of SDS_LANE_CTRL of a lane (R573, R614). -/
def laneCtrlW (quad lane : Nat) (d : Dev) (t : Tgt) : Dev :=
  let port := if quad < 8 then quad / 2 else 4
  let d := d.store t
  if bitOf t.acc.data 8 then
    let d := d.setFld (laneStat quad lane) 2 1 1
    if (d.port port).link = .up ∧ d.laneUsed quad lane then d.linkTo port .training true else d
  else d

/-- FORCE_RECAL (R614): a write of FORCE_RECAL to a lane of a quad; quad 8 stands for the pair link. -/
def execForceRecal (pt : Party) (quad lane : Nat) (v : BitVec 32) (s : State) : Host.Outcome State Fault Refusal :=
  s.act fun d => d.ownWrite pt (laneCtrl quad lane) 4 (putBits v.toNat 8 1 1) (laneCtrlW quad lane)

end Sys2Proof.Machine
end

