-- ==== Sys2Proof/Machine/StoreCode.lean ====
section
/-! DEFINITION. The forms of the block store as bytes and numbers: the erasure code (R444), the records of a store (R453 to
R457), the cipher methods of a grain (R452). -/

namespace Sys2Proof.Machine

/-- Bytes of a grain. -/
abbrev grainBytes : Nat := 65536

/-- Bytes of an LBA. -/
abbrev lbaBytes : Nat := 4096

/-! ### GF(2^8) with the reduction polynomial 0x11D (R444) -/

/-- A product by shifts: `n` bits of `b` are left. -/
def gfMulN : Nat → Nat → Nat → Nat
  | 0, _, _ => 0
  | n + 1, a, b =>
    let a2 := if 128 ≤ a then (a * 2) ^^^ 0x11D else a * 2
    (if b % 2 = 1 then a else 0) ^^^ gfMulN n a2 (b / 2)

/-- A product. -/
def gfMul (a b : Nat) : Nat := gfMulN 8 a b

/-- The power a^(2^(n+1) - 2): squares multiplied together. -/
def gfInvN : Nat → Nat → Nat
  | 0, _ => 1
  | n + 1, a => gfMul (gfMul a a) (gfInvN n (gfMul a a))

/-- The inverse: a^254. -/
def gfInv (a : Nat) : Nat := gfInvN 7 a

/-- The coefficient c(i, j) (R444). -/
def gfCoef (i j : Nat) : Nat := gfInv ((16 + i) ^^^ j)

/-- A byte string times a number. -/
def gfScale (c : Nat) (bs : List Byte) : List Byte := bs.map fun b => byteN (gfMul c b.toNat)

/-- Bytes a member holds of a grain (R444). -/
def fragBytes (pol k : Nat) : Nat := if pol = 2 then lbaBytes * ceilDiv 16 k else grainBytes

/-- Data fragments of a grain. -/
def dataFrags (k s : Nat) (ct : List Byte) : List (List Byte) := (rangeFrom 0 k).map fun j => slice ct (j * s) s

/-- Parity fragment `i` of data fragments (R444). -/
def parityFrag (s i : Nat) (ds : List (List Byte)) : List Byte :=
  ((ds.foldl (fun (q : Nat × List Byte) f => (q.1 + 1, xorBytes q.2 (gfScale (gfCoef i q.1) f))) (0, zeros s))).2

/-- What each member holds of a grain's ciphertext, in member order (R444). -/
def encodeGrain (pol k m : Nat) (ct : List Byte) : List (List Byte) :=
  if pol = 2 then
    let s := fragBytes pol k
    let ds := dataFrags k s ct
    ds ++ (rangeFrom 0 m).map fun i => parityFrag s i ds
  else (rangeFrom 0 k).map fun _ => ct

/-- A row of the decoder: coefficients over the data fragments and the bytes they give. -/
structure GfRow where
  coef : List Nat
  bytes : List Byte
deriving DecidableEq, Repr

/-- A row scaled. -/
def GfRow.scale (c : Nat) (r : GfRow) : GfRow := { coef := r.coef.map (gfMul c), bytes := gfScale c r.bytes }

/-- The sum of two rows. -/
def GfRow.add (a b : GfRow) : GfRow :=
  { coef := List.zipWith (fun x y => x ^^^ y) a.coef b.coef, bytes := xorBytes a.bytes b.bytes }

/-- Column `c` eliminated: a row with a pivot comes to the place `c` of the rows done. -/
def gfStep (q : List GfRow × List GfRow) (c : Nat) : List GfRow × List GfRow :=
  match takeFirst (fun r : GfRow => decide ((r.coef[c]?).getD 0 ≠ 0)) q.2 with
  | none => q
  | some (p, rest) =>
    let p := p.scale (gfInv ((p.coef[c]?).getD 0))
    let clear (r : GfRow) : GfRow := r.add (p.scale ((r.coef[c]?).getD 0))
    (q.1.map clear ++ [p], rest.map clear)

/-- A grain's ciphertext from `k` fragments of members, data and parity alike (R444). -/
def decodeGrain (pol k : Nat) (sel : List (Nat × List Byte)) : List Byte :=
  if pol = 2 then
    let rows := sel.map fun f => (⟨(rangeFrom 0 k).map fun j => if f.1 < k then b2n (decide (f.1 = j)) else gfCoef (f.1 - k) j, f.2⟩ : GfRow)
    slice (((rangeFrom 0 k).foldl gfStep ([], rows)).1.flatMap (·.bytes)) 0 grainBytes
  else match sel with
    | (_, b) :: _ => slice b 0 grainBytes
    | [] => zeros grainBytes

/-- The subsets of `n` elements of a list, in the order of the list. -/
def choose {α : Type} : Nat → List α → List (List α)
  | 0, _ => [[]]
  | _ + 1, [] => []
  | n + 1, x :: r => (choose n r).map (x :: ·) ++ choose (n + 1) r

/-- The candidates of R460 from fragments in member order: for COPIES each copy; for RS the data fragments, then the sets
that replace one by parity, then two, and so on. -/
def candidates (pol k m : Nat) (frags : List (Nat × List Byte)) : List (List (Nat × List Byte)) :=
  if pol = 2 then
    let ds := frags.filter fun f => decide (f.1 < k)
    let ps := frags.filter fun f => decide (k ≤ f.1)
    (rangeFrom 0 (m + 1)).flatMap fun p => (choose (k - p) ds).flatMap fun a => (choose p ps).map fun b => a ++ b
  else frags.map fun f => [f]

/-! ### Volume records (R454) -/

/-- VOLUME. -/
def vrVol (r : List Byte) : Nat := leAt r 0 2

/-- STATE. -/
def vrState (r : List Byte) : Nat := byteAt r 2

/-- WIDE. -/
def vrWide (r : List Byte) : Bool := bitOf (byteAt r 3) 0

/-- PAIR_COPY. -/
def vrPair (r : List Byte) : Bool := bitOf (byteAt r 3) 1

/-- ENC: XTS. -/
def vrXts (r : List Byte) : Bool := bitOf (byteAt r 3) 2

/-- POLICY. -/
def vrPol (r : List Byte) : Nat := byteAt r 4

/-- K. -/
def vrK (r : List Byte) : Nat := byteAt r 5

/-- M, 0 for COPIES. -/
def vrM (r : List Byte) : Nat := if byteAt r 4 = 2 then byteAt r 6 else 0

/-- ENGINE. -/
def vrEngine (r : List Byte) : Nat := byteAt r 7 % 4

/-- BLOCKS. -/
def vrBlocks (r : List Byte) : Nat := leAt r 8 8

/-- KEY_SLOT. -/
def vrSlot (r : List Byte) : Nat := leAt r 16 4 % 2097152

/-- OWNER. -/
def vrOwner (r : List Byte) : Func := let w := leAt r 20 2; ⟨bitsOf w 12 1, bitsOf w 0 12⟩

/-- Members of a policy: K, or K + M. -/
def vrCount (r : List Byte) : Nat := vrK r + vrM r

/-- The member stores in member order. -/
def vrMembers (r : List Byte) : List Nat := (rangeFrom 0 (vrCount r)).map fun i => byteAt r (24 + i)

/-- GEN. -/
def vrGen (r : List Byte) : Nat := leAt r 44 8

/-- FENCE. -/
def vrFence (r : List Byte) : Nat := leAt r 52 8

/-- A record holds a reserved encoding (R444, R454). -/
def vrReserved (r : List Byte) : Bool :=
  let k := vrK r
  let m := byteAt r 6
  let ms := vrMembers r
  !(vrState r = 0 || vrState r = 1 || vrState r = 3 || vrState r = 4) ||
    !((vrPol r = 1 && decide (1 ≤ k ∧ k ≤ 3) && decide (m = 0)) || (vrPol r = 2 && decide (2 ≤ k ∧ k ≤ 16 ∧ 1 ≤ m ∧ m ≤ 4))) ||
    ms.any (fun s => decide (96 ≤ s)) || decide (ms.eraseDups.length ≠ ms.length)

/-! ### Map entries and log records (R438, R457) -/

/-- A map entry as 16 B, with GIDX of a log entry. -/
def MapEnt.bytes (e : MapEnt) (gidx : Nat) : List Byte :=
  toLE 4 e.seg ++ [byteN e.slot, byteN (b2n e.mapped + 2 * b2n e.zero + 4 * b2n e.pair), byteN gidx, 0] ++
    toLE 6 e.version ++ [0, 0]

/-- A log entry of 64 B. -/
def logEntry (e : MapEnt) (gidx : Nat) : List Byte := e.bytes gidx ++ slice e.digest 0 32 ++ slice e.tag 0 16

/-- A log record (R457). -/
def logRecord (move : Bool) (lsn vol atom turn : Nat) (es : List (Nat × MapEnt)) : List Byte :=
  let b := toLE 4 0x094010C5 ++ [1, byteN es.length, byteN (b2n move), 0] ++ toLE 8 lsn ++ toLE 2 vol ++ [0, 0] ++
    toLE 4 atom ++ toLE 8 turn ++ zeros 32 ++ es.flatMap fun e => logEntry e.2 (e.1 % 16)
  let b := slice b 0 2044
  b ++ toLE 4 (crc32c 0xFFFFFFFF b)

/-- A log record is valid for a volume (R457). -/
def logValid (vol : Nat) (b : List Byte) : Bool :=
  decide (leAt b 0 4 = 0x094010C5) && decide (byteAt b 4 = 1) && decide (leAt b 16 2 = vol) &&
    decide (1 ≤ byteAt b 5 ∧ byteAt b 5 ≤ 16) && decide (leAt b 2044 4 = crc32c 0xFFFFFFFF (slice b 0 2044))

/-- The grains with their entries that a log record names. -/
def logEntries (b : List Byte) : List (Nat × MapEnt) :=
  (rangeFrom 0 (byteAt b 5)).map fun i =>
    let e := slice b (64 + 64 * i) 64
    let fl := byteAt e 5
    (leAt b 20 4 * 16 + byteAt e 6 % 16,
      { seg := leAt e 0 4, slot := byteAt e 4 % 128, mapped := bitOf fl 0, zero := bitOf fl 1, pair := bitOf fl 2,
        version := leAt e 8 6, digest := if bitOf fl 1 then [] else slice e 16 32, tag := if bitOf fl 1 then [] else slice e 48 16 })

/-- LSN of a log record. -/
def logLsn (b : List Byte) : Nat := leAt b 8 8

/-- MOVE of a log record. -/
def logMove (b : List Byte) : Bool := bitOf (byteAt b 6) 0

/-! ### Labels, extents, segments (R453, R455, R456) -/

/-- A store label of 8,192 B. -/
def labelBytes (index id cap : Nat) : List Byte :=
  let b := slice (toLE 4 0x09401AB1 ++ [1, byteN index, 0, 0] ++ toLE 8 id ++ toLE 8 cap ++ toLE 4 (ceilDiv cap 161)) 0 8188
  b ++ toLE 4 (crc32c 0xFFFFFFFF b)

/-- A label is valid. -/
def labelValid (b : List Byte) : Bool :=
  decide (leAt b 0 4 = 0x09401AB1) && decide (byteAt b 4 = 1) && decide (byteAt b 5 < 96) &&
    decide (leAt b 8188 4 = crc32c 0xFFFFFFFF (slice b 0 8188))

/-- An extent table entry of 16 B. -/
def extBytes (e : Ext) (alloc : Bool) : List Byte :=
  toLE 6 e.start ++ [byteN (b2n alloc), byteN e.member] ++ toLE 2 e.vol ++ [0, 0] ++ toLE 4 e.seg

/-- LBAs of an extent (R455). -/
def extLen (pol k : Nat) : Nat := 33 + 128 * fragBytes pol k / lbaBytes

/-- A segment header of 4,096 B. -/
def segHeader (s : Seg) (member vol seg : Nat) : List Byte :=
  let b := slice (toLE 4 0x09405E61 ++ [1, byteN member] ++ toLE 2 vol ++ toLE 4 seg ++
    [byteN s.pol, byteN s.k, byteN s.m, 0] ++ toLE 8 s.openLsn) 0 4092
  b ++ toLE 4 (crc32c 0xFFFFFFFF b)

/-- A segment header is valid for a volume and a segment. -/
def segValid (vol seg : Nat) (b : List Byte) : Bool :=
  decide (leAt b 0 4 = 0x09405E61) && decide (byteAt b 4 = 1) && decide (leAt b 6 2 = vol) && decide (leAt b 8 4 = seg) &&
    decide (leAt b 4092 4 = crc32c 0xFFFFFFFF (slice b 0 4092))

/-- The first LBA after the extent table of a store of `cap` LBAs. -/
def extFirst (cap : Nat) : Nat := 1026 + ceilDiv (16 * ceilDiv cap 161) lbaBytes

/-- The lowest start from `at_` on at which `len` LBAs fit between extents sorted by their starts (R453). -/
def extFit (len cap at_ : Nat) : List Ext → Option Nat
  | [] => if at_ + len ≤ cap then some at_ else none
  | e :: r => if at_ + len ≤ e.start then some at_ else extFit len cap (max at_ (e.start + e.len)) r

/-! ### Encryption at rest (R452, R421) -/

/-- The 96-bit integer of R452. -/
def grainNonce (vol g ver : Nat) : Nat := vol * 2 ^ 80 + g * 2 ^ 44 + ver

/-- The AAD of R452. -/
def grainAad (vol g ver : Nat) : List Byte := toLE 2 vol ++ toLE 6 g ++ toLE 6 ver ++ [0, 0]

/-- A grain encrypted: ciphertext, tag, digest (R421). -/
def grainSeal (isXts : Bool) (key : List Byte) (vol g ver : Nat) (pt : List Byte) : List Byte × List Byte × List Byte :=
  let n := grainNonce vol g ver
  if isXts then (xts true key (toLE 16 n) pt, zeros 16, sha256 pt)
  else
    let ct := gcmCrypt key (toBE 12 n) pt
    (ct, gcmTag key (toBE 12 n) (grainAad vol g ver) ct, sha256 pt)

/-- A grain decrypted: AUTH_FAIL when its tag does not verify, INTEGRITY_FAIL when its digest does not (R421). -/
def grainOpen (isXts : Bool) (key : List Byte) (vol g : Nat) (e : MapEnt) (ct : List Byte) : Except Nat (List Byte) :=
  let n := grainNonce vol g e.version
  let pt := if isXts then xts false key (toLE 16 n) ct else gcmCrypt key (toBE 12 n) ct
  if ¬ isXts ∧ gcmTag key (toBE 12 n) (grainAad vol g e.version) ct ≠ e.tag then .error 0x10
  else if sha256 pt ≠ e.digest then .error 0x31
  else .ok pt

end Sys2Proof.Machine
end

