-- ==== Sys2Proof/Machine/NvmeTcp.lean ====
section
/-! DEFINITION. What the device sends to a store (R36, R441, R442): commands to local stores by name, and the frames of
NVMe/TCP to remote ones.  The forms of NVMe 2.0, NVMe/TCP and TCP are those of their specifications. [log 197: PRESUMED] -/

namespace Sys2Proof.Machine

/-- A store. -/
def Dev.store? (d : Dev) (s : Nat) : StoreSt := d.stores.getD s {}

/-- A store changed. -/
def Dev.setStore (d : Dev) (s : Nat) (x : StoreSt) : Dev := { d with stores := d.stores.set s x {} }

/-- The medium behind a store. -/
def Dev.mediumOf (d : Dev) (s : Nat) : Medium := (d.media.find (d.store? s).medium).getD { data := 0, cap := 0 }

/-- NSID of a descriptor (R472). -/
def StoreSt.nsid (x : StoreSt) : Nat := leAt x.desc 4 4

/-- The depth of an I/O queue of a store (R441, R442). -/
def StoreSt.depth (x : StoreSt) : Nat := if x.remote then 256 else 1024

/-! ### Commands and PDUs -/

/-- A submission queue entry: opcode, CID, NSID, data pointer and the command dwords from 10 on. -/
def nvmeSqe (op cid nsid : Nat) (dptr : List Byte) (cdws : List Nat) : List Byte :=
  slice ([byteN op, 0x40] ++ toLE 2 cid ++ toLE 4 nsid ++ zeros 16 ++ slice dptr 0 16 ++ cdws.flatMap (toLE 4)) 0 64

/-- The SGL descriptor of `n` bytes of data, in the capsule or moved by data PDUs. -/
def nvmeSgl (inCap : Bool) (n : Nat) : List Byte := zeros 8 ++ toLE 4 n ++ zeros 3 ++ [if inCap then 0x01 else 0x5A]

/-- Read, or Write with FUA, of `n` LBAs from `lba`. -/
def nvmeIo (write inCap : Bool) (cid nsid lba n : Nat) : List Byte :=
  nvmeSqe (if write then 1 else 2) cid nsid (nvmeSgl inCap (n * 4096))
    [lba % p32, lba / p32, (n - 1) % 65536 + if write then 0x40000000 else 0, 0, 0, 0]

/-- The digest of a PDU's header or data: CRC-32C (R442). -/
def pduDigest (b : List Byte) : List Byte := toLE 4 (crc32c 0xFFFFFFFF b)

/-- A PDU with header and data digests: type, flags, the header after its first 8 bytes, the data. -/
def nvmePdu (type flags : Nat) (head data : List Byte) : List Byte :=
  let hlen := 8 + head.length
  let n := hlen + 4 + (if data = [] then 0 else data.length + 4)
  let h := [byteN type, byteN (flags + if data = [] then 1 else 3), byteN hlen, byteN (if data = [] then 0 else hlen + 4)] ++ toLE 4 n ++ head
  h ++ pduDigest h ++ if data = [] then [] else data ++ pduDigest data

/-- A capsule of a command with the data it carries. -/
def capsule (sqe data : List Byte) : List Byte := nvmePdu 4 0 sqe data

/-- Data in host-to-controller PDUs of at most `most` bytes, from offset `off` on, with the CID of their command. -/
def dataPdus (cid most off : Nat) : Nat → List Byte → List Byte
  | 0, _ => []
  | n + 1, bs =>
    if bs = [] then []
    else
      let part := bs.take most
      let rest := bs.drop most
      nvmePdu 6 (if rest = [] then 4 else 0) (toLE 2 cid ++ toLE 2 cid ++ toLE 4 off ++ toLE 4 part.length ++ zeros 4) part ++
        dataPdus cid most (off + part.length) n rest

/-- The PDUs of a write: its data goes in the capsule up to the controller's limit, otherwise in data PDUs that follow at once.
[log 237: DEDUCED] -/
def writePdus (m : Medium) (cid nsid lba : Nat) (data : List Byte) : List Byte :=
  let n := ceilDiv data.length 4096
  if data.length ≤ m.capsule then capsule (nvmeIo true true cid nsid lba n) data
  else capsule (nvmeIo true false cid nsid lba n) [] ++ dataPdus cid (max m.h2c 4096) 0 (n + 1) data

/-- The PDUs that open queue `q` of a store: ICReq with both digests, and Connect. -/
def connectPdus (x : StoreSt) (q kato : Nat) : List Byte :=
  let body := slice (zeros 16 ++ [0xFF, 0xFF] ++ zeros 238 ++ slice x.nqn 0 256 ++ slice x.hostNqn 0 256) 0 1024
  let sqe := splice (splice (nvmeSqe 0x7F 0 1 (nvmeSgl true 1024) []) 42 (toLE 2 q ++ toLE 2 255)) 48 (toLE 4 kato)
  [0, 0, 128, 0] ++ toLE 4 128 ++ [0, 0, 0, 3] ++ zeros 116 ++ capsule sqe body

/-! ### Segments -/

/-- A TCP segment between two addresses, with its checksum over the pseudo header `ph`. -/
def tcpSegment (ph : List Byte) (sport dport seq : Nat) (ack : List Byte) (data : List Byte) : List Byte :=
  let head (c : Nat) : List Byte :=
    toBE 2 sport ++ toBE 2 dport ++ toBE 4 seq ++ slice ack 0 4 ++ [0x50, 0x18, 0xFF, 0xFF] ++ toBE 2 c ++ [0, 0]
  head (checksum (ph ++ head 0 ++ data)) ++ data

/-- A frame that carries a TCP segment toward a store; the next hop and the acknowledgement come from outside. -/
def StoreSt.tcpFrame (x : StoreSt) (q seq : Nat) (hop ack data : List Byte) : List Byte :=
  let mac := hop ++ macAddr (byteAt x.desc 3 % 4)
  let dport := beAt x.desc 10 2
  let sport := 49152 + q
  let len := 20 + data.length
  if bitOf (byteAt x.desc 1) 1 then
    let ad := slice x.desc 48 16 ++ slice x.desc 12 16
    mac ++ [0x86, 0xDD, 0x60, 0, 0, 0] ++ toBE 2 len ++ [6, 64] ++ ad ++
      tcpSegment (ad ++ toBE 4 len ++ [0, 0, 0, 6]) sport dport seq ack data
  else
    let ad := slice x.desc 48 4 ++ slice x.desc 12 4
    let ip (c : Nat) : List Byte := [0x45, 0] ++ toBE 2 (20 + len) ++ [0, 0, 0x40, 0, 64, 6] ++ toBE 2 c ++ ad
    mac ++ [0x08, 0x00] ++ ip (checksum (ip 0)) ++ tcpSegment (ad ++ [0, 6] ++ toBE 2 len) sport dport seq ack data

/-- Bytes on the connection of queue `q` of a remote store: frames of source 7 that wait for cells and go to the distributor
(R36, R358, R360). -/
def Dev.tcpSend (d : Dev) (s q : Nat) : Nat → List Byte → Dev
  | 0, _ => d
  | n + 1, bs =>
    if bs = [] then d
    else
      let x := d.store? s
      let part := bs.take 1440
      let seq := x.seqs.getD q 0
      let (d, hop) := d.drawBytes 6
      let (d, ack) := d.drawBytes 4
      let d := d.setStore s { x with seqs := x.seqs.set q ((seq + part.length) % p32) 0 }
      let (d, id) := d.fresh
      let data := x.tcpFrame q seq hop ack part
      (d.sendLater { id := id, data := data, src := 7, cells := cellsFor data.length }).tcpSend s q n (bs.drop 1440)

/-- Bytes sent whole. -/
def Dev.tcpAll (d : Dev) (s q : Nat) (bs : List Byte) : Dev := d.tcpSend s q (bs.length + 1) bs

/-! ### Commands sent -/

/-- A write of engine `e` sent to a store. -/
def Dev.sendWrite (d : Dev) (id s e lba : Nat) (data : List Byte) : Dev :=
  let x := d.store? s
  if x.remote then d.tcpAll s (e + 1) (writePdus (d.mediumOf s) (id % 65536) x.nsid lba data)
  else d.emit (.store id s "WRITE FUA" lba data)

/-- A read of engine `e` sent to a store. -/
def Dev.sendRead (d : Dev) (id s e lba n : Nat) : Dev :=
  let x := d.store? s
  if x.remote then d.tcpAll s (e + 1) (capsule (nvmeIo false false (id % 65536) x.nsid lba n) [])
  else d.emit (.store id s "READ" lba (toLE 4 n))

/-- Another command of R441 sent to a store on queue `q`: its name, opcode, NSID, first dwords and data, in the capsule toward a
remote store. -/
def Dev.storeSay (d : Dev) (s q : Nat) (name : String) (op nsid lba : Nat) (cdws : List Nat) (data : List Byte := []) : Dev :=
  if (d.store? s).remote then
    d.tcpAll s q (capsule (nvmeSqe op 1 nsid (if data = [] then [] else nvmeSgl true data.length) cdws) data)
  else d.emit (.store 0 s name lba data)

/-- LBAs of a store deallocated.  The manual names no occasion: extents that are freed and a medium that is formatted.
[log 198: DESIGN CHOICE] -/
def Dev.storeTrim (d : Dev) (s lba n : Nat) : Dev :=
  d.storeSay s 1 "DATASET MANAGEMENT DEALLOCATE" 9 (d.store? s).nsid lba [0, 4] (zeros 4 ++ toLE 4 n ++ toLE 8 lba)

/-- Keep Alive on the admin queue of a store (R441, R442), once half of BLK_STORE_TIMEOUT has passed. [log 198: DESIGN CHOICE] -/
def Dev.storeAlive (d : Dev) (s : Nat) : Dev :=
  let x := d.store? s
  if d.fld (reg .blkg 0 0x12C) 0 16 * 1000000 ≤ 2 * ((d.bounds - x.alive) * d.period) then
    (d.setStore s { x with alive := d.bounds }).storeSay s 0 "KEEP ALIVE" 0x18 0 0 []
  else d

/-- The connections or queue pairs of a store opened, one for each block engine, and its SMART / Health log read (R441, R442).
[log 198: DESIGN CHOICE] -/
def Dev.storeOpen (d : Dev) (s : Nat) : Dev :=
  let x := d.store? s
  if x.remote then
    let kato := d.fld (reg .blkg 0 0x12C) 0 16
    let d := (rangeFrom 0 5).foldl (fun d q =>
      let (d, n) := d.drawFree
      let x := d.store? s
      (d.setStore s { x with seqs := x.seqs.set q (n % p32) 0 }).tcpAll s q (connectPdus x q (if q = 0 then kato else 0))) d
    (d.tcpAll s 0 (capsule (nvmeSqe 6 1 x.nsid (nvmeSgl false 4096) [0]) [])).tcpAll s 0
      (capsule (nvmeSqe 2 1 0xFFFFFFFF (nvmeSgl false 512) [0x7F0002]) [])
  else
    let d := (d.emit (.store 0 s "IDENTIFY" x.nsid [])).emit (.store 0 s "SET FEATURES NUMBER OF QUEUES" 4 [])
    let d := d.emit (.store 0 s "GET LOG PAGE SMART HEALTH" 0 [])
    (rangeFrom 1 4).foldl (fun d q =>
      (d.emit (.store 0 s "CREATE IO COMPLETION QUEUE" q (toLE 2 1023))).emit (.store 0 s "CREATE IO SUBMISSION QUEUE" q (toLE 2 1023))) d

/-- A store given up: flushed, and the queue pairs of a local one deleted (R441). [log 198: DESIGN CHOICE] -/
def Dev.storeClose (d : Dev) (s : Nat) : Dev :=
  let d := (rangeFrom 1 4).foldl (fun d q => d.storeSay s q "FLUSH" 0 (d.store? s).nsid 0 []) d
  if (d.store? s).remote then d
  else (rangeFrom 1 4).foldl (fun d q =>
    (d.emit (.store 0 s "DELETE IO SUBMISSION QUEUE" q [])).emit (.store 0 s "DELETE IO COMPLETION QUEUE" q [])) d

end Sys2Proof.Machine
end

