-- ==== Sys2Proof/Machine/StoreOps.lean ====
section
/-! DEFINITION. The named operations of the block store: stores and their media, volumes, segments, grains of commands and
log records (R436 to R463). -/

namespace Sys2Proof.Machine

/-! ### Quern commands -/

/-- An outstanding command by its number. -/
def Dev.qcmd (d : Dev) (id : Nat) : Option QCmd := d.qcmds.find? fun c => c.id = id

/-- An outstanding command changed: it has made progress (R610). -/
def Dev.setCmd (d : Dev) (id : Nat) (f : QCmd → QCmd) : Dev :=
  { d with qcmds := d.qcmds.map fun c => if c.id = id then { f c with moved := d.bounds } else c }

/-- OPCODE of a command. -/
def QCmd.op (c : QCmd) : Nat := byteAt c.entry 0

/-- VOLUME of a command. -/
def QCmd.vol (c : QCmd) : Nat := leAt c.entry 4 2

/-- SLBA of a command. -/
def QCmd.slba (c : QCmd) : Nat := leAt c.entry 8 8

/-- NBLK of a command. -/
def QCmd.nblk (c : QCmd) : Nat := leAt c.entry 16 4

/-- The data pointer is a scatter list. -/
def QCmd.sgl (c : QCmd) : Bool := bitOf (byteAt c.entry 1) 2

/-- Data bytes of a command (R487). -/
def QCmd.dataLen (c : QCmd) : Nat := c.nblk * lbaBytes * if c.op = 7 then 2 else 1

/-- Where the data of a command lies in host memory: address and length, in order (R487). -/
def QCmd.spans (c : QCmd) : List (Nat × Nat) :=
  if c.sgl then
    let l := match c.data.find? fun x => x.1 = 0 with | some x => x.2 | none => []
    (rangeFrom 0 (leAt c.entry 32 2)).map fun i => (leAt l (16 * i) 8, leAt l (16 * i + 8) 4)
  else (rangeFrom 0 (c.dataLen / lbaBytes)).map fun i => (leAt c.entry (24 + 8 * i) 8, lbaBytes)

/-- The data a command has read, in order. -/
def QCmd.bytes (c : QCmd) : List Byte :=
  (sortBy (fun a b => decide (a.1 ≤ b.1)) (c.data.filter fun x => decide (x.1 ≠ 0))).flatMap (·.2)

/-- The end of a command (R492): its status and DETAIL, and its place in the order of ending; grains whose log record
has not been issued are given up. -/
def Dev.cmdEnd (d : Dev) (id st detail : Nat) : Dev :=
  let (d, n) := d.fresh
  let gone := (d.tasks.filter fun t => decide (t.cmd = id) && !t.logged).map (·.id)
  { d with qcmds := d.qcmds.map fun c => if c.id = id ∧ c.done = none then { c with done := some (st, detail, n), endTurn := d.turn } else c,
           tasks := d.tasks.filter fun t => decide (t.id ∉ gone),
           sreads := d.sreads.filter fun r => decide (r.task ∉ gone) }

/-- Data of a command written to host memory at byte `off` of its data; none when its function may not master the bus
(R524) or it has already ended. -/
def Dev.cmdWrite (d : Dev) (c : QCmd) : Nat → List (Nat × Nat) → List Byte → Dev
  | _, [], _ => d
  | off, (a, n) :: r, bs =>
    if n ≤ off then d.cmdWrite c (off - n) r bs
    else if bs = [] then d
    else
      let k := min (n - off) bs.length
      (d.dmaWrite c.func (a + off) (bs.take k) true).cmdWrite c 0 r (bs.drop k)

/-! ### Stores and media -/

/-- A store can be written: READY. -/
def Dev.storeReady (d : Dev) (s : Nat) : Bool := decide ((d.store? s).state = 1)

/-- A store answers: the reference runs, and for a local one DRP accepts work (R625, R671). -/
def Dev.storeReach (d : Dev) (s : Nat) : Bool := d.refUp && ((d.store? s).remote || d.accepts .drp 0)

/-- Work on stores waits: one that has not failed does not answer (R625). [log 225: DEDUCED] -/
def Dev.storesAway (d : Dev) : Bool :=
  d.stores.cells.any fun c => decide (c.2.state = 1 ∨ c.2.state = 3) && !d.storeReach c.1

/-- A store holds what it held and takes writes: READY, or REMOVING with extents left. [log 111: DEDUCED] -/
def Dev.storeReadable (d : Dev) (s : Nat) : Bool := decide ((d.store? s).state = 1 ∨ (d.store? s).state = 3)

/-- `n` LBAs of a medium from `lba`. -/
def Medium.read (m : Medium) (lba n : Nat) : List Byte := (rangeFrom lba n).flatMap fun i => m.lbas.getD i (zeros lbaBytes)

/-- LBAs of a medium written. -/
def lbaPut (m : NMap (List Byte)) (lba : Nat) (data : List Byte) : Nat → NMap (List Byte)
  | 0 => m
  | n + 1 => lbaPut (m.set lba (slice data 0 lbaBytes) (zeros lbaBytes)) (lba + 1) (data.drop lbaBytes) n

/-- Data made durable on a store. -/
def Dev.storeLand (d : Dev) (s lba : Nat) (data : List Byte) : Dev :=
  let m := d.mediumOf s
  { d with media := d.media.put (d.store? s).medium { m with lbas := lbaPut m.lbas lba data (ceilDiv data.length lbaBytes) } }

/-- A write of the device's own records to a store by engine `e`, durable when the step ends (labels, directories, extent tables,
headers, repairs, moves): no row of the table waits for its acknowledgement.  A write of the same LBA that is still to be
acknowledged carries what it holds now (R458). [log 107: DESIGN CHOICE] -/
def Dev.storePut (d : Dev) (s lba : Nat) (data : List Byte) (e : Nat := 0) : Dev :=
  let d : Dev := { d with swrites := d.swrites.map fun w =>
    if w.store = s ∧ w.lba = lba ∧ w.data.length = data.length then { w with data := data } else w }
  (d.storeLand s lba data).sendWrite 0 s e lba data

/-- Commands of an engine that a store has not answered. -/
def Dev.ioBusy (d : Dev) (s e : Nat) : Nat :=
  (d.swrites.filter fun w => w.sent && decide (w.store = s ∧ w.eng = e)).length +
    (d.sreads.filter fun r => r.sent && decide (r.store = s ∧ r.eng = e)).length

/-- Two writes touch one LBA of one store. -/
def SWrite.meets (a b : SWrite) : Bool :=
  decide (a.store = b.store) && decide (a.lba < b.lba + ceilDiv b.data.length lbaBytes) && decide (b.lba < a.lba + ceilDiv a.data.length lbaBytes)

/-- The same write. -/
def SWrite.same (a b : SWrite) : Bool := decide (a.id = b.id ∧ a.store = b.store ∧ a.lba = b.lba)

/-- A write sent once the queue of its engine has room and no earlier write of an LBA of its own is unacknowledged: an LBA of a
trailer then never goes back to an older image (R441, R442, R458). -/
def Dev.writeTry (d : Dev) (w : SWrite) : Dev :=
  if w.sent ∨ d.storeReach w.store = false ∨ (d.store? w.store).depth ≤ d.ioBusy w.store w.eng ∨ ((d.swrites.takeWhile fun x => !x.same w).any fun x => x.meets w) = true then d
  else
    ({ d with swrites := d.swrites.map fun x => if x.same w then { x with sent := true } else x } : Dev).sendWrite w.id w.store w.eng w.lba w.data

/-- A read sent once the queue of its engine has room. -/
def Dev.readTry (d : Dev) (r : SRead) : Dev :=
  if r.sent ∨ d.storeReach r.store = false ∨ (d.store? r.store).depth ≤ d.ioBusy r.store r.eng then d
  else
    ({ d with sreads := d.sreads.map fun x => if x.id = r.id then { x with sent := true } else x } : Dev).sendRead r.id r.store r.eng r.lba r.n

/-- Writes and reads that wait for their queues, in order. -/
def Dev.ioPump (d : Dev) : Dev :=
  let d := d.swrites.foldl Dev.writeTry d
  d.sreads.foldl Dev.readTry d

/-- A write of a grain or a log record issued to a store by engine `e`, to be acknowledged (R446). -/
def Dev.storeIssue (d : Dev) (e id s lba : Nat) (data : List Byte) : Dev :=
  let w : SWrite := { id := id, store := s, lba := lba, data := data, eng := e, sent := false }
  ({ d with swrites := d.swrites ++ [w] } : Dev).writeTry w

/-- A read issued to a store by engine `e` for a member of a grain. -/
def Dev.storeFetch (d : Dev) (e task member s lba n : Nat) : Dev :=
  let (d, id) := d.fresh
  let r : SRead := { id := id, task := task, member := member, store := s, eng := e, lba := lba, n := n, sent := false }
  ({ d with sreads := d.sreads ++ [r] } : Dev).readTry r

/-! ### Events, counters, volume records -/

/-- A counter of BLK global page 2 (R474). -/
def blkCount (x : Nat) : Nat := reg .blkg 0 (0x20000 + x)

/-- A BLK event (R463), and whether it was written. -/
def Dev.blkWrite (d : Dev) (kind flags store vol new old grain lsn seg slot member : Nat) : Dev × Bool :=
  let bs := [0xA3, byteN kind, byteN flags, byteN store] ++ toLE 2 vol ++ [byteN new, byteN old] ++ toLE 8 grain ++
    toLE 8 d.turn ++ toLE 8 lsn ++ toLE 4 seg ++ [byteN slot, byteN member] ++ zeros 26
  if d.bit (reg .blkg 0 0x120) 31 then d.evtWrite (d.fld (reg .blkg 0 0x120) 0 16) bs
  else (d.bump (blkCount 0x148), false)

/-- A BLK event (R463). -/
def Dev.blkEvent (d : Dev) (kind flags store vol new old grain lsn seg slot member : Nat) : Dev :=
  (d.blkWrite kind flags store vol new old grain lsn seg slot member).1

/-- A FIXITY event (R460, R461); one that is written with REPAIRED = 0 sets bit 8 (R476). -/
def Dev.fixityEvent (d : Dev) (repaired scrub : Bool) (store vol grain : Nat) (e : MapEnt) (member : Nat) : Dev :=
  let (d, written) := d.blkWrite 0x70 (b2n repaired + 2 * b2n scrub) store vol 0 0 grain 0 e.seg e.slot member
  if repaired then d.bump (blkCount 0x118) else if written then d.raise .blkg 0 0 8 else d

/-- A volume changed. -/
def Dev.setVol (d : Dev) (v : Nat) (x : Vol) : Dev := { d with vols := d.vols.put v x }

/-! ### The map in HBM (R437, R438) -/

/-- Bytes of the map region. -/
def Dev.mapBytes (d : Dev) : Nat := d.fld (reg .blkg 0 0x108) 0 6 * 2 ^ 30

/-- Where the map of volume `v` begins in the region: behind those of the volumes with lower numbers.
[log 117: DESIGN CHOICE] -/
def Dev.mapOff (d : Dev) (v : Nat) : Nat := d.vols.cells.foldl (fun a c => if c.1 < v then a + vrBlocks c.2.rec_ else a) 0

/-- A map entry in HBM. -/
def Dev.mapCell (d : Dev) (v g : Nat) (e : MapEnt) : Dev :=
  let o := d.mapOff v + 16 * g
  if o + 16 ≤ d.mapBytes then d.hbmWrite (d.rd64 (reg .blkg 0 0x100) + o) (e.bytes 0) else d

/-- Map entries of a volume changed in one update, in HBM too (R450). -/
def Dev.mapPut (d : Dev) (v : Nat) (x : Vol) (es : List (Nat × MapEnt)) : Dev :=
  let d := d.setVol v { x with map := es.foldl (fun (m : NMap MapEnt) (e : Nat × MapEnt) => m.set e.1 e.2 {}) x.map }
  es.foldl (fun d e => d.mapCell v e.1 e.2) d

/-- The region written anew after a volume has come, gone, changed its size or been recovered. -/
def Dev.mapLayout (d : Dev) : Dev :=
  let b := d.rd64 (reg .blkg 0 0x100)
  let d : Dev := { d with hbm := d.hbm.filter fun a _ => !decide (b ≤ a ∧ a < b + d.mapBytes) }
  d.vols.cells.foldl (fun d c => c.2.map.cells.foldl (fun d e => d.mapCell c.1 e.1 e.2) d) d

/-- The STORE group of the pair stands by for a volume (R580). -/
def Dev.volHeld (d : Dev) (x : Vol) : Bool := vrPair x.rec_ && d.standsBy (d.groupKind 2)

/-- The volume mirrors to the partner (R581). -/
def Dev.volMirrors (d : Dev) (x : Vol) : Bool := vrPair x.rec_ && d.groupActive (d.groupKind 2)

/-- The state of a volume as commands find it: QUIESCING is 2; a volume of a standby group is held READ_ONLY (R580). -/
def Dev.volState (d : Dev) (x : Vol) : Nat :=
  if x.quiescing then 2
  else if d.volHeld x ∧ (vrState x.rec_ = 0 ∨ vrState x.rec_ = 4) then 1
  else vrState x.rec_

/-- A volume that exists (R470). -/
def Dev.vol? (d : Dev) (v : Nat) : Option Vol :=
  match d.vols.find v with
  | some x => if x.fresh then none else some x
  | none => none

/-- A volume record written to the directory of every member that can be reached (R454), and mirrored. -/
def Dev.putRecord (d : Dev) (v : Nat) (r : List Byte) : Dev :=
  let d := (vrMembers r).foldl (fun d s =>
    if d.storeReadable s then
      let lba := 2 + v / 64
      d.storePut s lba (splice ((d.mediumOf s).read lba 1) (v % 64 * 64) (slice r 0 64))
    else d) d
  if vrPair r && d.groupActive (d.groupKind 2) then d.mirror 1 8 (slice r 0 64) else d

/-- A change of a volume's record: GEN increased, the record written (R454). -/
def Dev.volRecord (d : Dev) (v : Nat) (x : Vol) (r : List Byte) : Dev :=
  let r := splice r 44 (toLE 8 (vrGen r + 1))
  (d.setVol v { x with rec_ := r }).putRecord v r

/-- A change of a volume's state, with its VOLUME_STATE event (R470). -/
def Dev.volTo (d : Dev) (v : Nat) (x : Vol) (st : Nat) : Dev :=
  let old := d.volState x
  let quiet := st = 2
  let d := d.volRecord v { x with quiescing := quiet } (splice x.rec_ 2 [byteN (if quiet then 3 else st)])
  d.blkEvent 0x72 0 0xFF v st old 0 0 0 0 0xFF

/-! ### Engines (R39, R445) -/

/-- Block engine `e` is in service: it accepts work, or it has not yet left at a boundary (R671). [log 122: DEDUCED] -/
def Dev.engineIn (d : Dev) (e : Nat) : Bool := d.accepts .blke e || (d.engServing.getD e false && !d.fenced .blke e)

/-- The next engine in service from `e` on, wrapping from 3 to 0. -/
def Dev.engineFrom (d : Dev) (e : Nat) : Option Nat := [e, e + 1, e + 2, e + 3].map (· % 4) |>.find? fun i => d.engineIn i

/-- Every engine is in service. -/
def Dev.enginesAll (d : Dev) : Bool := (rangeFrom 0 4).all d.engineIn

/-- The engine that serves a volume: the one it has, else the substitute of its home engine. -/
def Dev.servingEngine (d : Dev) (x : Vol) : Option Nat :=
  if d.engineIn x.eng then some x.eng else d.engineFrom (vrEngine x.rec_)

/-- The engine that does the work of engine `h`: itself, or the next one in service (R39, R610). -/
def Dev.engineOf (d : Dev) (h : Nat) : Nat := (d.engineFrom h).getD h

/-- The engine that serves a grain of a volume (R445). -/
def Dev.grainEngine (d : Dev) (v g : Nat) : Nat :=
  match d.vols.find v with
  | some x => if vrWide x.rec_ then d.engineOf ((g / 16 + v) % 4) else (d.servingEngine x).getD (x.eng % 4)
  | none => 0

/-- The engines a command's range reaches (R445). -/
def Dev.cmdEngines (d : Dev) (c : QCmd) (x : Vol) : List Nat :=
  if vrWide x.rec_ then
    let a0 := c.slba / 256
    ((rangeFrom a0 (min 4 ((c.slba + c.nblk - 1) / 256 + 1 - a0))).map fun a => (a + c.vol) % 4)
  else match d.servingEngine x with
    | some e => [e]
    | none => []

/-- The commands in flight on an engine: started, not ended, of a volume it serves. -/
def Dev.flying (d : Dev) (e : Nat) : List QCmd :=
  d.qcmds.filter fun c => c.started && c.done.isNone && decide (c.op ≠ 3) && match d.vols.find c.vol with
    | some x => if vrWide x.rec_ then decide (e ∈ (d.cmdEngines c x).map d.engineOf) else decide (x.eng = e)
    | none => false

/-- How many commands are in flight on an engine. -/
def Dev.inFlight (d : Dev) (e : Nat) : Nat := (d.flying e).length

/-- The store cluster's domain is off, or every lane of it is fenced (R611). -/
def Dev.storeGone (d : Dev) : Bool := d.fenced .cip 2 || !d.laneAny 2

/-- Volumes that satisfy `p` go through QUIESCING to OFFLINE (R39, R470), but for those whose state VOLUME records change (R580). -/
def Dev.quiesceVols (d : Dev) (p : Vol → Bool) : Dev :=
  d.vols.keys.foldl (fun d v => match d.vol? v with
    | some x =>
      let st := d.volState x
      if p x ∧ d.volHeld x = false ∧ (st = 0 ∨ st = 1 ∨ st = 4) then d.volTo v x 2 else d
    | none => d) d

/-- Volumes that may not be in service leave it: wide ones while an engine is out, every one while the store cluster is gone (R39,
R611, R636). -/
def Dev.volsServed (d : Dev) : Dev := d.quiesceVols fun x => d.storeGone || (vrWide x.rec_ && !d.enginesAll)

/-! ### Extents and segments (R449, R451, R455, R456) -/

/-- LBAs of a store in extents. -/
def StoreSt.usedLbas (s : StoreSt) : Nat := s.ext.values.foldl (fun a e => a + e.len) 0

/-- Free extents of a store are below 2 % of its capacity (R451). -/
def Dev.spaceLow (d : Dev) (s : Nat) : Bool :=
  let cap := (d.mediumOf s).cap
  decide ((cap - extFirst cap - (d.store? s).usedLbas) * 50 < cap)

/-- The place of an extent of `len` LBAs on a store (R453). -/
def Dev.extPlace (d : Dev) (s len : Nat) : Option Nat :=
  let cap := (d.mediumOf s).cap
  extFit len cap (extFirst cap) (sortBy (fun a b => decide (a.start ≤ b.start)) (d.store? s).ext.values)

/-- The lowest entry of an extent table not in use. [log 108: DESIGN CHOICE] -/
def freeKey (m : NMap Ext) : Nat → Nat → Nat
  | 0, i => i
  | n + 1, i => if (m.find i).isSome then freeKey m n (i + 1) else i

/-- An extent table entry written to a store. -/
def Dev.extWrite (d : Dev) (s key : Nat) (e : Ext) (alloc : Bool) : Dev :=
  let lba := 1026 + key / 256
  d.storePut s lba (splice ((d.mediumOf s).read lba 1) (key % 256 * 16) (extBytes e alloc))

/-- An extent taken on a store: its table entry is written (R455). -/
def Dev.extTake (d : Dev) (s : Nat) (e : Ext) : Dev :=
  let st := d.store? s
  let key := freeKey st.ext st.ext.cells.length 0
  let low := d.spaceLow s
  let d := (d.setStore s { st with ext := st.ext.put key e }).extWrite s key e true
  if d.spaceLow s && !low then d.raise .blkg 0 0 10 else d

/-- The extents of a segment on a store freed (R455). -/
def Dev.extFree (d : Dev) (s v seg : Nat) : Dev :=
  let st := d.store? s
  (st.ext.cells.filter fun c => c.2.vol = v ∧ c.2.seg = seg).foldl (fun d c =>
    let st := d.store? s
    let d := d.setStore s { st with ext := st.ext.erase c.1 }
    if d.storeReadable s then (d.extWrite s c.1 c.2 false).storeTrim s c.2.start c.2.len else d) d

/-- The lowest-indexed READY store with a free extent that is none of `members` (R449). -/
def Dev.substitute (d : Dev) (members : List Nat) (len : Nat) : Option Nat :=
  (rangeFrom 0 96).find? fun s => d.storeReady s && decide (s ∉ members) && (d.extPlace s len).isSome

/-- The members of a new segment: each READY, a failed one replaced by its substitute; none where one is missing or has
no free extent. -/
def Dev.pickMembers (d : Dev) (len : Nat) (all : List Nat) : List Nat → Option (List Nat)
  | [] => some []
  | s :: r =>
    if d.storeReady s then
      if (d.extPlace s len).isSome then (d.pickMembers len all r).map (s :: ·) else none
    else match d.substitute all len with
      | some x => (d.pickMembers len (x :: all) r).map (x :: ·)
      | none => none

/-- A segment opened for a volume under its record's policy (R449, R455, R456); none where extents are missing. -/
def Dev.openSeg (d : Dev) (v : Nat) (x : Vol) : Option (Dev × Vol) :=
  let r := x.rec_
  let len := extLen (vrPol r) (vrK r)
  match d.pickMembers len (vrMembers r) (vrMembers r) with
  | none => none
  | some ms =>
    let n := x.nextSeg
    let starts := ms.map fun s => (d.extPlace s len).getD 0
    let sg : Seg := { pol := vrPol r, k := vrK r, m := vrM r, members := ms, start := starts, openLsn := x.lsn }
    let d := (((rangeFrom 0 ms.length).zip (ms.zip starts)).foldl (fun d q =>
      (d.extTake q.2.1 { start := q.2.2, len := len, vol := v, seg := n, member := q.1 }).storePut q.2.1 q.2.2
        (segHeader sg q.1 v n)) d)
    let x := { x with segs := x.segs.put n sg, open_ := some n, nextSeg := n + 1 }
    if ms = vrMembers r then some (d.setVol v x, x)
    else
      let d := d.volRecord v x (splice r 24 (ms.map byteN))
      some (d, (d.vols.find v).getD x)

/-- A member of a volume has not failed and does not answer (R625). -/
def Dev.membersAway (d : Dev) (x : Vol) : Bool := (vrMembers x.rec_).any fun s => d.storeReadable s && !d.storeReach s

/-- The open segment of a volume, opened where there is none with room for `grain` or for a record; none while a member does not
answer. -/
def Dev.withSeg (d : Dev) (v : Nat) (grain : Bool) : Option (Dev × Vol × Nat × Seg) :=
  match d.vols.find v with
  | none => none
  | some x =>
    if d.membersAway x then none else
    let usable : Option (Nat × Seg) := match x.open_ with
      | some n => match x.segs.find n with
        | some s => if !s.sealed && (if grain then decide (s.used < 128) else decide (s.recs.length < 64)) then some (n, s) else none
        | none => none
      | none => none
    match usable with
    | some (n, s) => some (d, x, n, s)
    | none =>
      match d.openSeg v x with
      | none => none
      | some (d, x) =>
        match x.open_ with
        | some n => (x.segs.find n).map fun s => (d, x, n, s)
        | none => none

/-- A segment stored back, sealed when its grain or record slots are used up (R456). -/
def Dev.putSeg (d : Dev) (v : Nat) (x : Vol) (n : Nat) (s : Seg) : Dev :=
  let s := { s with sealed := s.sealed || decide (128 ≤ s.used) || decide (64 ≤ s.recs.length) }
  d.setVol v { x with segs := x.segs.put n s }

/-- Where grain slot `slot` of a segment lies on member `i` (R456). -/
def Seg.grainLba (s : Seg) (i slot : Nat) : Nat := (s.start[i]?).getD 0 + 1 + slot * fragBytes s.pol s.k / lbaBytes

/-- Where log record slot `r` of a segment lies on member `i` (R456). -/
def Seg.recLba (s : Seg) (i r : Nat) : Nat := (s.start[i]?).getD 0 + extLen s.pol s.k - 32 + r / 2

/-- The LBA of the trailer that holds record slot `r` (R458). -/
def Seg.recPair (s : Seg) (r : Nat) : List Byte :=
  slice ((s.recs[r / 2 * 2]?).getD []) 0 2048 ++ slice ((s.recs[r / 2 * 2 + 1]?).getD []) 0 2048

/-- The members of a segment with their indices. -/
def Seg.indexed (s : Seg) : List (Nat × Nat) := (rangeFrom 0 s.members.length).zip s.members

/-! ### Keys and store jobs (R452, R421) -/

/-- The key of a volume, when its slot is LOADED as R452 asks. -/
def Dev.volKey (d : Dev) (r : List Byte) : Dev × Option (List Byte) :=
  match d.keyGet (vrSlot r) with
  | (d, some k) =>
    if k.owner = vrOwner r ∧ k.usage % 2 = 1 ∧ k.key.length = (if vrXts r then 64 else 32) then (d, some k.key) else (d, none)
  | (d, none) => (d, none)

/-! ### Grains of commands -/

/-- A grain's task by its number. -/
def Dev.task? (d : Dev) (id : Nat) : Option GTask := d.tasks.find? fun t => t.id = id

/-- The command of a grain's task has made progress (R610). -/
def Dev.taskMoves (d : Dev) (id : Nat) : Dev :=
  match d.task? id with
  | some t => d.setCmd t.cmd fun c => c
  | none => d

/-- A grain's task changed. -/
def Dev.setTask (d : Dev) (id : Nat) (f : GTask → GTask) : Dev :=
  let d := d.taskMoves id
  { d with tasks := d.tasks.map fun t => if t.id = id then f t else t }

/-- A grain's task removed. -/
def Dev.dropTask (d : Dev) (id : Nat) : Dev :=
  let d := d.taskMoves id
  { d with tasks := d.tasks.filter fun t => decide (t.id ≠ id) }

/-- The map entry of a grain. -/
def Vol.ent (x : Vol) (g : Nat) : MapEnt := x.map.getD g {}

/-- The place of a task's blocks in its command's data, in bytes. -/
def GTask.off (t : GTask) (c : QCmd) : Nat := (t.grain * 16 + t.first - c.slba) * lbaBytes

/-- The new bytes of a task's blocks. -/
def GTask.newBytes (t : GTask) (c : QCmd) : List Byte :=
  if c.op = 2 then slice c.bytes (t.off c) (t.count * lbaBytes)
  else if c.op = 7 then slice c.bytes (c.nblk * lbaBytes + t.off c) (t.count * lbaBytes)
  else zeros (t.count * lbaBytes)

/-- The store cluster takes grain jobs: it accepts work, has a lane, and its randomness runs (R424, R611, R671). -/
def Dev.storeTakes (d : Dev) : Bool := d.clusterTakes 2 && d.entRuns 2

/-- `n` grain jobs ended, `bad` of them with a check that failed (R421, R434). -/
def Dev.storeJobs (d : Dev) (n bad : Nat) : Dev :=
  (((rangeFrom 0 n).foldl (fun d _ => d.entAsk 2) d).bump (cipCount 2 0x100) n).bump (cipCount 2 0x108) (n * grainBytes) |>.bump
    (cipCount 2 0x110) bad

/-- A command whose grains have all ended completes. -/
def Dev.cmdCheck (d : Dev) (id : Nat) : Dev :=
  match d.qcmd id with
  | some c =>
    if c.done.isNone ∧ (d.tasks.all fun t => decide (t.cmd ≠ id)) ∧ (d.logs.all fun l => decide (l.cmd ≠ id)) then
      match c.fail with
      | some (blk, st) => d.cmdEnd id st (if (c.op = 1 ∨ c.op = 6) ∧ (st = 0x30 ∨ st = 0x31) then blk + 0x80000000 else 0)
      | none => d.cmdEnd id 0 0
    else d
  | none => d

/-- Another write to the grain holds its lock (R447). -/
def Dev.locked (d : Dev) (t : GTask) : Bool :=
  d.tasks.any fun u => decide (u.id ≠ t.id ∧ u.vol = t.vol ∧ u.grain = t.grain ∧ u.phase ≠ .lock) && u.write

/-- The new grain of a write is known: it goes to the store cluster. -/
def Dev.taskSeal (d : Dev) (t : GTask) (plain : List Byte) : Dev :=
  d.setTask t.id fun u => { u with plain := plain, phase := .seal, since := d.bounds }

/-- The blocks of a COMPARE_AND_WRITE compared once every grain of it is known (R498). -/
def Dev.compare (d : Dev) (c : QCmd) : Dev :=
  let ts := d.tasks.filter fun t => t.cmd = c.id
  if ts.all fun t => decide (t.phase = .have_) then
    let old := ts.flatMap fun t => slice t.plain (t.first * lbaBytes) (t.count * lbaBytes)
    let want := slice c.bytes 0 (c.nblk * lbaBytes)
    match (rangeFrom 0 c.nblk).find? fun i => decide (slice old (i * lbaBytes) lbaBytes ≠ slice want (i * lbaBytes) lbaBytes) with
    | some i => d.cmdEnd c.id 0x05 (i + 0xC0000000)
    | none => ts.foldl (fun d t => d.taskSeal t (splice t.plain (t.first * lbaBytes) (t.newBytes c))) d
  else d

/-- The current grain of a task is known (R447, R459). -/
def Dev.taskHave (d : Dev) (t : GTask) (plain : List Byte) : Dev :=
  match d.qcmd t.cmd with
  | none => d.dropTask t.id
  | some c =>
    if c.op = 7 then (d.setTask t.id fun u => { u with plain := plain, phase := .have_ }).compare c
    else if t.write then (d.bump (blkCount 0x110)).taskSeal t (splice plain (t.first * lbaBytes) (t.newBytes c))
    else
      let d := d.bump (blkCount 0x100)
      if c.op = 1 ∧ ¬ d.master c.func ∧ c.end_ = .complete then d.cmdEnd c.id 0x08 0
      else
        let d := if c.op = 1 ∧ c.done = none ∧ c.end_ = .complete then
            d.cmdWrite c (t.off c) c.spans (slice plain (t.first * lbaBytes) (t.count * lbaBytes)) else d
        (d.dropTask t.id).cmdCheck c.id

/-- The current grain of a task cannot be read (R460, R491): no other grain of the command is affected, but that a
COMPARE_AND_WRITE has nothing to compare. -/
def Dev.taskFail (d : Dev) (t : GTask) (st : Nat) : Dev :=
  let d := if st = 0x31 then d.bump (blkCount 0x120) else if st = 0x30 then d.bump (blkCount 0x128) else d
  let d := if st = 0x31 ∨ st = 0x30 then d.fixityEvent false false 0xFF t.vol t.grain t.ent 0xFF else d
  match d.qcmd t.cmd with
  | none => d.dropTask t.id
  | some c =>
    if t.write ∧ (c.op = 7 ∨ (st ≠ 0x31 ∧ st ≠ 0x30)) then d.cmdEnd c.id st 0
    else
      let blk := t.grain * 16 + t.first - c.slba
      let d := d.setCmd c.id fun c => { c with fail := match c.fail with
        | some (b, s) => if b ≤ blk then some (b, s) else some (blk, st)
        | none => some (blk, st) }
      (d.dropTask t.id).cmdCheck c.id

/-- The members of a grain's segment not yet read that can be, in the order of reading: the first copy from member g mod K on,
further ones in member order, and a store that is REMOVING only after every READY one (R459, R460). [log 111: DEDUCED] -/
def Dev.unread (d : Dev) (t : GTask) (s : Seg) : List (Nat × Nat) :=
  let ix := s.indexed
  let ord := if s.pol = 2 ∨ t.frags ≠ [] then ix else ix.drop (t.grain % s.k) ++ ix.take (t.grain % s.k)
  let ord := ord.filter fun q => t.frags.all fun f => decide (f.1 ≠ q.1)
  (ord.filter fun q => d.storeReady q.2) ++ ord.filter fun q => d.storeReadable q.2 && !d.storeReady q.2

/-- Reads issued for a grain. -/
def Dev.fetchFrom (d : Dev) (t : GTask) (s : Seg) (ms : List (Nat × Nat)) : Dev :=
  (ms.foldl (fun d q => d.storeFetch (d.grainEngine t.vol t.grain) t.id q.1 q.2 (s.grainLba q.1 t.ent.slot) (fragBytes s.pol s.k / lbaBytes)) d).setTask t.id
    fun u => { u with phase := .fetch }

/-- Fragments that were read well. -/
def GTask.good (t : GTask) : List (Nat × List Byte) :=
  (sortBy (fun a b => decide (a.1 ≤ b.1)) t.frags).filterMap fun f => f.2.map fun b => (f.1, b)

/-- Fragments needed to decode. -/
def Seg.need (s : Seg) : Nat := if s.pol = 2 then s.k else 1

/-- BLK_REPAIR_TRIES. -/
def Dev.repairTries (d : Dev) : Nat := d.fld (reg .blkg 0 0x130) 0 13

/-- The first read of a grain (R459). -/
def Dev.taskFetch (d : Dev) (t : GTask) (x : Vol) : Dev :=
  match x.segs.find t.ent.seg with
  | none => d.taskFail t 0x30
  | some s =>
    let ms := d.unread t s
    if ms.length < s.need then d.taskFail t 0x30 else d.fetchFrom t s (ms.take s.need)

/-- Bad copies or fragments of a grain written back to their places, with their events (R460, R461); those of a store that cannot
be reached are no more to be had. -/
def Dev.repairGrain (d : Dev) (v g : Nat) (e : MapEnt) (s : Seg) (scrub : Bool) (frags : List (Nat × Option (List Byte)))
    (ct : List Byte) : Dev :=
  let right := encodeGrain s.pol s.k s.m ct
  frags.foldl (fun d f =>
    let want := (right[f.1]?).getD []
    let st := (s.members[f.1]?).getD 0xFF
    if f.2 = some want ∨ d.storeReadable st = false then d
    else (d.storePut st (s.grainLba f.1 e.slot) want (d.grainEngine v g)).fixityEvent true scrub st v g e f.1) d

/-- The result of trying the candidates of a grain: plaintext and ciphertext of the first that verifies, and the sets tried. -/
structure Opened where
  res : Option (List Byte × List Byte) := none
  tried : List (List Nat) := []

/-- Candidates tried in order until one verifies. -/
def openFirst (job : List (Nat × List Byte) → Option (List Byte × List Byte)) : List (List (Nat × List Byte)) → List (List Nat) → Opened
  | [], tried => { tried := tried }
  | c :: cs, tried =>
    match job c with
    | some r => { res := some r, tried := tried ++ [c.map (·.1)] }
    | none => openFirst job cs (tried ++ [c.map (·.1)])

/-- The candidates of a grain that have not been tried, up to BLK_REPAIR_TRIES in all (R460). -/
def Dev.tryOpen (d : Dev) (r key : List Byte) (s : Seg) (v g : Nat) (e : MapEnt) (frags : List (Nat × List Byte))
    (tried : List (List Nat)) : Opened :=
  let cs := (candidates s.pol s.k s.m frags).filter fun c => decide (c.map (·.1) ∉ tried)
  openFirst (fun sel =>
    let ct := decodeGrain s.pol s.k sel
    match grainOpen (vrXts r) key v g e ct with
    | .ok pt => some (pt, ct)
    | .error _ => none) (cs.take (d.repairTries - tried.length)) tried

/-- Every read of a grain has ended: it is decrypted and verified, more is read (every fragment after a media error), or it fails
(R459, R460). -/
def Dev.taskRead (d : Dev) (t : GTask) : Dev :=
  match d.vols.find t.vol with
  | none => d.taskFail t 0x30
  | some x =>
    match x.segs.find t.ent.seg with
    | none => d.taskFail t 0x30
    | some s =>
      let more := d.unread t s
      let lack := s.need - t.good.length
      let bad := decide (s.pol = 2) && t.frags.any fun f => f.2.isNone && d.storeReadable ((s.members[f.1]?).getD 0xFF)
      if bad ∧ more ≠ [] then d.fetchFrom t s more
      else if lack ≠ 0 then
        if more.length < lack then d.taskFail t 0x30 else d.fetchFrom t s (more.take lack)
      else if !d.storeTakes then
        d.setTask t.id fun u => { u with phase := .open_, since := if u.phase = .open_ then u.since else d.bounds }
      else
        match d.volKey x.rec_ with
        | (d, none) => d.taskFail t 0x12
        | (d, some key) =>
          let o := d.tryOpen x.rec_ key s t.vol t.grain t.ent t.good t.tried
          let n := o.tried.length - t.tried.length
          match o.res with
          | some (pt, ct) =>
            ((d.storeJobs n (n - 1)).repairGrain t.vol t.grain t.ent s false t.frags ct).taskHave t pt
          | none =>
            let d := (d.storeJobs n n).setTask t.id fun u => { u with tried := o.tried }
            if more = [] ∨ d.repairTries ≤ o.tried.length then d.taskFail t 0x31
            else d.fetchFrom t s (if s.pol = 2 then more else more.take 1)

/-- A grain's task begins: a write once it holds the lock, a read at once (R439, R447, R450). -/
def Dev.taskStart (d : Dev) (t : GTask) : Dev :=
  match d.vols.find t.vol, d.qcmd t.cmd with
  | some x, some c =>
    let e := x.ent t.grain
    let new : MapEnt := { version := e.version + 1, mapped := true, zero := t.zero }
    if t.write ∧ 2 ^ 44 ≤ e.version + 1 then d.cmdEnd c.id 0x35 0
    else if t.write ∧ t.zero then d.setTask t.id fun u => { u with ent := new, phase := .ready }
    else if t.write ∧ t.first = 0 ∧ t.count = 16 ∧ c.op ≠ 7 then d.taskSeal t (t.newBytes c)
    else
      let t := { t with ent := e }
      let d := d.setTask t.id fun u => { u with ent := e, phase := .fetch }
      if e.mapped ∧ ¬ e.zero then d.taskFetch t x else d.taskHave t (zeros grainBytes)
  | _, _ => d.dropTask t.id

/-- A sealed grain placed in a segment, and its data written to the required set (R446, R456, R581). -/
def Dev.taskPlace (d : Dev) (t : GTask) : Dev :=
  match d.vols.find t.vol with
  | none => d.taskFail t 0x32
  | some x =>
    let both := d.volMirrors x
    if both && d.pairFull then d.mirrorStall
    else match d.withSeg t.vol true with
      | none => d
      | some (d, x, n, s) =>
        let slot := s.used
        let d := d.putSeg t.vol x n { s with used := slot + 1 }
        let frs := encodeGrain s.pol s.k s.m t.ct
        let d := s.indexed.foldl (fun d q => d.storeIssue (d.grainEngine t.vol t.grain) t.id q.2 (s.grainLba q.1 slot) ((frs[q.1]?).getD [])) d
        let d := d.setTask t.id fun u => { u with ent := { u.ent with seg := n, slot := slot, mapped := true, pair := both },
                                                  waits := s.members ++ if both then [96] else [], phase := .data }
        if both then
          let part (d : Dev) (p : Nat) : Dev :=
            d.mirror 1 9 (toBE 2 t.vol ++ [0, 0] ++ toBE 8 t.grain ++ toBE 8 t.ent.version ++ [byteN p, 0, 0, 0] ++ slice t.ct (8192 * p) 8192)
          ((rangeFrom 0 8).foldl part d).pairWait 1 (.part t.id)
        else d

/-- A log record written to a segment of its volume: the member LBAs that hold its slot (R457, R458). -/
def Dev.logPlace (d : Dev) (v : Nat) (bytes : List Byte) (issue : Dev → Nat → Nat → List Byte → Dev) : Option (Dev × Nat × Seg) :=
  (d.withSeg v false).map fun (d, x, n, s) =>
    let r := s.recs.length
    let s := { s with recs := s.recs ++ [bytes] }
    let d := d.putSeg v x n s
    (s.indexed.foldl (fun d q => issue d q.2 (s.recLba q.1 r) (s.recPair r)) d, n, s)

/-- The log record of one atom of a command issued (R34, R448, R457). -/
def Dev.logAtom (cmd : Nat) (d : Dev) (atom : Nat) : Dev :=
  let ts := d.tasks.filter fun t => decide (t.cmd = cmd) && decide (t.grain / 16 = atom) && !t.logged
  match ts with
  | [] => d
  | t :: _ =>
    match d.vols.find t.vol with
    | none => d
    | some x =>
      let both := d.volMirrors x
      if both && d.pairFull then d.mirrorStall
      else
        let es := ts.map fun t => (t.grain, if t.zero then { t.ent with pair := both } else t.ent)
        let bytes := logRecord false x.lsn t.vol atom d.turn es
        let (d, id) := d.fresh
        match d.logPlace t.vol bytes fun d s lba data => d.storeIssue (d.grainEngine t.vol (atom * 16)) id s lba data with
        | none => d
        | some (d, n, s) =>
          let d := match d.vols.find t.vol with | some x => d.setVol t.vol { x with lsn := x.lsn + 1 } | none => d
          let ids := ts.map (·.id)
          let d : Dev := { d with
            tasks := d.tasks.map fun u => if u.id ∈ ids then { u with logged := true } else u,
            logs := d.logs ++ [{ id := id, cmd := cmd, vol := t.vol, lsn := x.lsn, seg := n, bytes := bytes, entries := es,
                                 waits := s.members ++ if both then [96] else [] }] }
          if both then (d.mirror 1 10 bytes).pairWait 1 (.part id) else d

/-- The log records of a command, in ascending order of atoms, once every grain of it is ready (R34). -/
def Dev.logCmd (d : Dev) (cmd : Nat) : Dev :=
  let ts := d.tasks.filter fun t => decide (t.cmd = cmd) && !t.logged
  if ts.all fun t => decide (t.phase = .ready) then
    (sortBy (fun a b => decide (a ≤ b)) (ts.map fun t => t.grain / 16).eraseDups).foldl (Dev.logAtom cmd) d
  else d

/-- A log record that is no longer under way, and the grains it names, whose locks are free again. -/
def Dev.logGone (d : Dev) (l : LogOp) : Dev :=
  let grains := l.entries.map (·.1)
  { d with logs := d.logs.filter fun y => decide (y.id ≠ l.id),
           tasks := d.tasks.filter fun t => !(decide (t.cmd = l.cmd) && t.logged && decide (t.grain ∈ grains)) }

/-- The engine that issues a log record: the one that serves its atom. -/
def Dev.logEngine (d : Dev) (l : LogOp) : Nat :=
  match l.entries with
  | e :: _ => d.grainEngine l.vol e.1
  | [] => 0

/-- A log record takes effect: the map entries change in one update (R450). -/
def Dev.logApply (d : Dev) (l : LogOp) : Dev :=
  let d := match d.vols.find l.vol with
    | some x =>
      let alone := vrPair x.rec_ && (match d.groupKind 2 with | some g => decide (d.role g = Role.alone) | none => false)
      let d := d.mapPut l.vol { x with wroteAlone := x.wroteAlone || alone } l.entries
      let n := (l.entries.filter fun (e : Nat × MapEnt) => !e.2.zero).length
      (d.bump (blkCount 0x108) n).bump (reg .blke (d.logEngine l) 0x108) n
    | none => d
  d.logGone l

/-- The log records of a command take effect once each is durable and none is still to come, so that a command which ends with
DURABILITY_LOST changes no map entry (R449, R451). [log 199: DEDUCED] -/
def Dev.cmdApply (d : Dev) (cmd : Nat) : Dev :=
  let ls := d.logs.filter fun l => decide (l.cmd = cmd) && !l.lost
  if ls = [] ∨ (ls.any fun l => !l.done) = true ∨ (d.tasks.any fun t => decide (t.cmd = cmd) && t.write && !t.logged) = true then d
  else (ls.foldl Dev.logApply d).cmdCheck cmd

/-- A write waits for the lock of an earlier grain of its command: locks are taken in ascending order (R447, R498). -/
def Dev.lockWaits (d : Dev) (t : GTask) : Bool :=
  t.write && (d.locked t || d.tasks.any fun u => decide (u.cmd = t.cmd ∧ u.grain < t.grain ∧ u.phase = .lock) && u.write)

/-- What waits in the block store is tried again, in order of arrival. -/
def Dev.blkPump (d : Dev) : Dev :=
  let d := (d.logs.map (·.cmd)).eraseDups.foldl Dev.cmdApply d
  let d := (d.tasks.map (·.id)).foldl (fun d id =>
    match d.task? id with
    | some t =>
      if t.phase = .lock ∧ d.lockWaits t = false then d.taskStart t
      else if t.phase = .space then d.taskPlace t
      else d
    | none => d) d
  ((d.tasks.filter fun t => t.write).map (·.cmd)).eraseDups.foldl Dev.logCmd d

/-- The number that ACK1 carries: of the first storage frame that is not durable, else of the next expected (R577, R588). -/
def Dev.ack1 (d : Dev) : Nat :=
  match d.pair.landing with
  | l :: _ => l.seq
  | [] => d.pair.s1.expect

/-- The body of an ACK frame, and of a heartbeat from byte 8 on: the numbers expected next (R577). -/
def Dev.ackBody (d : Dev) : List Byte := toBE 4 d.pair.s0.expect ++ toBE 4 d.ack1

/-- An ACK frame sent (R579). -/
def Dev.sendAck (d : Dev) : Dev := d.pairSend 3 0 0 0 (zeros 8 ++ d.ackBody)

/-- The map entries of a storage frame that is durable (R450, R581). -/
def Dev.landApply (d : Dev) (l : Landing) : Dev :=
  match d.vols.find l.vol with
  | some x => d.mapPut l.vol x l.es
  | none => d

/-- Storage frames that are durable, in order, take effect. -/
def landGo : List Landing → Dev → Dev
  | [], d => { d with pair := { d.pair with landing := [] } }
  | l :: r, d => if l.waits = [] then landGo r (d.landApply l) else { d with pair := { d.pair with landing := l :: r } }

/-- ACK1 moves past the storage frames that are durable, and an ACK frame goes where it has moved (R579, R588). -/
def Dev.landPump (d : Dev) : Dev :=
  let e := landGo d.pair.landing d
  if e.ack1 = d.ack1 then e else e.sendAck

/-- The standby's writes that satisfy `p` are durable, or not to be had. -/
def Dev.landed (d : Dev) (p : Nat × Nat → Bool) : Dev :=
  if d.pair.landing = [] then d
  else ({ d with pair := { d.pair with landing := d.pair.landing.map fun l => { l with waits := l.waits.filter fun w => !p w } } } : Dev).landPump

/-- One of the required set has acknowledged a grain or a log record (R446), or a standby's store one of the partner's (R588). -/
def Dev.acked (d : Dev) (id s : Nat) : Dev :=
  match d.task? id with
  | some t =>
    let w := t.waits.erase s
    let d := d.setTask id fun u => { u with waits := w, phase := if w = [] ∧ u.phase = .data then .ready else u.phase }
    if w = [] then d.logCmd t.cmd else d
  | none =>
    match d.logs.find? fun l => l.id = id with
    | some l =>
      let l := { l with waits := l.waits.erase s, done := l.waits.erase s = [] }
      let d : Dev := { d.setCmd l.cmd (fun c => c) with logs := d.logs.map fun y => if y.id = id then l else y }
      if !l.done then d else if l.lost then (d.logGone l).blkPump else d.blkPump
    | none => d.landed fun w => decide (w = (id, s))

/-- The tasks of a command over its block range, in ascending grain order; a DEALLOCATE or WRITE_ZEROES of a whole grain
writes no data (R439). -/
def Dev.makeTasks (d : Dev) (c : QCmd) : Dev :=
  let last := c.slba + c.nblk - 1
  let write := c.op = 2 ∨ c.op = 4 ∨ c.op = 5 ∨ c.op = 7
  (rangeFrom (c.slba / 16) (last / 16 + 1 - c.slba / 16)).foldl (fun d g =>
    let first := if g = c.slba / 16 then c.slba % 16 else 0
    let stop := if g = last / 16 then last % 16 + 1 else 16
    let (d, id) := d.fresh
    { d with tasks := d.tasks ++ [{ id := id, cmd := c.id, vol := c.vol, grain := g, first := first, count := stop - first,
                                    write := write, zero := (c.op = 4 ∨ c.op = 5) ∧ first = 0 ∧ stop = 16,
                                    phase := .lock }] }) d

/-- The version a write would give some grain of a command is past its range (R447). -/
def Vol.versionFull (x : Vol) (c : QCmd) : Bool :=
  (rangeFrom (c.slba / 16) ((c.slba + c.nblk - 1) / 16 + 1 - c.slba / 16)).any fun g => decide (2 ^ 44 ≤ (x.ent g).version + 1)

end Sys2Proof.Machine
end

