-- ==== Sys2Proof/Machine/BlockStore.lean ====
section
/-! DEFINITION. Stores: their commands, acknowledgements, reads and failures, scrub, rebuild and cleaning (R440 to R469,
R477). -/

namespace Sys2Proof.Machine

/-- A grain job has waited BLK_STORE_TIMEOUT for the store cluster, in whole turns. [log 115: DEDUCED] -/
def Dev.jobOverdue (d : Dev) (t : GTask) : Bool :=
  decide (d.fld (reg .blkg 0 0x12C) 0 16 * 1000000 ≤ (d.bounds - t.since) * d.period)

/-- STORE_JOB_COMPLETE (R421, R424, R452, R611): the job of grain task `id`.  A job that has not started
waits while the store cluster takes none, with no lane or no service for BLK_STORE_TIMEOUT at most. -/
def execStoreJobComplete (id : Nat) (s : State) : Host.Outcome State Fault Refusal :=
  s.act fun d =>
    match d.task? id with
    | none => d
    | some t =>
      if !t.inJob then d
      else if !d.storeRuns t then if !d.clusterTakes 2 && d.jobOverdue t then (d.cmdEnd t.cmd 0x3F 0).blkPump else d
      else if t.phase = .open_ then (d.taskRead t).blkPump
      else match d.vols.find t.vol with
        | none => d.taskFail t 0x32
        | some x =>
          match d.volKey x.rec_ with
          | (d, none) => d.cmdEnd t.cmd 0x12 0
          | (d, some key) =>
            let v := (x.ent t.grain).version + 1
            let (ct, tag, dig) := grainSeal (vrXts x.rec_) key t.vol t.grain v t.plain
            let t := { t with ct := ct, ent := { version := v, mapped := true, digest := dig, tag := tag }, phase := .space }
            ((d.storeJobs 1 0).setTask id fun _ => t).taskPlace t

/-- STORE_ACK (R446): store `store` acknowledges the grain or log record `id` as durable; a remote one too (R36).
[log 236: DEDUCED] -/
def execStoreAck (store id : Nat) (s : State) : Host.Outcome State Fault Refusal :=
  s.act fun d =>
    match takeFirst (fun w : SWrite => w.sent && decide (w.id = id) && decide (w.store = store) && d.storeReach store) d.swrites with
    | some (w, rest) => ((({ d with swrites := rest } : Dev).storeLand store w.lba w.data).ioPump).acked id store
    | none => d

/-- A store read of a grain ended. -/
def Dev.readEnded (d : Dev) (id : Nat) (res : Option (List Byte)) : Dev :=
  match takeFirst (fun r : SRead => decide (r.id = id)) d.sreads with
  | none => d
  | some (r, rest) =>
    let d : Dev := { d with sreads := rest }
    let d := d.setTask r.task fun t => { t with frags := t.frags ++ [(r.member, res)] }
    match d.task? r.task with
    | some t => if d.sreads.any fun r => decide (r.task = t.id) then d else (d.taskRead t).blkPump
    | none => d

/-- STORE_READ_COMPLETE (R459, R460): the store read `id` returns its data, or a media error. -/
def execStoreReadComplete (id : Nat) (ok : Bool) (data : List Byte) (s : State) : Host.Outcome State Fault Refusal :=
  s.act fun d =>
    if d.sreads.any fun r => r.sent && decide (r.id = id) && d.storeReach r.store then (d.readEnded id (if ok then some data else none)).ioPump else d

/-- A log record under way written anew to another segment (R449); 97 stands for a segment that is missing. -/
def Dev.logAgain (d : Dev) (l : LogOp) : Dev :=
  match d.logPlace l.vol l.bytes fun d s lba data => d.storeIssue (d.logEngine l) l.id s lba data with
  | some (d, n, s) =>
    { d with logs := d.logs.map fun y =>
        if y.id = l.id then { y with seg := n, waits := s.members ++ y.waits.filter (· = 96), done := false } else y }
  | none => { d with logs := d.logs.map fun y =>
        if y.id = l.id then { y with waits := 97 :: y.waits.filter (· = 96), done := false } else y }

/-- Log records that wait for a segment are tried again. -/
def Dev.logRetry (d : Dev) : Dev := (d.logs.filter fun l => decide (97 ∈ l.waits)).foldl Dev.logAgain d

/-- The open segment of every volume with a member on a store is sealed (R449). -/
def sealOn (st : Nat) (d : Dev) (c : Nat × Vol) : Dev :=
  match c.2.open_ with
  | some n => match c.2.segs.find n with
    | some s => if st ∈ s.members then d.setVol c.1 { c.2 with segs := c.2.segs.put n { s with sealed := true } } else d
    | none => d
  | none => d

/-- A segment of a volume has a member on store `st`. -/
def Dev.segHas (d : Dev) (v n st : Nat) : Bool :=
  match (d.vols.find v).bind fun x => x.segs.find n with
  | some s => decide (st ∈ s.members)
  | none => false

/-- Too few members of a segment are READY to read its grains. -/
def Dev.segDead (d : Dev) (v n : Nat) : Bool :=
  match (d.vols.find v).bind fun x => x.segs.find n with
  | some s => decide ((s.members.filter d.storeReady).length < s.need)
  | none => false

/-- A log record that has not taken effect taken back, when the data of a grain it names has gone with store `st`: its grains and
its record are issued anew (R449). -/
def Dev.logUndo (st : Nat) (d : Dev) (l : LogOp) : Dev :=
  if l.lost ∨ (l.entries.any fun e => !e.2.zero && d.segHas l.vol e.2.seg st && d.segDead l.vol e.2.seg) = false then d
  else
    let grains := l.entries.map (·.1)
    { d with
      swrites := d.swrites.filter fun w => decide (w.id ≠ l.id),
      logs := d.logs.filter fun y => decide (y.id ≠ l.id),
      tasks := d.tasks.map fun t => if t.cmd = l.cmd ∧ t.grain ∈ grains then { t with logged := false } else t }

/-- A grain of a write whose record is still to be issued lies in a segment with a member on store `st`. -/
def Dev.taskOn (d : Dev) (st : Nat) (t : GTask) : Bool :=
  t.write && !t.zero && !t.logged && decide (t.phase = .data ∨ t.phase = .ready) && d.segHas t.vol t.ent.seg st

/-- A store fails (R443, R449): its segments are sealed, what waits for it is placed or read elsewhere, and unfinished grains and
records of its segments are issued anew in new ones. [log 226: DEDUCED] -/
def Dev.storeLost (d : Dev) (st : Nat) : Dev :=
  let x := d.store? st
  let d := ((d.setStore st { x with state := 2 }).raise .blkg 0 0 9).blkEvent 0x71 0 st 0 2 x.state 0 0 0 0 0xFF
  let d := d.vols.cells.foldl (sealOn st) d
  let d := d.logs.foldl (Dev.logUndo st) d
  let grains := (d.tasks.filter (d.taskOn st)).map (·.id)
  let recs := (d.logs.filter fun l => d.segHas l.vol l.seg st).map (·.id)
  let d : Dev := { d with
    swrites := d.swrites.filter fun w => decide (w.store ≠ st) && decide (w.id ∉ grains ++ recs),
    tasks := d.tasks.map fun t => if t.id ∈ grains then { t with phase := .space, waits := [] } else t }
  let d := (d.logs.filter fun l => decide (l.id ∈ recs)).foldl (fun d l => if l.lost then d.logGone l else d.logAgain l) d
  let d := d.landed fun w => decide (w.2 = st)
  (((d.sreads.filter fun r => decide (r.store = st)).map (·.id)).foldl (fun d i => d.readEnded i none) d).ioPump.blkPump

/-- A store that is READY or REMOVING fails. -/
def Dev.storeFail (d : Dev) (st : Nat) : Dev :=
  if (d.store? st).state ≠ 1 ∧ (d.store? st).state ≠ 3 then d else d.storeLost st

/-- STORE_FAIL (R443). -/
def execStoreFail (store : Nat) (s : State) : Host.Outcome State Fault Refusal := s.act fun d => d.storeFail store

/-- A command that waits for a place on its stores: for a grain, or for a log record of grains that are all ready or one under
way; not one that waits for room in the mirror stream (R579). -/
def Dev.waitsPlace (d : Dev) (id : Nat) (x : Vol) : Bool :=
  let ts := d.tasks.filter fun t => decide (t.cmd = id) && t.write && !t.logged
  (d.logs.any fun l => decide (l.cmd = id ∧ 97 ∈ l.waits)) ||
    (!(d.volMirrors x && d.pairFull) &&
      ((ts.any fun t => decide (t.phase = .space)) || (decide (ts ≠ []) && ts.all fun t => decide (t.phase = .ready))))

/-- A command ends with DURABILITY_LOST (R449, R451): no map entry of it changes.  A log record of it that stores have not yet
answered for keeps the locks of its grains until they have (R448). -/
def Dev.durabilityLost (d : Dev) (id : Nat) : Dev :=
  let d : Dev := { d with logs := d.logs.map fun l => if l.cmd = id then { l with lost := true } else l }
  let d := (d.logs.filter fun l => decide (l.cmd = id) && (l.done || decide (97 ∈ l.waits))).foldl Dev.logGone d
  (d.bump (blkCount 0x130)).cmdEnd id 0x32 0

/-- SUBSTITUTE_TIMEOUT (R449): command `id` has waited BLK_STORE_TIMEOUT for a substitute; its volume goes READ_ONLY. -/
def execSubstituteTimeout (id : Nat) (s : State) : Host.Outcome State Fault Refusal :=
  s.act fun d =>
    match d.qcmd id with
    | some c =>
      match d.vols.find c.vol with
      | some x =>
        if d.waitsPlace id x ∧ ¬ d.membersAway x ∧ (vrMembers x.rec_).all d.storeReady = false then
          let d := d.durabilityLost id
          let d := if d.volState x = 0 ∨ d.volState x = 4 then d.volTo c.vol x 1 else d
          d.blkPump
        else d
      | none => d
    | none => d

/-- NO_EXTENT_TIMEOUT (R451): command `id` has waited BLK_STORE_TIMEOUT for a free extent. -/
def execNoExtentTimeout (id : Nat) (s : State) : Host.Outcome State Fault Refusal :=
  s.act fun d =>
    match d.qcmd id with
    | some c =>
      match d.vols.find c.vol with
      | some x => if d.waitsPlace id x ∧ ¬ d.membersAway x ∧ (vrMembers x.rec_).all d.storeReady = true then (d.durabilityLost id).blkPump else d
      | none => d
    | none => d

/-! ### Scrub, rebuild, cleaning -/

/-- The next MAPPED grain of a volume from grain `a` on. -/
def Vol.nextMapped (x : Vol) (a : Nat) : Option Nat :=
  (x.map.cells.find? fun c => decide (a ≤ c.1) && c.2.mapped && !c.2.zero).map (·.1)

/-- The faults of a grain found by the scrubber: each copy by itself, or the decode and the parity (R461). -/
def Dev.scrubGrain (d : Dev) (v : Nat) (x : Vol) (key : List Byte) (g : Nat) (s : Seg) (copies : List (Option (List Byte))) : Dev :=
  let e := x.ent g
  let frags := (rangeFrom 0 s.members.length).map fun i => (i, (copies[i]?).getD none)
  let frags := frags.filter fun f => d.storeReadable ((s.members[f.1]?).getD 0xFF)
  let good := frags.filterMap fun f => f.2.map fun b => (f.1, b)
  let o := d.tryOpen x.rec_ key s v g e good []
  let n := o.tried.length
  match o.res with
  | some (_, ct) => (d.storeJobs n (n - 1)).repairGrain v g e s true frags ct
  | none =>
    let d := d.storeJobs n n
    let d := if good.length < s.need then d.bump (blkCount 0x128) else d.bump (blkCount 0x120)
    d.fixityEvent false true 0xFF v g e 0xFF

/-- The scrubber takes a volume: ONLINE, READ_ONLY or MIGRATING (R461). -/
def Dev.scrubs? (d : Dev) (v : Nat) : Bool :=
  match d.vol? v with
  | some x => decide (d.volState x = 0 ∨ d.volState x = 1 ∨ d.volState x = 4)
  | none => false

/-- The volume whose turn it is: the first from `scrubVol` on that the scrubber takes, wrapping (R461). -/
def Dev.scrubNow (d : Dev) : Option Nat :=
  let vs := (sortBy (fun a b => decide (a ≤ b)) d.vols.keys).filter d.scrubs?
  match vs.find? fun v => decide (d.scrubVol ≤ v) with
  | some v => some v
  | none => vs.head?

/-- The end of a volume's pass (R461). -/
def Dev.scrubEnd (d : Dev) (v : Nat) (x : Vol) : Dev :=
  (({ d with scrubVol := v + 1 } : Dev).setVol v { x with scrub := 0 }).blkEvent 0x73 0 0xFF v 0 0 0 0 0 0 0xFF

/-- The scrubber has done with grain `g` of a volume: it goes on in the atom, to the next volume after it, or the pass has ended
(R461). -/
def Dev.scrubOnward (d : Dev) (v g : Nat) : Dev :=
  match d.vols.find v with
  | none => d
  | some x =>
    match x.nextMapped (g + 1) with
    | none => d.scrubEnd v x
    | some n => ({ d with scrubVol := if n / 16 = g / 16 then v else v + 1 } : Dev).setVol v { x with scrub := g + 1 }

/-- The 1,024 turns under way, and the grains the scrubber has read in them (R461). [log 116: DEDUCED] -/
def Dev.scrubWindow (d : Dev) : Nat × Nat :=
  let w := d.turn / 1024
  (w, if w = d.scrubWin then d.scrubCount else 0)

/-- The scrubber checks grain `grain` of a volume and moves on. -/
def Dev.scrubStep (d : Dev) (vol grain : Nat) (x : Vol) (copies : List (Option (List Byte))) : Dev :=
  let w := d.scrubWindow
  let d : Dev := { d with scrubWin := w.1, scrubCount := w.2 + 1 }
  let d := if d.tasks.any fun t => decide (t.vol = vol ∧ t.grain = grain) && t.write then d
    else match x.segs.find (x.ent grain).seg, d.volKey x.rec_ with
      | some sg, (d, some key) => d.scrubGrain vol x key grain sg copies
      | _, (d, _) => d
  (d.bump (blkCount 0x140)).scrubOnward vol grain

/-- BLK_SCRUB (R461): the volume whose turn it is, its next MAPPED grain, and what its members return, in member order; a volume
without a MAPPED grain left ends its pass. [log 116: DEDUCED] -/
def execBlkScrub (vol grain : Nat) (copies : List (Option (List Byte))) (s : State) : Host.Outcome State Fault Refusal :=
  s.act fun d =>
    match d.vol? vol with
    | none => d
    | some x =>
      if ¬ d.accepts .blkg 0 ∨ ¬ d.storeTakes ∨ d.storesAway ∨ d.coresDead ∨ d.fld (reg .blkg 0 0x124) 0 24 ≤ d.scrubWindow.2 ∨ d.scrubNow ≠ some vol then d
      else match x.nextMapped x.scrub with
        | none => d.scrubEnd vol x
        | some g => if g = grain then d.scrubStep vol grain x copies else d

/-- What the readable members of a segment hold of a grain slot. -/
def Dev.mediaFrags (d : Dev) (s : Seg) (slot : Nat) : List (Nat × List Byte) :=
  (s.indexed.filter fun q => d.storeReadable q.2).map fun q =>
    (q.1, (d.mediumOf q.2).read (s.grainLba q.1 slot) (fragBytes s.pol s.k / lbaBytes))

/-- The grain slots of a segment that hold something still needed: of a live grain, or of one whose record is to come. -/
def Dev.slotsLive (d : Dev) (v n : Nat) (x : Vol) : List Nat :=
  ((x.map.values.filter fun e => e.mapped && !e.zero && decide (e.seg = n)).map (·.slot)) ++
    ((d.tasks.filter fun t => decide (t.vol = v ∧ t.ent.seg = n) && t.write && !t.zero && decide (t.phase = .data ∨ t.phase = .ready)).map (·.ent.slot))

/-- What the contents of member `i` in a grain slot are regenerated from: the other members, and where they are too few the
REMOVING store itself (R462). [log 113: DEDUCED] -/
def Dev.rebuildFrags (d : Dev) (s : Seg) (i slot : Nat) : List (Nat × List Byte) :=
  let all := d.mediaFrags s slot
  let fr := all.filter fun f => decide (f.1 ≠ i)
  if fr.length < s.need then all else fr

/-- No member has a grain of the segment still to acknowledge, and every grain slot that is still needed can be regenerated without
a missing member. -/
def Dev.rebuildable (d : Dev) (v n : Nat) (x : Vol) (s : Seg) (i : Nat) : Bool :=
  (d.tasks.all fun t => !(t.write && decide (t.vol = v ∧ t.ent.seg = n ∧ t.phase = .data))) && (d.slotsLive v n x).all fun slot => decide (s.need ≤ (d.rebuildFrags s i slot).length)

/-- The grain whose data a slot of a segment holds: of the map, or of a write under way. -/
def Dev.slotGrain (d : Dev) (v n slot : Nat) (x : Vol) : Nat :=
  match x.map.cells.find? fun c => c.2.mapped && !c.2.zero && decide (c.2.seg = n ∧ c.2.slot = slot) with
  | some c => c.1
  | none => match d.tasks.find? fun t => t.write && decide (t.vol = v ∧ t.ent.seg = n ∧ t.ent.slot = slot) with
    | some t => t.grain
    | none => 0

/-- The extent of member `i` of a segment rebuilt on store `sub`, each grain by the engine that serves its atom (R445, R462). -/
def Dev.rebuildOn (d : Dev) (v n : Nat) (x : Vol) (s : Seg) (i sub at_ : Nat) : Dev :=
  let old := (s.members[i]?).getD 0xFF
  let e := d.grainEngine v 0
  let s' := { s with members := modifyAt (fun _ => sub) s.members i, start := modifyAt (fun _ => at_) s.start i }
  let len := extLen s.pol s.k
  let d := (d.extTake sub { start := at_, len := len, vol := v, seg := n, member := i }).storePut sub at_ (segHeader s i v n) e
  let d := (rangeFrom 0 s.used).foldl (fun d slot =>
    let fr := d.rebuildFrags s i slot
    if fr.length < s.need then d
    else d.storePut sub (s'.grainLba i slot) (((encodeGrain s.pol s.k s.m (decodeGrain s.pol s.k (fr.take s.need)))[i]?).getD [])
      (d.grainEngine v (d.slotGrain v n slot x))) d
  let d := (rangeFrom 0 (ceilDiv s.recs.length 2)).foldl (fun d r =>
    d.storePut sub (s'.recLba i (2 * r)) (s.recPair (2 * r)) (d.grainEngine v (16 * leAt ((s.recs[2 * r]?).getD []) 20 4))) d
  let d := d.extFree old v n
  d.setVol v { x with segs := x.segs.put n s' }

/-- Every segment of a volume with a member on store `st` rebuilt (R462). -/
def rebuildVol (st : Nat) (d : Dev) (v : Nat) : Dev :=
  let d := ((d.vols.find v).map (·.segs.keys)).getD [] |>.foldl (fun d n =>
    match d.vols.find v with
    | none => d
    | some x =>
      match x.segs.find n with
      | none => d
      | some s =>
        match s.indexed.find? fun q => (decide (q.2 = st) && !d.storeReady st) || (decide (q.2 = 0xFF) && decide ((vrMembers x.rec_)[q.1]? = some st)) with
        | none => d
        | some (i, _) =>
          let len := extLen s.pol s.k
          match d.substitute s.members len with
          | some sub => if d.rebuildable v n x s i then d.rebuildOn v n x s i sub ((d.extPlace sub len).getD 0) else d
          | none => d) d
  match d.vols.find v with
  | some x =>
    let ms := if d.storeReady st then [] else vrMembers x.rec_
    match ((rangeFrom 0 ms.length).zip ms).find? fun q => q.2 = st, d.substitute ms (extLen (vrPol x.rec_) (vrK x.rec_)) with
    | some (i, _), some sub => d.volRecord v x (splice x.rec_ (24 + i) [byteN sub])
    | _, _ => d
  | none => d

/-- A segment of a volume with a member on a store was recovered with an extent missing. -/
def Dev.lacksExtents (d : Dev) (st : Nat) : Bool :=
  d.vols.values.any fun x => decide (st ∈ vrMembers x.rec_) && x.segs.values.any fun s => decide (0xFF ∈ s.members)

/-- REBUILD (R462, R611, R612): the extents held on a store that is FAILED, REMOVING or away. -/
def execRebuild (store : Nat) (s : State) : Host.Outcome State Fault Refusal :=
  s.act fun d =>
    if ¬ d.accepts .blkg 0 ∨ ¬ d.clusterTakes 2 ∨ d.storesAway ∨ d.coresDead ∨ d.pair.landing ≠ [] ∨ (d.storeReady store ∧ ¬ d.lacksExtents store) then d
    else (d.vols.keys.foldl (rebuildVol store) d).logRetry.blkPump

/-- A grain moved to an open segment with its ciphertext, digest, tag and VERSION unchanged (R468). -/
def Dev.moveGrain (d : Dev) (v g : Nat) (e : MapEnt) (s : Seg) : Option (Dev × MapEnt) :=
  let fr := d.mediaFrags s e.slot
  if fr.length < s.need then none
  else
    (d.withSeg v true).map fun (d, x, n, s') =>
      let slot := s'.used
      let d := d.putSeg v x n { s' with used := slot + 1 }
      let frs := encodeGrain s'.pol s'.k s'.m (decodeGrain s.pol s.k (fr.take s.need))
      let d := s'.indexed.foldl (fun d q => d.storePut q.2 (s'.grainLba q.1 slot) ((frs[q.1]?).getD []) (d.grainEngine v g)) d
      (d.bump (blkCount 0x138), { e with seg := n, slot := slot })

/-- A MOVE record of one atom written, and its map entries changed (R457, R468). -/
def Dev.moveRecord (d : Dev) (v atom : Nat) (es : List (Nat × MapEnt)) : Option Dev :=
  match d.vols.find v with
  | none => none
  | some x =>
    let bytes := logRecord true x.lsn v atom d.turn es
    match d.logPlace v bytes fun d s lba data => d.storePut s lba data (d.grainEngine v (16 * atom)) with
    | none => none
    | some (d, _, _) => (d.vols.find v).map fun x => d.mapPut v { x with lsn := x.lsn + 1 } es

/-- The live grains of one atom of a segment moved; a locked grain, or one that cannot be read, stays. -/
def moveAtom (v n : Nat) (d : Dev) (atom : Nat) : Dev :=
  match d.vols.find v with
  | none => d
  | some x =>
    match x.segs.find n with
    | none => d
    | some s =>
      let live := x.map.cells.filter fun c => c.2.mapped && !c.2.zero && decide (c.2.seg = n ∧ c.1 / 16 = atom) &&
        d.tasks.all fun t => !(decide (t.vol = v ∧ t.grain = c.1) && t.write)
      let (d', es) := live.foldl (fun (q : Dev × List (Nat × MapEnt)) c =>
        match q.1.moveGrain v c.1 c.2 s with
        | some (d, e) => (d, q.2 ++ [(c.1, e)])
        | none => q) (d, [])
      if es = [] then d else (d'.moveRecord v atom es).getD d

/-- The live grains of a segment. -/
def Vol.liveIn (x : Vol) (n : Nat) : List (Nat × MapEnt) :=
  x.map.cells.filter fun c => c.2.mapped && !c.2.zero && decide (c.2.seg = n)

/-- A segment is needed no longer: no live grain, no work under way, no committed record above FENCE that recovery would
need (R468). -/
def Dev.segFree (d : Dev) (v n : Nat) (x : Vol) (s : Seg) : Bool :=
  s.sealed && decide (x.liveIn n = []) &&
    (d.tasks.all fun t => !(decide (t.vol = v ∧ t.ent.seg = n) && decide (t.phase = .data ∨ t.phase = .ready ∨ t.phase = .fetch))) &&
    (d.logs.all fun l => decide (l.vol ≠ v ∨ l.seg ≠ n)) && decide (d.pair.landing = []) &&
    (d.pair.placed.cells.all fun c => decide (c.1 / 2 ^ 48 ≠ v ∨ c.2.seg ≠ n)) &&
    s.recs.all fun r => decide (logLsn r ≤ vrFence x.rec_) ||
      (logEntries r).all fun e => decide ((x.ent e.1).version ≠ e.2.version)

/-- A segment freed on every member. -/
def Dev.segDrop (d : Dev) (v n : Nat) (x : Vol) (s : Seg) : Dev :=
  let d := s.members.foldl (fun d st => d.extFree st v n) d
  d.setVol v { x with segs := x.segs.erase n, open_ := if x.open_ = some n then none else x.open_ }

/-- A sealed segment cleaned: its live grains are moved, and it is freed once nothing needs it (R468). [log 113: DEDUCED] -/
def Dev.cleanSeg (d : Dev) (vol seg : Nat) (x : Vol) : Dev :=
  let atoms := ((x.liveIn seg).map fun c => c.1 / 16).eraseDups
  let d := atoms.foldl (moveAtom vol seg) d
  let d := match d.vols.find vol with
    | some x => match x.segs.find seg with
      | some sg => if d.segFree vol seg x sg then d.segDrop vol seg x sg else d
      | none => d
    | none => d
  d.logRetry.blkPump

/-- A live grain of a segment of which cleaning can move the data now. -/
def Dev.movable (d : Dev) (v : Nat) (s : Seg) (c : Nat × MapEnt) : Bool :=
  (d.tasks.all fun t => !(decide (t.vol = v ∧ t.grain = c.1) && t.write)) && decide (s.need ≤ (d.mediaFrags s c.2.slot).length)

/-- The sealed segments cleaning can do something to, with their live grains counted. -/
def Dev.cleanable (d : Dev) : List (Nat × Nat × Nat) :=
  (d.vols.cells.filter fun c => (d.vol? c.1).isSome).flatMap fun c =>
    (c.2.segs.cells.filter fun q => q.2.sealed && (d.segFree c.1 q.1 c.2 q.2 || (c.2.liveIn q.1).any (d.movable c.1 q.2))).map
      fun q => (c.1, q.1, (c.2.liveIn q.1).length)

/-- SEGMENT_CLEAN (R468): the firmware's pick is a segment with the fewest live grains of those it can clean. -/
def execSegmentClean (vol seg : Nat) (s : State) : Host.Outcome State Fault Refusal :=
  s.act fun d =>
    match d.vol? vol with
    | none => d
    | some x =>
      match x.segs.find seg with
      | none => d
      | some sg =>
        if ¬ d.accepts .blkg 0 ∨ ¬ sg.sealed ∨ ¬ d.clusterTakes 2 ∨ d.storesAway ∨ d.coresDead ∨
            (d.cleanable.all fun q => decide ((x.liveIn seg).length ≤ q.2.2)) = false then d
        else d.cleanSeg vol seg x

/-! ### Store commands (R471, R472) -/

/-- A store or volume command of the primary manager, run while BLK global accepts work and, where it uses `media`, its stores
answer (R471, R625, R671). -/
def Dev.blkMbx (d : Dev) (r op : Nat) (f : Dev → Work → Dev) (media : Bool := true) : Dev :=
  d.mbx r op fun d w =>
    if !d.fromPrimary r then d.finish r w.id 0x04
    else if !d.accepts .blkg 0 || (media && d.storesAway) then d
    else f d w

/-- The same for a command with a 64 B parameter block. -/
def Dev.blkBlock (d : Dev) (r op : Nat) (f : Dev → Work → List Byte → Dev) : Dev :=
  d.mbxBlock r op (fun _ => 64) fun d w b =>
    if !d.fromPrimary r then d.finish r w.id 0x04
    else if !d.accepts .blkg 0 || d.storesAway then d
    else f d w b

/-- A store descriptor holds a reserved encoding (R472). -/
def descReserved (b : List Byte) : Bool :=
  let k := byteAt b 0
  decide (k ≠ 1 ∧ k ≠ 2) ||
    (bitOf (byteAt b 1) 0 && (if k = 1 then decide (32 ≤ byteAt b 2) else decide (byteAt b 2 < 32 ∨ 96 ≤ byteAt b 2))) ||
    (decide (k = 2) && decide (leAt b 36 2 = 0 ∨ 223 < leAt b 36 2 ∨ leAt b 46 2 = 0 ∨ 223 < leAt b 46 2))

/-- The medium a descriptor names, met for the first time where it is not known: its LBA format, what it keeps atomic, its
capacity and the limits of its controller come from outside the device. [log 106: DESIGN CHOICE] -/
def Dev.meetMedium (d : Dev) (key : Nat) : Dev × Medium :=
  match d.media.find key with
  | some m => (d, m)
  | none =>
    let (d, data) := d.drawFree
    let (d, meta_) := d.drawFree
    let (d, prot) := d.drawFree
    let (d, atomic) := d.drawFree
    let (d, cap) := d.drawFree
    let (d, capsule) := d.drawFree
    let (d, h2c) := d.drawFree
    let m : Medium := { data := data, meta_ := meta_, prot := decide (prot % 2 = 1), atomic := atomic, cap := cap, capsule := capsule, h2c := h2c }
    ({ d with media := d.media.put key m }, m)

/-- LBAs of the longest extent that volumes which name store `st` will put on it; the shortest of all where none names it.
[log 106: DESIGN CHOICE] -/
def Dev.extNeed (d : Dev) (st : Nat) : Nat :=
  d.vols.values.foldl (fun a x => if st ∈ vrMembers x.rec_ then max a (extLen (vrPol x.rec_) (vrK x.rec_)) else a) 161

/-- A medium meets R440 as store `st`. -/
def Dev.mediumOk (d : Dev) (st : Nat) (m : Medium) : Bool :=
  decide (m.data = 4096) && decide (m.meta_ = 0) && !m.prot && decide (1 ≤ m.atomic) && decide (extFirst m.cap + 64 * d.extNeed st ≤ m.cap)

/-- The extents in use that an extent table on a medium lists. -/
def readExts (m : Medium) : NMap Ext :=
  ⟨(m.lbas.cells.filter fun c => decide (1026 ≤ c.1 ∧ c.1 < extFirst m.cap)).flatMap fun c =>
    (rangeFrom 0 256).filterMap fun i =>
      let b := slice c.2 (16 * i) 16
      if byteAt b 6 % 2 = 1 then some ((c.1 - 1026) * 256 + i, { start := leAt b 0 6, len := 0, vol := leAt b 8 2, seg := leAt b 12 4, member := byteAt b 7 })
      else none⟩

/-- The extents of a store with their lengths, read from their segment headers (R455, R456). -/
def withLens (m : Medium) (e : Ext) : Ext :=
  let h := m.lbas.getD e.start (zeros lbaBytes)
  { e with len := extLen (byteAt h 12) (byteAt h 13) }

/-- An extent of a volume that was recovered without its store, or has been rebuilt elsewhere, is freed (R443). -/
def Dev.staleExts (d : Dev) (st : Nat) : Dev :=
  (d.store? st).ext.values.foldl (fun d e =>
    match d.vols.find e.vol with
    | some x => match x.segs.find e.seg with
      | some s => if st ∈ s.members then d else d.extFree st e.vol e.seg
      | none => d.extFree st e.vol e.seg
    | none => d) d

/-- A store becomes READY: its queues are opened, its extent table is read (R441 to R443). -/
def Dev.storeJoin (d : Dev) (st : Nat) (x : StoreSt) : Dev :=
  let d := (d.setStore st { x with alive := d.bounds }).storeOpen st
  let m := d.mediumOf st
  (d.setStore st { d.store? st with ext := (readExts m).mapVal fun _ e => withLens m e }).staleExts st

/-- The medium that a descriptor names: of a local store its namespace and BDF; of a remote one PORT, namespace, TCP port, the
address of its IP version and the NQN of its target (R17, R472). [log 109: DEDUCED] -/
def mediumKey (b nqn : List Byte) : Nat :=
  if byteAt b 0 = 2 then
    let v6 := bitOf (byteAt b 1) 1
    beNat ([1, 2, byteN (byteAt b 3 % 4), byteN (b2n v6)] ++ slice b 4 4 ++ slice b 10 2 ++ (if v6 then slice b 12 16 else slice b 12 4) ++ nqn)
  else beNat ([1, byteN (byteAt b 0)] ++ slice b 4 6)

/-- A volume directory without a volume: 64 records of an LBA with STATE 0xFF (R453, R454). -/
def emptyDir : List Byte := (rangeFrom 0 64).flatMap fun _ => [0, 0, 0xFF] ++ zeros 61

/-- A medium formatted as store `st`: erased, with a new label and directory (R453, R472). -/
def Dev.storeFormat (d : Dev) (st : Nat) (x : StoreSt) (m : Medium) : Dev :=
  let (d, lo) := d.entDraw 3
  let (d, hi) := d.entDraw 3
  let d : Dev := { d with media := d.media.put x.medium { m with lbas := {} } }
  let d := ((d.setStore st x).storeTrim st 0 m.cap).storePut st 0 (labelBytes st ((lo + p32 * hi) % p64) m.cap)
  (rangeFrom 2 1024).foldl (fun d lba => d.storePut st lba emptyDir) d

/-- STORE_ADD on its descriptor (R440, R443, R453, R471, R472). -/
def Dev.storeAdd (d : Dev) (w : Work) (b nqn hostNqn : List Byte) : Dev :=
  let remote := byteAt b 0 = 2
  let key := mediumKey b nqn
  let (d, m) := d.meetMedium key
  let label := m.read 0 2
  let format := bitOf (byteAt b 1) 0
  let st := if format then byteAt b 2 else byteAt label 5
  if !d.mediumOk st m ∨ (¬ remote ∧ d.accepts .drp 0 = false) then d.finish w.ring w.id 0x35
  else
    if ¬ format ∧ (labelValid label = false ∨ (remote = true ↔ st < 32)) then d.finish w.ring w.id 0x35
    else if (d.store? st).state ≠ 0 ∨ (d.stores.values.any fun x => decide (x.state ≠ 0 ∧ x.medium = key)) = true then d.finish w.ring w.id 0x05
    else
      let x : StoreSt := { state := 1, remote := remote, medium := key, desc := b, nqn := nqn, hostNqn := hostNqn }
      let d := if format then d.storeFormat st x m else d
      (d.storeJoin st x).logRetry.blkPump.finish w.ring w.id 0 [byteN st]

/-- STORE_ADD (R471): the first run reads the descriptor; for a remote store the next reads the NQNs it names.
[log 110: DEDUCED] -/
def execStoreAdd (r : Nat) (s : State) : Host.Outcome State Fault Refusal :=
  s.act fun d => d.blkBlock r 0x50 fun d w b =>
    if descReserved b then d.finish r w.id 0x01
    else if ¬ d.refUp then d
    else if byteAt b 0 = 2 ∧ w.note ≠ [4] then
      ((d.setWork r w.id fun x => { x with note := [4] }).workRead w 1 (leAt b 28 8) (leAt b 36 2)).workRead w 2 (leAt b 38 8) (leAt b 46 2)
    else if byteAt b 0 = 2 then d.storeAdd w b (slice (w.part 1) 0 (leAt b 36 2)) (slice (w.part 2) 0 (leAt b 46 2))
    else d.storeAdd w b [] []

/-- A store is a member of a volume or of a segment. -/
def Dev.storeMember (d : Dev) (st : Nat) : Bool :=
  d.vols.values.any fun x => decide (st ∈ vrMembers x.rec_) || x.segs.values.any fun s => decide (st ∈ s.members)

/-- STORE_REMOVE (R443, R471). -/
def execStoreRemove (r : Nat) (s : State) : Host.Outcome State Fault Refusal :=
  s.act fun d => d.blkMbx r 0x51 fun d w =>
    let st := mbxArg w % 256
    let drain := bitOf (mbxFlags w) 0
    let x := d.store? st
    if 96 ≤ st then d.finish r w.id 0x01
    else if x.state = 0 ∨ x.state = 3 ∨ (d.storeMember st ∧ ¬ drain) then d.finish r w.id 0x05
    else if x.state = 1 ∧ drain then
      ((d.setStore st { x with state := 3 }).vols.cells.foldl (sealOn st) (d.setStore st { x with state := 3 })).finish r w.id 0
    else ((if x.state = 1 then d.storeClose st else d).setStore st {}).finish r w.id 0

/-- STORE_REMOVED (R443). -/
def execStoreRemoved (store : Nat) (s : State) : Host.Outcome State Fault Refusal :=
  s.act fun d =>
    let x := d.store? store
    if x.state = 3 ∧ x.ext.cells = [] ∧ (d.swrites.all fun w => decide (w.store ≠ store)) = true then
      ((d.storeClose store).setStore store {}).blkEvent 0x71 0 store 0 0 3 0 0 0 0 0xFF
    else d

/-- DRP_LINK: each sub-link of DRP_CFG with a drive is up while DRP accepts work and the reference runs, at the lower rate and width
of the two ends (R477, R624, R671). [log 238: DEDUCED] -/
def Dev.drpTrain (d : Dev) : Dev :=
  let subs := 2 ^ bitsOf d.drpCfg 0 2
  (rangeFrom 0 4).foldl (fun d j =>
    let c := d.drives.getD j 0
    d.wrN (reg .drp 0 (0x110 + 4 * j)) (if j < subs ∧ c ≠ 0 ∧ d.accepts .drp 0 ∧ d.refUp then
      1 + 2 * min (bitsOf d.drpCfg 4 3) (c % 8) + 16 * min (16 / subs) (c / 8) else 0)) d

/-- What a drive that comes can do: a rate of 1 to 6 and a width of 1 to 16 lanes, from outside the device.
[log 227: DESIGN CHOICE] -/
def Dev.drawDrive (d : Dev) : Dev × Nat :=
  let (d, n) := d.drawFree
  (d, 1 + n % 6 + 8 * 2 ^ (n / 6 % 5))

/-- DRP_PRESENCE_CHANGE (R477): a drive appears at sub-link `j` and its link trains as DRP_CFG and the drive allow, or it goes. -/
def execDrpPresenceChange (j : Nat) (present : Bool) (s : State) : Host.Outcome State Fault Refusal :=
  s.act fun d =>
    if 4 ≤ j then d
    else
      let (d, c) := if present then d.drawDrive else (d, 0)
      ({ d with drives := d.drives.set j c 0 } : Dev).drpTrain

end Sys2Proof.Machine
end

