-- ==== Sys2Proof/Machine/Ecdsa.lean ====
section
/-! DEFINITION. SHA-384 and the verification of an ECDSA P-384 signature (FIPS 180-4, FIPS 186-5), as R597 and R609 name
them. -/

namespace Sys2Proof.Machine

/-- SHA-384. -/
def sha384 (data : List Byte) : List Byte :=
  let p := sha512P
  let z := (256 - (data.length + 17) % 128) % 128
  let msg := data ++ [0x80] ++ zeros z ++ toBE 16 (8 * data.length)
  let ks := primes80.map (rootFrac 3 64)
  let h0 := ((primes80.drop 8).take 8).map (rootFrac 2 64)
  let h := (blocksOf 128 (msg.length / 128) msg).foldl (fun h b =>
    let w := (schedule p 64 (((blocksOf 8 16 b).map beNat).reverse)).reverse
    List.zipWith (fun x y => (x + y) % p64) h (shaRounds p (ks.zip w) h)) h0
  (h.flatMap (toBE 8)).take 48

/-- The prime of the field of P-384. -/
def pP : Nat := 2 ^ 384 - 2 ^ 128 - 2 ^ 96 + 2 ^ 32 - 1

/-- The order of the base point of P-384. -/
def pN : Nat := 0xFFFFFFFFFFFFFFFFFFFFFFFFFFFFFFFFFFFFFFFFFFFFFFFFC7634D81F4372DDF581A0DB248B0A77AECEC196ACCC52973

/-- The base point of P-384. -/
def pG : Nat × Nat :=
  (0xAA87CA22BE8B05378EB1C71EF320AD746E1D3B628BA79B9859F741E082542A385502F25DBF55296C3A545E3872760AB7,
   0x3617DE4A96262C6F5D9E98BF9292DC29F8F41DBD289A147CE9DA3113B5F0B8C00A60B1CE1D7E819D7A431D7C90EA0E5F)

/-- `b ^ e` modulo `m`, over the lowest `n` bits of `e`. -/
def powMod (m : Nat) : Nat → Nat → Nat → Nat → Nat
  | 0, _, _, acc => acc
  | n + 1, b, e, acc => powMod m n (b * b % m) (e / 2) (if e % 2 = 1 then acc * b % m else acc)

/-- The inverse of `a` modulo a prime of 384 bits. -/
def invMod (m a : Nat) : Nat := powMod m 384 (a % m) (m - 2) 1

/-- `a - b` in the field of P-384. -/
def pSub (a b : Nat) : Nat := (a + pP - b % pP) % pP

/-- The sum of two points of P-384; none is the point at infinity. -/
def pAdd (u v : Option (Nat × Nat)) : Option (Nat × Nat) :=
  match u, v with
  | none, q => q
  | q, none => q
  | some (x1, y1), some (x2, y2) =>
    if x1 = x2 ∧ (y1 + y2) % pP = 0 then none
    else
      let l := if x1 = x2 then pSub (3 * x1 * x1) 3 * invMod pP (2 * y1) % pP
        else pSub y2 y1 * invMod pP (pSub x2 x1) % pP
      let x := pSub (l * l) (x1 + x2)
      some (x, pSub (l * pSub x1 x) y1)

/-- A multiple of a point, over the lowest `n` bits of `k`. -/
def pMul : Nat → Nat → Option (Nat × Nat) → Option (Nat × Nat) → Option (Nat × Nat)
  | 0, _, _, acc => acc
  | n + 1, k, q, acc => pMul n (k / 2) (pAdd q q) (if k % 2 = 1 then pAdd acc q else acc)

/-- A signature (r, then s, 48 B each, big-endian) over a message verifies under a public key. -/
def ecdsaOk (key : Nat × Nat) (msg sig : List Byte) : Bool :=
  let r := beAt sig 0 48
  let s := beAt sig 48 48
  if r = 0 ∨ s = 0 ∨ pN ≤ r ∨ pN ≤ s then false
  else
    let w := invMod pN s
    let e := beNat (sha384 msg)
    match pAdd (pMul 384 (e * w % pN) (some pG) none) (pMul 384 (r * w % pN) (some key) none) with
    | some (x, _) => decide (x % pN = r)
    | none => false

end Sys2Proof.Machine
end

