-- ==== Sys2Proof/Machine/Capabilities.lean ====
section
/-! DEFINITION. The capabilities of the functions that hold state: Power Management, MSI-X, Device Status, Link Control,
Advanced Error Reporting, TPH Requester, Address Translation Services (R513, R517, R519, R527 to R531).  Offsets are the
manual's; the forms of the registers are those of the PCI Express Base Specification. [log 202: PRESUMED] -/

namespace Sys2Proof.Machine

/-! ### Advanced Error Reporting (R517, R528, R529) -/

/-- Correctable, Non-Fatal and Fatal Error Reporting Enable of Device Control: bits 0 to 2 (R513). -/
def Dev.errReports (d : Dev) (f : Func) (i : Nat) : Bool := bitOf (d.devControl f.link) i

/-- An error message of a function sent where its reporting is enabled, with the error marked in Device Status: correctable,
non-fatal or fatal. -/
def Dev.errMessage (d : Dev) (f : Func) (i : Nat) (masked : Bool) : Dev :=
  let d := d.setCap f 0x78 (d.capWord f 0x78 ||| 2 ^ (16 + i))
  if !masked && d.errReports f i then
    d.emit (.linkMsg f.link (if i = 0 then "ERR_COR" else if i = 1 then "ERR_NONFATAL" else "ERR_FATAL") [fkey f])
  else d

/-- The first unmasked error logged with its place and header; a later one leaves them (R517). -/
def Dev.aerFirst (d : Dev) (f : Func) (i : Nat) : Dev :=
  let mask := d.capWord (pf0 f.link) 0x108
  let open_ := d.capWord f 0x104 / 2 ^ (d.capWord f 0x118 % 32) % 2 = 1 && !bitOf mask (d.capWord f 0x118 % 32)
  if bitOf mask i || open_ then d
  else
    let h := (Config.tlpHeader d.draws).toNat
    let d : Dev := { d with draws := d.draws + 1 }
    (rangeFrom 0 4).foldl (fun d j => d.setCap f (0x11C + 4 * j) (bitsOf h (32 * j) 32)) (d.setCap f 0x118 (putBits (d.capWord f 0x118) 0 5 i))

/-- Uncorrectable error `i` of a function logged under AER with the masks and severities of PF0, and reported: as an Advisory
Non-Fatal Error where `advisory`, by its severity otherwise (R528, R529). -/
def Dev.aerReport (d : Dev) (f : Func) (i : Nat) (advisory : Bool) : Dev :=
  let masked := bitOf (d.capWord (pf0 f.link) 0x108) i
  let d := d.aerFirst f i
  let d := d.setCap f 0x104 (d.capWord f 0x104 ||| 2 ^ i)
  if advisory then
    (d.setCap f 0x110 (d.capWord f 0x110 ||| 0x2000)).errMessage f 0 (masked || bitOf (d.capWord (pf0 f.link) 0x114) 13)
  else d.errMessage f (if bitOf (d.capWord (pf0 f.link) 0x10C) i then 2 else 1) masked

/-- An uncorrectable error whose severity is Non-Fatal is advisory (R528). -/
def Dev.aerAdvisory (d : Dev) (f : Func) (i : Nat) : Bool := !bitOf (d.capWord (pf0 f.link) 0x10C) i

/-! ### Writes of the host (R513, R517) -/

/-- The bits of a capability dword of a function that a write replaces; what governs a link's VFs too is PF0's. -/
def capRw (f : Func) (off : Nat) : Nat :=
  if off = 0x50 then 0xC0000000
  else if off = 0x1A8 then 0x307
  else if off = 0x1C4 then 0x801F0000
  else if f.num ≠ 0 then 0
  else match off with
    | 0x80 => 0xC2
    | 0x108 | 0x10C => 0x5FF010
    | 0x114 => 0xF1C1
    | 0x118 => 0x140
    | _ => 0

/-- The bits of a capability dword that a write of 1 clears. -/
def capW1c (off : Nat) : Nat :=
  match off with
  | 0x78 => 0xF0000
  | 0x104 => 0x5FF010
  | 0x110 => 0xF1C1
  | _ => 0

/-- A dword of the capabilities after a write. -/
def Dev.capWrite (d : Dev) (f : Func) (off v : Nat) : Dev :=
  let old := d.capWord f off
  let m := capRw f off
  d.setCap f off (((old ^^^ (old &&& m)) ||| (v &&& m)) ^^^ (old &&& capW1c off &&& v))

/-! ### The MSI-X structures (R63, R517, R519) -/

/-- Where an offset of PF0 BAR0 or of a VF's BAR0 lies in the MSI-X structures: the function and the offset in its table, or in
its PBA from 0x10000 on. -/
def msixPlace (pt : Party) (off : Nat) : Option (Func × Nat) :=
  let pf (k : Nat) : Option (Func × Nat) :=
    if 0x0FF00000 ≤ off ∧ off < 0x0FF08000 then some (pf0 k, off - 0x0FF00000)
    else if 0x0FF08000 ≤ off ∧ off < 0x0FF08100 then some (pf0 k, off - 0x0FF08000 + 0x10000)
    else none
  match pt with
  | .hif0 => pf 0
  | .hif1 => pf 1
  | .vf f => if off < 0x400 then some (f, off) else if 0x800 ≤ off ∧ off < 0x808 then some (f, off - 0x800 + 0x10000) else none
  | _ => none

/-- A dword of the MSI-X structures of a function. -/
def Dev.msixWord (d : Dev) (f : Func) (x : Nat) : Nat :=
  if x < 0x10000 then
    let m := d.msix.getD (vecKey f (x / 16)) {}
    match x % 16 / 4 with
    | 0 => m.addr % p32
    | 1 => m.addr / p32
    | 2 => m.data
    | _ => m.st * 65536 + b2n (!m.unmasked)
  else (rangeFrom 0 32).foldl (fun a i => a + 2 ^ i * b2n (d.msix.getD (vecKey f ((x - 0x10000) / 4 * 32 + i)) {}).pending) 0

/-- A read of the MSI-X structures: a dword, or an aligned pair of them. -/
def Dev.msixRead (d : Dev) (f : Func) (x width : Nat) : Nat :=
  if x % width ≠ 0 then 0
  else if width = 4 then d.msixWord f x
  else if width = 8 then d.msixWord f x + p32 * d.msixWord f (x + 4)
  else 0

/-- A dword of the MSI-X table of a function written; the PBA is read-only. -/
def Dev.msixPut (d : Dev) (f : Func) (x v : Nat) : Dev :=
  if 0x10000 ≤ x then d
  else
    let k := vecKey f (x / 16)
    let m := d.msix.getD k {}
    let m := match x % 16 / 4 with
      | 0 => { m with addr := m.addr / p32 * p32 + v / 4 * 4 }
      | 1 => { m with addr := m.addr % p32 + v * p32 }
      | 2 => { m with data := v }
      | _ => { m with unmasked := !bitOf v 0, st := v / 65536 }
    { d with msix := d.msix.set k m {} }

/-! ### Address translation (R531) -/

/-- Entry `i` of a Translation Completion. -/
def xlateEntry (data : List Byte) (i : Nat) : Nat := beNat (slice data (8 * i) 8)

/-- A translation entry permits a read at its address; U asks for untranslated accesses only. -/
def xlateOk (e : Nat) : Bool := bitOf e 0 && !bitOf e 2

/-- The parts of a read issued as its translations say: each at its translated address, or untranslated where its translation
returns no permission (R531). -/
def Dev.readParts (d : Dev) (h : HRead) (data : List Byte) : Dev × HRead :=
  let ps := (rangeFrom 0 h.parts.length).zip h.parts
  let d := ps.foldl (fun d p =>
    let e := xlateEntry data p.1
    if xlateOk e then d.emit (.hostRead h.id h.func (e / 4096 * 4096 + p.2.1 % 4096) p.2.2 true)
    else d.emit (.hostRead h.id h.func p.2.1 p.2.2)) d
  (d, { h with asking := false, pages := (ps.filter fun p => xlateOk (xlateEntry data p.1)).map fun p => p.2.1 / 4096 })

/-- The number of 4 KiB pages of the range an Invalidate Request names: one, or with S (bit 11) twice the power of two of the
lowest zero bit from bit 12 on. -/
def invalPages (addr : Nat) : Nat :=
  if bitOf addr 11 then 2 ^ (((rangeFrom 12 52).find? fun i => !bitOf addr i).getD 63 - 11) else 1

/-- A page lies in the range of an Invalidate Request. -/
def inInval (addr page : Nat) : Bool := decide (page / invalPages addr = addr / 4096 / invalPages addr)

end Sys2Proof.Machine
end

