-- ==== Sys2Proof/Machine/Volumes.lean ====
section
/-! DEFINITION. Volumes: creation, states, migration, size, recovery (R436, R437, R454, R464 to R471). -/

namespace Sys2Proof.Machine

/-- Blocks that fit in the map region (R437): 16 B for every grain of 16 blocks. -/
def Dev.mapBlocks (d : Dev) : Nat := d.fld (reg .blkg 0 0x108) 0 6 * 2 ^ 30

/-- Blocks of every volume but `v`. -/
def Dev.otherBlocks (d : Dev) (v : Nat) : Nat :=
  d.vols.cells.foldl (fun a c => if c.1 = v then a else a + vrBlocks c.2.rec_) 0

/-- A size a volume may have (R436). -/
def sizeOk (n : Nat) : Bool := decide (n % 256 = 0 ∧ 256 ≤ n ∧ n ≤ 2 ^ 36)

/-- A volume command completes, or waits for the partner when it has mirrored a record since frame `n1` (R581). -/
def Dev.finishVol (d : Dev) (n1 r id : Nat) (st : Nat := 0) : Dev :=
  if d.pair.s1.next = n1 then d.finish r id st
  else (d.setWork r id fun w => { w with note := [1] }).pairWait 1 (.finish r id st [])

/-- A volume command on a volume that exists and is not held by a standby group (R580); it waits while what it must
mirror has no room (R579). -/
def Dev.volMbx (d : Dev) (r id v : Nat) (f : Dev → Vol → Dev) : Dev :=
  match d.vol? v with
  | none => d.finish r id 0x05
  | some x =>
    if d.volHeld x then d.finish r id 0x05
    else if d.volMirrors x && d.pairFull then d.mirrorStall
    else f d x

/-- The members of a record are READY stores. -/
def Dev.membersReady (d : Dev) (b : List Byte) : Bool := (vrMembers b).all d.storeReady

/-- VOL_CREATE (R436, R437, R454, R470, R471); a VF without STORE may own no volume (R543). [log 223: DEDUCED] [log 121: DESIGN CHOICE] -/
def execVolCreate (r : Nat) (s : State) : Host.Outcome State Fault Refusal :=
  s.act fun d => d.blkBlock r 0x52 fun d w b =>
    let v := vrVol b
    if vrReserved b ∨ (vrState b ≠ 0 ∧ vrState b ≠ 3) then d.finish r w.id 0x01
    else if (d.vols.find v).isSome then d.finish r w.id 0x05
    else if !d.mayOwn (vrOwner b) 1 then d.finish r w.id 0x04
    else if !sizeOk (vrBlocks b) then d.finish r w.id 0x35
    else if d.mapBlocks < d.otherBlocks v + vrBlocks b then d.finish r w.id 0x20
    else if !d.membersReady b ∨ (vrPair b && d.standsBy (d.groupKind 2)) ∨ (vrState b = 0 ∧ vrWide b ∧ ¬ d.enginesAll) then
      d.finish r w.id 0x05
    else if vrPair b && d.groupActive (d.groupKind 2) && d.pairFull then d.mirrorStall
    else
      let (d, key) := if vrState b = 0 then d.volKey b else (d, some [])
      match key with
      | none => d.finish r w.id 0x12
      | some _ =>
        let n1 := d.pair.s1.next
        (d.volRecord v { rec_ := b, eng := vrEngine b, fresh := true } (splice b 52 (zeros 8))).mapLayout.finishVol n1 r w.id

/-- VOL_STATE (R39, R470, R471, R611). -/
def execVolState (r : Nat) (s : State) : Host.Outcome State Fault Refusal :=
  s.act fun d => d.blkMbx r 0x53 fun d w =>
    let v := mbxArg w % 65536
    let target := bitsOf (mbxArg w) 16 8
    if target ≠ 0 ∧ target ≠ 1 ∧ target ≠ 3 then d.finish r w.id 0x01
    else d.volMbx r w.id v fun d x =>
      let st := d.volState x
      let n1 := d.pair.s1.next
      if target = 1 then
        if st = 0 ∧ ¬ d.storeGone then (d.volTo v x 1).finishVol n1 r w.id else d.finish r w.id 0x05
      else if target = 3 then
        if st = 0 ∨ st = 1 ∨ st = 4 then (d.volTo v x 2).finishVol n1 r w.id else d.finish r w.id 0x05
      else if (st ≠ 3 ∧ st ≠ 1) ∨ d.storeGone ∨ (vrWide x.rec_ ∧ ¬ d.enginesAll) then d.finish r w.id 0x05
      else
        match d.volKey x.rec_ with
        | (d, none) => d.finish r w.id 0x12
        | (d, some _) => (d.volTo v x 0).finishVol n1 r w.id

/-- VOLUME_QUIESCED (R470): no command of a QUIESCING volume is outstanding. [log 120: DEDUCED] -/
def execVolumeQuiesced (vol : Nat) (s : State) : Host.Outcome State Fault Refusal :=
  s.act fun d =>
    match d.vol? vol with
    | some x =>
      if x.quiescing ∧ (d.qcmds.all fun c => decide (c.vol ≠ vol ∨ c.op = 3)) then
        (d.setVol vol { x with quiescing := false }).blkEvent 0x72 0 0xFF vol 3 2 0 0 0 0 0xFF
      else d
    | none => d

/-- Bytes of a record that VOL_MIGRATE may not change (R471). [log 118: DEDUCED] -/
def migrateFixed (b : List Byte) : List Byte :=
  slice b 0 3 ++ [byteN (byteAt b 3 % 8 / 4 * 4 + byteAt b 3 % 2), byteN (byteAt b 7 % 4)] ++ slice b 8 8 ++
    toLE 4 (vrSlot b) ++ toLE 2 (leAt b 20 2 % 8192) ++ slice b 44 16

/-- The segments of a volume with the open one sealed. -/
def Vol.sealedSegs (x : Vol) : NMap Seg :=
  match x.open_ with
  | some n => match x.segs.find n with
    | some sg => x.segs.put n { sg with sealed := true }
    | none => x.segs
  | none => x.segs

/-- VOL_MIGRATE (R454, R470, R471). -/
def execVolMigrate (r : Nat) (s : State) : Host.Outcome State Fault Refusal :=
  s.act fun d => d.blkBlock r 0x54 fun d w b =>
    let v := vrVol b
    if vrReserved b then d.finish r w.id 0x01
    else d.volMbx r w.id v fun d x =>
      if d.volState x ≠ 0 ∨ !d.membersReady b ∨ (vrPair b && d.standsBy (d.groupKind 2)) then d.finish r w.id 0x05
      else if migrateFixed b ≠ migrateFixed x.rec_ then d.finish r w.id 0x01
      else if vrPair b && d.groupActive (d.groupKind 2) && d.pairFull then d.mirrorStall
      else
        let n1 := d.pair.s1.next
        (d.volTo v { x with rec_ := b, segs := x.sealedSegs, open_ := none } 4).finishVol n1 r w.id

/-- A segment was opened under another policy or on other members than the record now names. -/
def Vol.oldSeg (x : Vol) (s : Seg) : Bool :=
  decide (s.pol ≠ vrPol x.rec_ ∨ s.k ≠ vrK x.rec_ ∨ s.m ≠ vrM x.rec_ ∨ s.members ≠ vrMembers x.rec_)

/-- The segments of a volume opened under another policy or on other members. -/
def Vol.oldSegs (x : Vol) : List Nat := (x.segs.cells.filter fun c => x.oldSeg c.2).map (·.1)

/-- A grain of a volume, or work under way on it, is still in an old segment. -/
def Dev.oldLive (d : Dev) (vol : Nat) (x : Vol) : Bool :=
  (x.map.cells.any fun c => c.2.mapped && !c.2.zero && decide (c.2.seg ∈ x.oldSegs)) ||
    (d.tasks.any fun t => decide (t.vol = vol ∧ t.ent.seg ∈ x.oldSegs) && t.ent.mapped && !t.ent.zero) ||
    d.logs.any fun l => decide (l.vol = vol) &&
      (decide (l.seg ∈ x.oldSegs) || l.entries.any fun e => !e.2.zero && decide (e.2.seg ∈ x.oldSegs))

/-- The old segments of a volume freed, and the volume back in ONLINE (R470). -/
def Dev.volMigrated (d : Dev) (vol : Nat) (x : Vol) : Dev :=
  let d := x.oldSegs.foldl (fun d n => match d.vols.find vol with
    | some x => match x.segs.find n with
      | some sg => d.segDrop vol n x sg
      | none => d
    | none => d) d
  match d.vols.find vol with
  | some x => (d.volTo vol x 0).logRetry.blkPump
  | none => d

/-- MIGRATION_DONE (R470): no grain is left under the old policy. -/
def execMigrationDone (vol : Nat) (s : State) : Host.Outcome State Fault Refusal :=
  s.act fun d =>
    match d.vol? vol with
    | none => d
    | some x =>
      if d.volState x ≠ 4 ∨ d.oldLive vol x ∨ d.coresDead ∨ d.storesAway then d else d.volMigrated vol x

/-- VOL_RESIZE (R436, R437, R471). -/
def execVolResize (r : Nat) (s : State) : Host.Outcome State Fault Refusal :=
  s.act fun d => d.blkMbx r 0x55 fun d w =>
    let v := mbxArg w % 65536
    let n := mbxArg w / 65536
    d.volMbx r w.id v fun d x =>
      if !sizeOk n then d.finish r w.id 0x35
      else if n < vrBlocks x.rec_ ∧ d.volState x ≠ 3 then d.finish r w.id 0x05
      else if d.mapBlocks < d.otherBlocks v + n then d.finish r w.id 0x20
      else
        let n1 := d.pair.s1.next
        let x := { x with map := x.map.filter fun g _ => decide (g < n / 16) }
        (d.volRecord v x (splice x.rec_ 8 (toLE 8 n))).mapLayout.finishVol n1 r w.id

/-- Every extent of a volume freed. -/
def Dev.freeVol (d : Dev) (v : Nat) (x : Vol) : Dev :=
  x.segs.cells.foldl (fun d c => c.2.members.foldl (fun d st => d.extFree st v c.1) d) d

/-- VOL_DELETE (R470, R471). -/
def execVolDelete (r : Nat) (s : State) : Host.Outcome State Fault Refusal :=
  s.act fun d => d.blkMbx r 0x56 fun d w =>
    let v := mbxArg w % 65536
    d.volMbx r w.id v fun d x =>
      if d.volState x ≠ 3 then d.finish r w.id 0x05
      else
        let n1 := d.pair.s1.next
        let d := (d.freeVol v x).volRecord v x (splice x.rec_ 2 [0xFF])
        let d : Dev := { d with vols := d.vols.erase v }
        ((d.mapLayout.blkEvent 0x72 0 0xFF v 0xFF 3 0 0 0 0 0xFF).logRetry.blkPump).finishVol n1 r w.id

/-- A volume record with its reserved fields zero (R16, R454). -/
def vrShown (r : List Byte) : List Byte :=
  splice (splice (keepBits (keepBits (keepBits (keepBits (slice r 0 64) 3 1 3) 7 1 2) 16 4 21) 20 2 13) 22 (zeros 2)) 60 (zeros 4)

/-- The 128 B of VOL_INFO (R471, R507). [log 119: DEDUCED] -/
def Dev.volInfo (d : Dev) (x : Vol) : List Byte :=
  vrShown x.rec_ ++ toLE 8 (x.map.values.filter fun e => e.mapped).length ++ toLE 8 (x.lsn - 1) ++
    [byteN (d.volState x), 0, 0, 0] ++ toLE 4 0 ++ toLE 4 0x7D0 ++ toLE 4 0xEA60 ++ toLE 4 0xE4E1C0 ++ zeros 28

/-- VOL_INFO (R471). -/
def execVolInfo (r : Nat) (s : State) : Host.Outcome State Fault Refusal :=
  s.act fun d => d.blkMbx r 0x57 (fun d w =>
    match d.vol? (mbxArg w % 65536) with
    | none => d.finish r w.id 0x05
    | some x => d.finishPut r w.id (mbxAddr w) (d.volInfo x)) false

/-! ### Recovery (R464 to R466) -/

/-- The READY stores. -/
def Dev.readyStores (d : Dev) : List Nat := (rangeFrom 0 96).filter d.storeReady

/-- The directory record of a volume on a store, where there is one. -/
def Dev.dirRecord (d : Dev) (v s : Nat) : Option (List Byte) :=
  let b := slice ((d.mediumOf s).read (2 + v / 64) 1) (v % 64 * 64) 64
  if vrVol b = v ∧ ¬ vrReserved (splice b 2 [0]) then some b else none

/-- The directory record of a volume with the highest GEN among the READY stores; none for an unused one. -/
def Dev.bestRecord (d : Dev) (v : Nat) : Option (List Byte) :=
  let best := (d.readyStores.filterMap (d.dirRecord v)).foldl (fun (a : Option (List Byte)) b => match a with
    | some c => if vrGen c < vrGen b then some b else a
    | none => some b) none
  match best with
  | some b => if vrState b = 0xFF then none else some b
  | none => none

/-- The extents of a volume on the READY stores: store, extent, header. -/
def Dev.volExts (d : Dev) (v : Nat) : List (Nat × Ext × List Byte) :=
  d.readyStores.flatMap fun s => ((d.store? s).ext.values.filter fun e => e.vol = v).filterMap fun e =>
    let h := (d.mediumOf s).read e.start 1
    if segValid v e.seg h then some (s, e, h) else none

/-- A segment put together from its extents: missing members are 0xFF. -/
def segOf (exts : List (Nat × Ext × List Byte)) (n : Nat) : Seg :=
  let mine := exts.filter fun q => q.2.1.seg = n
  let h := (mine.head?.map (·.2.2)).getD []
  let cnt := byteAt h 13 + if byteAt h 12 = 2 then byteAt h 14 else 0
  let at_ (i : Nat) := mine.find? fun q => q.2.1.member = i
  { pol := byteAt h 12, k := byteAt h 13, m := if byteAt h 12 = 2 then byteAt h 14 else 0,
    members := (rangeFrom 0 cnt).map fun i => match at_ i with | some q => q.1 | none => 0xFF,
    start := (rangeFrom 0 cnt).map fun i => match at_ i with | some q => q.2.1.start | none => 0,
    used := 128, sealed := true, openLsn := leAt h 16 8 }

/-- Record slot `i` of a segment on a member. -/
def Dev.recAt (d : Dev) (s : Seg) (q : Nat × Nat) (i : Nat) : List Byte :=
  slice ((d.mediumOf q.2).read (s.recLba q.1 i) 1) (i % 2 * 2048) 2048

/-- The log records of a segment in slot order: each valid one that some member holds, up to the last. -/
def Dev.segRecs (d : Dev) (v : Nat) (s : Seg) : List (List Byte) :=
  let ms := s.indexed.filter fun q => d.storeReady q.2
  let rs := (rangeFrom 0 64).map fun i => ms.findSome? fun q =>
    let b := d.recAt s q i
    if logValid v b then some b else none
  ((rs.reverse.dropWhile Option.isNone).reverse).map fun o => o.getD (zeros 2048)

/-- The map after a log record (R464): a MOVE entry counts only where the entry standing names the same VERSION. -/
def applyLog (m : NMap MapEnt) (b : List Byte) : NMap MapEnt :=
  (logEntries b).foldl (fun (m : NMap MapEnt) (e : Nat × MapEnt) =>
    if logMove b ∧ (m.getD e.1 {}).version ≠ e.2.version then m else m.set e.1 e.2 {}) m

/-- Committed records of a segment above `fence` written to the members that lack them (R465). -/
def Dev.settleSeg (d : Dev) (v fence : Nat) (s : Seg) : Dev :=
  (rangeFrom 0 s.recs.length).foldl (fun d i =>
    let b := (s.recs[i]?).getD []
    if logValid v b ∧ fence < logLsn b then
      (s.indexed.filter fun q => d.storeReady q.2).foldl (fun d q =>
        if d.recAt s q i = b then d else d.storePut q.2 (s.recLba q.1 i) (s.recPair i)) d
    else d) d

/-- A volume recovered from its record (R464, R465). [log 112: DEDUCED] -/
def Dev.recoverFrom (d : Dev) (v : Nat) (b : List Byte) : Dev :=
  let exts := d.volExts v
  let nums := (sortBy (fun a b => decide (a ≤ b)) (exts.map fun q => q.2.1.seg)).eraseDups
  let segs := nums.map fun n =>
    let s := segOf exts n
    (n, { s with recs := d.segRecs v s })
  let fence := vrFence b
  let recs := (segs.flatMap fun q => q.2.recs).filter fun x => logValid v x && decide (fence < logLsn x)
  let recs := sortBy (fun a b => decide (logLsn a ≤ logLsn b)) recs
  let top := recs.foldl (fun a x => max a (logLsn x)) fence
  let d := segs.foldl (fun d q => d.settleSeg v fence q.2) d
  let x : Vol := { rec_ := b, eng := vrEngine b, map := (recs.foldl applyLog {}).filter fun g _ => decide (g < vrBlocks b / 16), segs := ⟨segs⟩,
                   nextSeg := nums.foldl (fun a n => max a (n + 1)) 0, lsn := top + 1 }
  let d := (d.volRecord v x (splice (splice b 2 [3]) 52 (toLE 8 top))).mapLayout
  (d.blkEvent 0x74 0 0xFF v 3 0 0 top 0 0 0xFF).raise .blkg 0 0 11

/-- Recovery of one volume with its status (R466); not of one that a standby group covers (R580). -/
def Dev.recoverVol (d : Dev) (v : Nat) (force : Bool) : Dev × Nat :=
  match d.vols.find v, d.bestRecord v with
  | none, some b =>
    if vrPair b && d.standsBy (d.groupKind 2) then (d, 0x05) else
    let miss := ((vrMembers b).filter fun s => !d.storeReady s).length
    if miss = 0 then (d.recoverFrom v b, 0)
    else if !force then (d, 0x05)
    else if (vrPol b = 1 ∧ miss ≤ vrK b - 1) ∨ (vrPol b = 2 ∧ miss ≤ vrM b) then (d.recoverFrom v b, 0)
    else (d, 0x30)
  | _, _ => (d, 0x05)

/-- The volumes that the directories of the READY stores name and that do not exist. -/
def Dev.recoverable (d : Dev) : List Nat :=
  let vs := d.readyStores.flatMap fun s => ((d.mediumOf s).lbas.keys.filter fun k => decide (2 ≤ k ∧ k < 1026)).flatMap fun k =>
    rangeFrom ((k - 2) * 64) 64
  ((sortBy (fun a b => decide (a ≤ b)) vs.eraseDups).filter fun v => (d.vols.find v).isNone && (d.bestRecord v).isSome)

/-- Recovery of several volumes, one after another; the status is the first that is not OK. [log 114: DEDUCED] -/
def Dev.recoverAll (d : Dev) (vs : List Nat) (force : Bool) : Dev × Nat :=
  vs.foldl (fun (q : Dev × Nat) v => ((q.1.recoverVol v force).1, if q.2 = 0 then (q.1.recoverVol v force).2 else q.2)) (d, 0)

/-- VOL_RECOVER (R464 to R466, R471): of one volume, or of every volume the directories name; with ALL the status is the
first that is not OK. -/
def execVolRecover (r : Nat) (s : State) : Host.Outcome State Fault Refusal :=
  s.act fun d => d.blkMbx r 0x58 fun d w =>
    let fl := mbxFlags w
    if d.groupActive (d.groupKind 2) && d.pairFull then d.mirrorStall else
    let n1 := d.pair.s1.next
    let q := d.recoverAll (if bitOf fl 0 then d.recoverable else [mbxArg w % 65536]) (bitOf fl 1)
    q.1.finishVol n1 r w.id q.2

/-- SCRUB_NOW (R471). -/
def execScrubNow (r : Nat) (s : State) : Host.Outcome State Fault Refusal :=
  s.act fun d => d.blkMbx r 0x59 (fun d w =>
    let v := mbxArg w % 65536
    d.volMbx r w.id v fun d x => (d.setVol v { x with scrub := 0 }).finish r w.id 0) false

/-- HOME_ENGINE_RETURN (R39): the home engine of a narrow volume is back; the volume returns to it at the first boundary at which
no command of it is in flight (`Dev.homeReturn`). [log 200: DESIGN CHOICE] -/
def execHomeEngineReturn (vol : Nat) (s : State) : Host.Outcome State Fault Refusal :=
  s.act fun d =>
    match d.vol? vol with
    | some x =>
      if ¬ vrWide x.rec_ ∧ x.eng ≠ vrEngine x.rec_ ∧ d.accepts .blke (vrEngine x.rec_) then d.setVol vol { x with homing := true } else d
    | none => d

end Sys2Proof.Machine
end

