-- ==== Sys2Proof/Machine/Quern.lean ====
section
/-! DEFINITION. Quern: pushes, the start and the meaning of commands, completions, queue states, power states (R478 to
R511). -/

namespace Sys2Proof.Machine

/-! ### Views of a queue -/

/-- A counter of QRN page 1 (R510). -/
def qrnCount (x : Nat) : Nat := reg .qrn 0 (0x10000 + x)

/-- Outstanding commands of a queue: accepted, and their completion not yet written (R482, R553). -/
def Dev.queueCmds (d : Dev) (q : Nat) : List QCmd := d.qcmds.filter fun c => decide (c.queue = q ∧ c.end_ = .complete)

/-- QRN_Q_STATUS.STATE. -/
def QState.code : QState → Nat
  | .off => 0
  | .active => 1
  | .quiescing => 2
  | .resetting => 3
  | .haltActive | .haltQuiescing => 4

/-- QRN_Q_STATUS as it reads. -/
def Dev.queueStatus (d : Dev) (q : Nat) : Nat :=
  let s := d.queue q
  let n := (d.queueCmds q).length
  s.state.code + 8 * b2n (n = 0 && s.slot.isNone) + 16 * b2n s.slot.isSome + 65536 * n

/-- QRN_Q_OWNER as it reads. -/
def Dev.queueOwnerWord (d : Dev) (q : Nat) : Nat :=
  let (f, i) := d.queueOwner q
  i + 65536 * f.num + 0x10000000 * f.link

/-- The default CPL ring of a queue. -/
def Dev.queueRing (d : Dev) (q : Nat) : Nat := d.fld (queueKey q 4) 0 16

/-- An enabled CPL ring. -/
def Dev.cplOn (d : Dev) (r : Nat) : Bool := decide (d.ringKind r = 6) && d.bit (rngKey r 8) 9 && decide ((d.ring r).state ≠ .off)

/-- The ring that CQ of a command names: none where it names no enabled CPL ring of the function (R489 row 1). -/
def Dev.cqRing (d : Dev) (c : QCmd) : Option Nat :=
  let i := leAt c.entry 6 2
  if i = 0xFFFF then some (d.queueRing c.queue)
  else match d.ringOfLocal c.func i with
    | some r => if d.cplOn r then some r else none
    | none => none

/-- The ring a command completes into: the one it named when it started (R485, R489). -/
def Dev.cmdRing (d : Dev) (c : QCmd) : Nat := match c.ring with
  | some r => r
  | none => (d.cqRing c).getD (d.queueRing c.queue)

/-! ### Pushes (R479 to R484) -/

/-- A refused push: the refusal slot of its queue (R483). -/
def Dev.refusePush (d : Dev) (q st cid : Nat) : Dev :=
  let s := d.queue q
  match s.slot with
  | none => (d.setQueue q { s with slot := some { status := st, cid := cid, count := 1, mixed := false } }).raise .qrn 0 0 8
  | some x => d.setQueue q { s with slot := some { x with count := min 65535 (x.count + 1), mixed := x.mixed || decide (x.status ≠ st) } }

/-- A function leaves its Quern power state as far as `goal` (R504). [log 126: DEDUCED] -/
def Dev.qsWake (d : Dev) (f : Func) (goal : Nat) : Dev :=
  if goal < d.fld (fctxKey f 0) 0 2 then
    let d : Dev := { d with qidle := d.qidle.set (fkey f) d.bounds 0 }
    (d.wrN (fctxKey f 0) goal).bump (qrnCount 0x130)
  else d

/-- An accepted push (R482). -/
def Dev.acceptPush (d : Dev) (f : Func) (q : Nat) (data : List Byte) : Dev :=
  let (d, id) := d.fresh
  let c : QCmd := { id := id, queue := q, func := f, local_ := (d.queueOwner q).2, entry := data }
  let d : Dev := { d with qcmds := d.qcmds ++ [c] }
  ((d.bump32 (queueKey q 0x10)).bump (qrnCount 0x100)).qsWake f 0

/-- A write that touches stride `i` of a function, whole and in place or `torn` (R480 to R483). -/
def Dev.pushStride (d : Dev) (f : Func) (data : List Byte) (torn : Bool) (i : Nat) : Dev :=
  let stray := (d.bump (qrnCount 0x120)).raise .qrn 0 0 9
  match d.queueOfLocal f i with
  | none => stray
  | some q =>
    let s := d.queue q
    if s.state = .off then stray
    else if torn then (d.bump (qrnCount 0x108)).refusePush q 0x34 0xFFFF
    else if s.state = .quiescing ∨ s.state = .resetting then (d.bump (qrnCount 0x118)).refusePush q 0x05 (leAt data 2 2)
    else if d.fld (queueKey q 0) 16 11 ≤ (d.queueCmds q).length then (d.bump (qrnCount 0x110)).refusePush q 0x33 (leAt data 2 2)
    else d.acceptPush f q data

/-- Where the Quern strides of a function begin (R479). -/
def strideBase (f : Func) : Nat := if f.num = 0 then 0x400000 else 0x1000

/-- The strides of a function that a write of `n` bytes at `off` touches. -/
def strides (f : Func) (off n : Nat) : List Nat :=
  let base := strideBase f
  let last := off + max 1 n - 1
  if last < base then [] else rangeFrom ((off - base) / 0x100) ((last - base) / 0x100 - (off - base) / 0x100 + 1)

/-- A write of a function to BAR2: every stride it touches takes it, as a push or as a torn push (R480). -/
def Dev.push (d : Dev) (f : Func) (off : Nat) (data : List Byte) (whole : Bool) : Dev :=
  let torn := decide (data.length ≠ 64 ∨ off < strideBase f ∨ (off - strideBase f) % 0x100 ≠ 0) || !whole
  (strides f off data.length).foldl (fun d i => d.pushStride f data torn i) d

/-- PUSH (R479 to R484, R521): a write of a host to BAR2 of a function from its Quern strides on. -/
def execPush (f : Func) (off : Nat) (data : List Byte) (whole : Bool) (s : State) : Host.Outcome State Fault Refusal :=
  s.act fun d => if d.fnExists f then d.push f off data whole else d

/-- A Quern completion posted to a ring (R492). -/
def Dev.qrnPost (d : Dev) (q r st cid vol detail : Nat) (put : Dev → Nat → Cpl → Dev := Dev.cplWrite) : Dev :=
  let s := d.ring r
  (d.setRing r { s with owed := s.owed + 1 }).cplPost r (put := put)
    { tag := cid + 65536 * vol, status := st, flags := 2, source := (d.queueOwner q).2,
      result := toLE 4 (d.rdN (queueKey q 0x10)) ++ toLE 4 detail }

/-- REFUSAL_COMPLETION (R483): the refusal slot written, once its ring or the stash has room. [log 127: DEDUCED] -/
def execRefusalCompletion (q : Nat) (s : State) : Host.Outcome State Fault Refusal :=
  s.act fun d =>
    let x := d.queue q
    let r := d.queueRing q
    let g := d.ring r
    match x.slot with
    | some f =>
      if g.state ≠ .off ∧ g.stash.length < 64 then
        (d.setQueue q { x with slot := none }).qrnPost q r f.status f.cid 0xFFFF (f.count + 65536 * b2n f.mixed)
      else d
    | none => d

/-! ### The start of a command (R488, R489, R495, R496) -/

/-- A writer (R495). -/
def QCmd.writer (c : QCmd) : Bool := decide (c.op = 2 ∨ c.op = 4 ∨ c.op = 5 ∨ c.op = 7)

/-- ORDERED of a command. -/
def QCmd.ordered (c : QCmd) : Bool := bitOf (byteAt c.entry 1) 0

/-- The greatest NBLK of an opcode (R486). -/
def maxBlocks (op : Nat) : Nat := if op = 4 ∨ op = 5 then 1048576 else if op = 7 then 256 else 4096

/-- The data pointer of a command breaks R487 or R489 row 3. -/
def QCmd.badPointer (c : QCmd) : Bool :=
  if c.op = 1 ∨ c.op = 2 ∨ c.op = 7 then
    if c.sgl then decide (leAt c.entry 32 2 = 0 ∨ 256 < leAt c.entry 32 2 ∨ leAt c.entry 24 8 % 16 ≠ 0)
    else decide (3 * lbaBytes < c.dataLen) || c.spans.any fun p => decide (p.1 % lbaBytes ≠ 0)
  else false

/-- The function may name the volumes of an owner (R489 row 4). -/
def Dev.volFor (d : Dev) (f owner : Func) : Bool :=
  decide (owner = f) || (decide (f.num = 0) && decide (owner.num ≠ 0) && decide (owner.link = f.link)) || decide (f = pf0 d.primary)

/-- The first check of R489 that a command fails, after the first row. -/
def Dev.startCheck (d : Dev) (c : QCmd) : Option Nat :=
  if c.op = 0 ∨ 7 < c.op then some 0x03
  else if c.op = 3 then none
  else if c.nblk = 0 ∨ maxBlocks c.op < c.nblk ∨ c.badPointer = true then some 0x01
  else match d.vol? c.vol with
    | none => some 0x05
    | some x =>
      let st := d.volState x
      if !d.volFor c.func (vrOwner x.rec_) then some 0x04
      else if st = 2 ∨ st = 3 ∨ (st = 1 ∧ c.writer) then some 0x05
      else if vrBlocks x.rec_ < c.slba + c.nblk ∨ (c.op = 7 ∧ c.slba / 256 ≠ (c.slba + c.nblk - 1) / 256) then some 0x35
      else none

/-- A command accepted earlier holds this one back under OVERLAP (R495). -/
def Dev.overlaps (d : Dev) (c e : QCmd) : Bool :=
  e.done.isNone && decide (e.op ≠ 3) && decide (e.vol = c.vol) && (c.writer || e.writer) &&
    decide (c.slba < e.slba + e.nblk) && decide (e.slba < c.slba + c.nblk) &&
    match d.vol? c.vol with
    | some x => !vrWide x.rec_
    | none => false

/-- Commands accepted before a command, in order. [log 125: DEDUCED] -/
def Dev.earlier (d : Dev) (c : QCmd) : List QCmd := d.qcmds.takeWhile fun e => decide (e.id ≠ c.id)

/-- The waits of R495 and R496 of a command are over. -/
def Dev.waitsOver (d : Dev) (c : QCmd) : Bool :=
  let es := d.earlier c
  let own := es.filter fun e => e.done.isNone && decide (e.queue = c.queue ∧ e.end_ = .complete)
  (!c.ordered || own = []) && (own.all fun e => !e.ordered) && (c.op = 3 || es.all fun e => !d.overlaps c e)

/-- Every condition of R488 that hangs on the command itself. -/
def Dev.startable (d : Dev) (c : QCmd) : Bool :=
  let bad := (d.cqRing c).isNone
  let r := d.cmdRing c
  !c.started && c.done.isNone && decide (c.end_ = .complete) && d.waitsOver c && decide (d.credit r ≠ 0) &&
    decide (d.fld (fctxKey c.func 0) 0 2 = 0) &&
    (bad || (d.startCheck c).isSome || c.op = 3 || match d.vol? c.vol with
      | some x =>
        let es := d.cmdEngines c x
        es ≠ [] && es.all fun e => d.engineIn e && decide (d.inFlight e < 256)
      | none => false)

/-- A command started: its completion is owed, its checks are made (R488, R489). -/
def Dev.startCmd (d : Dev) (c : QCmd) : Dev :=
  let bad := (d.cqRing c).isNone
  let r := d.cmdRing c
  let d := d.setCmd c.id fun c => { c with started := true, badCq := bad, ring := some r }
  let s := d.ring r
  let d := d.setRing r { s with owed := s.owed + 1 }
  if bad then d.cmdEnd c.id 0x01 0
  else match d.startCheck c with
    | some st => d.cmdEnd c.id st 0
    | none =>
      match d.vol? c.vol with
      | some x => if c.op = 3 ∨ vrWide x.rec_ then d else d.setVol c.vol { x with eng := (d.servingEngine x).getD x.eng }
      | none => d

/-! ### Shares (R488, R547) -/

/-- BLK_WT of a function. -/
def Dev.blkWt (d : Dev) (f : Func) : Nat := if f.num = 0 then d.fld (reg .vfm f.link 0x108) 8 8 else d.grantAt f 14 1

/-- What a command costs of its function's deficit: its data bytes, or 64 KiB. -/
def QCmd.cost (c : QCmd) : Nat := if c.op = 3 ∨ c.op = 4 ∨ c.op = 5 then 65536 else c.dataLen

/-- The engines that serve a command; none where it ends at its checks; a FLUSH, which names no volume, is served by the first
engine in service. [log 147: DESIGN CHOICE] -/
def Dev.costEngines (d : Dev) (c : QCmd) : List Nat :=
  if (d.cqRing c).isNone ∨ (d.startCheck c).isSome then []
  else if c.op = 3 then ((rangeFrom 0 4).filter d.engineIn).take 1
  else match d.vol? c.vol with
    | some x => d.cmdEngines c x
    | none => []

/-- The command of a queue that engine `e` takes next: the oldest that can start and that it serves (R488). -/
def Dev.queueHead (d : Dev) (e q : Nat) : Option QCmd :=
  if (d.queue q).state ≠ .active then none else (d.queueCmds q).find? fun c => d.startable c && decide (e ∈ d.costEngines c)

/-- The commands at the heads of the queues that an engine can serve now. -/
def Dev.heads (d : Dev) (e : Nat) : List QCmd := (d.qcmds.map fun c => c.queue).eraseDups.filterMap (d.queueHead e)

/-- An engine has taken a queue in the present round. -/
def Dev.taken (d : Dev) (e q : Nat) : Bool := d.qTaken.getD (e * 16384 + q) false

/-- The round robin of an engine over the queues of a function has come to the queue of a head. -/
def Dev.queueTurn (d : Dev) (e : Nat) (hs : List QCmd) (c : QCmd) : Bool :=
  !d.taken e c.queue || hs.all fun h => decide (h.func ≠ c.func) || d.taken e h.queue

/-- The deficit of a function on an engine. -/
def Dev.deficit (d : Dev) (e : Nat) (f : Func) : Nat := d.blkDeficit.getD (e * 8192 + fkey f) 0

/-- What a visit adds to the deficit of a function. -/
def Dev.quantum (d : Dev) (f : Func) : Nat := d.blkWt f * 65536

/-- The visits of an engine until its function's deficit covers a command. -/
def Dev.visits (d : Dev) (e : Nat) (c : QCmd) : Nat := ceilDiv (c.cost - d.deficit e c.func) (d.quantum c.func)

/-- An engine takes a command next: its queue is at its turn, and no other function's deficit covers a command sooner. -/
def Dev.engineTakes (d : Dev) (c : QCmd) (e : Nat) : Bool :=
  let hs := d.heads e
  decide ((d.queueHead e c.queue).map (·.id) = some c.id) && d.queueTurn e hs c &&
    hs.all fun h => decide (h.func = c.func) || !d.queueTurn e hs h || decide (d.visits e c ≤ d.visits e h)

/-- The shares let a command start: an engine that serves it takes it next, or none serves it. [log 147: DESIGN CHOICE] -/
def Dev.shareOpen (d : Dev) (c : QCmd) : Bool := decide (d.costEngines c = []) || (d.costEngines c).any (d.engineTakes c)

/-- The visits up to a command added to the deficits of an engine's functions, its cost taken, its queue marked. -/
def Dev.chargeAt (old : Dev) (c : QCmd) (d : Dev) (e : Nat) : Dev :=
  let hs := old.heads e
  let k := old.visits e c
  let m := (hs.map fun h => h.func).eraseDups.foldl (fun (m : NMap Nat) f =>
    m.set (e * 8192 + fkey f) (m.getD (e * 8192 + fkey f) 0 + k * old.quantum f) 0) d.blkDeficit
  let key := e * 8192 + fkey c.func
  let t := if old.taken e c.queue then
      d.qTaken.filter fun x _ => !(decide (x / 16384 = e) && decide (old.queueFunc (x % 16384) = c.func))
    else d.qTaken
  { d with blkDeficit := m.set key (m.getD key 0 - c.cost) 0, qTaken := t.set (e * 16384 + c.queue) true false }

/-- A starting command charged on every engine that serves it (R547). -/
def Dev.shareCharge (d : Dev) (c : QCmd) : Dev := (d.costEngines c).foldl (d.chargeAt c) d

/-- COMMAND_START (R488, R489, R547): the oldest command of a queue that can start and that an engine takes now. -/
def execCommandStart (q : Nat) (s : State) : Host.Outcome State Fault Refusal :=
  s.act fun d =>
    if (d.queue q).state ≠ .active ∨ d.bit (reg .qrn 0 0x104) 0 ∨ ¬ d.accepts .qrn 0 then d
    else match (d.queueCmds q).find? fun c => d.startable c && d.shareOpen c with
      | some c => (d.shareCharge c).startCmd c
      | none => d

/-! ### The meaning of a command (R439, R487, R491, R497, R498) -/

/-- A host read of a command. -/
def Dev.cmdFetch (d : Dev) (c : QCmd) (part : Nat) (p : Nat × Nat) : Dev :=
  let (d, rid) := d.dmaRead c.func p.1 p.2 (.quern c.id part)
  d.setCmd c.id fun c => { c with waiting := c.waiting ++ [rid] }

/-- The grains of a command begin (R447). -/
def Dev.cmdGrains (d : Dev) (c : QCmd) : Dev :=
  match d.vols.find c.vol with
  | some x =>
    if c.writer ∧ x.versionFull c then d.cmdEnd c.id 0x35 0
    else ((d.setCmd c.id fun c => { c with phase := 3 }).makeTasks c).blkPump
  | none => d.cmdEnd c.id 0x05 0

/-- The data of a command is read, where it has any (R487). -/
def Dev.cmdData (d : Dev) (c : QCmd) : Dev :=
  if c.op = 2 ∨ c.op = 7 then
    let d := d.setCmd c.id fun c => { c with phase := 2 }
    ((rangeFrom 1 c.spans.length).zip c.spans).foldl (fun d q => d.cmdFetch c q.1 q.2) d
  else d.cmdGrains c

/-- What a command does once nothing it waits for is missing. -/
def Dev.cmdGo (d : Dev) (id : Nat) : Dev :=
  match d.qcmd id with
  | none => d
  | some c =>
    if !c.started || c.done.isSome || c.waiting ≠ [] then d
    else match c.phase with
      | 0 =>
        if (c.op = 1 ∨ c.op = 2 ∨ c.op = 7) ∧ c.sgl then
          (d.setCmd id fun c => { c with phase := 1 }).cmdFetch c 0 (leAt c.entry 24 8, 16 * leAt c.entry 32 2)
        else d.cmdData c
      | 1 =>
        if c.spans.foldl (fun a p => a + p.2) 0 ≠ c.dataLen ∨ (c.spans.any fun p => decide (p.2 = 0 ∨ 16777216 < p.2)) = true then
          d.cmdEnd id 0x01 0
        else d.cmdData c
      | 2 => d.cmdGrains c
      | _ => d

/-- A command with an opcode that has started and has not yet been taken up. -/
def Dev.cmdBegin (d : Dev) (id op : Nat) : Dev :=
  match d.qcmd id with
  | some c => if c.op = op ∧ c.phase = 0 then d.cmdGo id else d
  | none => d

/-- READ (R459, R486, R487). -/
def execRead (id : Nat) (s : State) : Host.Outcome State Fault Refusal := s.act fun d => d.cmdBegin id 1

/-- WRITE (R34, R446, R447, R486, R487, R491). -/
def execWrite (id : Nat) (s : State) : Host.Outcome State Fault Refusal := s.act fun d => d.cmdBegin id 2

/-- FLUSH (R497): it completes once every command accepted earlier in its queue has. -/
def execFlush (id : Nat) (s : State) : Host.Outcome State Fault Refusal :=
  s.act fun d =>
    match d.qcmd id with
    | some c =>
      if c.op = 3 ∧ c.started ∧ c.done.isNone ∧
          ((d.earlier c).all fun e => e.done.isSome || decide (e.queue ≠ c.queue) || decide (e.end_ ≠ .complete)) = true then
        d.cmdEnd id 0 0
      else d
    | none => d

/-- DEALLOCATE (R439, R486). -/
def execDeallocate (id : Nat) (s : State) : Host.Outcome State Fault Refusal := s.act fun d => d.cmdBegin id 4

/-- WRITE_ZEROES (R439, R486). -/
def execWriteZeroes (id : Nat) (s : State) : Host.Outcome State Fault Refusal := s.act fun d => d.cmdBegin id 5

/-- VERIFY (R459, R460, R486). -/
def execVerify (id : Nat) (s : State) : Host.Outcome State Fault Refusal := s.act fun d => d.cmdBegin id 6

/-- COMPARE_AND_WRITE (R486, R498). -/
def execCompareAndWrite (id : Nat) (s : State) : Host.Outcome State Fault Refusal := s.act fun d => d.cmdBegin id 7

/-! ### Completions (R484, R492 to R494, R553) -/

/-- Commands of function `f` have gone since `d0`: with the last of them it has become idle (R503). -/
def Dev.idleSince (d : Dev) (f : Func) (d0 : Dev) : Dev :=
  if (d0.qcmds.any fun x => decide (x.func = f)) && d.qcmds.all fun x => decide (x.func ≠ f) then
    { d with qidle := d.qidle.set (fkey f) d.bounds 0 }
  else d

/-- A command that is outstanding no longer. -/
def Dev.cmdGone (d : Dev) (c : QCmd) : Dev :=
  ({ d with qcmds := d.qcmds.filter fun x => decide (x.id ≠ c.id) } : Dev).idleSince c.func d

/-- A QUERN_ORPHAN event (R553, R554). -/
def Dev.orphanEvent (d : Dev) (c : QCmd) (st detail : Nat) : Dev :=
  d.vfmEvent c.func.link ([0xA1, 0x81, byteN st, 0] ++ toLE 2 c.func.num ++ [byteN c.func.link, 0] ++ slice c.entry 2 2 ++
    toLE 2 (if c.op = 3 then 0xFFFF else c.vol) ++ toLE 4 (c.local_ % 64) ++ toLE 4 detail ++ zeros 4 ++ toLE 8 c.endTurn)

/-- VOLUME of the completion of a command (R492). -/
def QCmd.cplVol (c : QCmd) : Nat := if c.op = 3 then 0xFFFF else c.vol

/-- The completion of a command that has ended posted, when it is the first of its queue to have ended; in HALT_BME it is held
as far as the stash has places (R482, R494, R524). -/
def Dev.qrnComplete (d : Dev) (c : QCmd) (st detail n : Nat) (put : Dev → Nat → Cpl → Dev := Dev.cplWrite) : Dev :=
  let first := (d.queueCmds c.queue).all fun e => match e.done with
    | some (_, _, m) => decide (n ≤ m)
    | none => true
  let r := d.cmdRing c
  let g := d.ring r
  let full := decide ((g.state = .haltActive ∨ g.state = .haltDraining) ∧ 64 ≤ g.stash.length)
  if !first || full || (!c.started && decide (d.credit r = 0)) then d
  else
    let d := if c.started then (let g := d.ring r; d.setRing r { g with owed := g.owed - 1 }) else d
    let d := (d.cmdGone c).qrnPost c.queue r st (leAt c.entry 2 2) c.cplVol detail put
    let d := d.bump32 (queueKey c.queue 0x14)
    if st = 0x06 ∨ st = 0x07 then d.bump (qrnCount 0x128) else d

/-- The ends of the commands of a function, in the order in which they came: its place, and the command. -/
def Dev.ended (d : Dev) (f : Func) : List QCmd :=
  sortBy (fun a b => decide ((a.done.getD (0, 0, 0)).2.2 ≤ (b.done.getD (0, 0, 0)).2.2))
    (d.qcmds.filter fun c => decide (c.func = f ∧ c.end_ = .complete) && c.done.isSome)

/-- Every completion of a function's ended commands that finds a place posted, in the order of the ends (R494, R525, R552). -/
def Dev.qrnFlush (d : Dev) (f : Func) (put : Dev → Nat → Cpl → Dev) : Dev :=
  (d.ended f).foldl (fun d c => match c.done with
    | some (st, detail, n) => d.qrnComplete c st detail n put
    | none => d) d

/-- QUERN_COMPLETE (R492 to R494, R532, R553): the end of command `id` reported. -/
def execQuernComplete (id : Nat) (s : State) : Host.Outcome State Fault Refusal :=
  s.act fun d =>
    match d.qcmd id with
    | some c =>
      match c.done with
      | some (st, detail, n) =>
        match c.end_ with
        | .complete => d.qrnComplete c st detail n
        | .orphan => (d.cmdGone c).orphanEvent c st detail
        | .silent => d.cmdGone c
      | none => d
    | none => d

/-! ### Queue states (R499 to R501) -/

/-- Commands of a queue not yet started end with a status. -/
def Dev.abortWaiting (d : Dev) (q st : Nat) : Dev :=
  ((d.queueCmds q).filter fun c => !c.started && c.done.isNone).foldl (fun d c => d.cmdEnd c.id st 0) d

/-- A queue enters QUIESCING (R499). -/
def Dev.queueQuiesce (d : Dev) (q : Nat) : Dev :=
  let s := d.queue q
  if s.state = .active ∨ s.state = .haltActive ∨ s.state = .haltQuiescing then
    ((d.setFld (queueKey q 0) 0 1 0).setQueue q { s with state := .quiescing }).abortWaiting q 0x07
  else d

/-- The conditions of R500 for an enable, and the personality of the owner (R543). [log 124: DEDUCED] -/
def Dev.queueEnableOk (d : Dev) (q : Nat) : Bool :=
  let n := d.fld (queueKey q 0) 16 11
  let r := d.queueRing q
  let f := d.queueFunc q
  decide (16 ≤ n ∧ n ≤ 1024) && d.cplOn r && decide (d.ringFunc r = f) && d.mayOwn f 1

/-- A write of QRN_Q_CFG (R499, R500, R551). -/
def queueCfgW (d : Dev) (t : Tgt) (q : Nat) : Dev :=
  let s := d.queue q
  let v := t.acc.data
  let on := bitOf v 0
  if s.state = .off then
    let d := d.wrN t.key (bitsOf v 16 11 * 65536)
    if !on then d
    else if d.fnQuiesced (d.queueFunc q) then d.refuse t 0x0F02
    else if d.queueEnableOk q then
      (d.setFld t.key 0 1 1).setQueue q { s with state := if d.master (d.queueFunc q) then .active else .haltActive }
    else d.refuse t 0x0E02
  else if s.state = .resetting then d.refuse t 0x0E01
  else
    let d := if on then d else d.queueQuiesce q
    if on && d.fnQuiesced (d.queueFunc q) then d.refuse t 0x0F02
    else if bitsOf v 16 11 ≠ d.fld t.key 16 11 then d.refuse t 0x0E01 else d

/-- A queue reset (R499, R501). -/
def queueCtrlW (d : Dev) (t : Tgt) (q : Nat) : Dev :=
  let s := d.queue q
  if !bitOf t.acc.data 0 then d
  else match s.state with
    | .off => ((d.wrN (queueKey q 0x10) 0).wrN (queueKey q 0x14) 0).setQueue q { s with slot := none }
    | .active | .quiescing => (d.setQueue q { s with state := .resetting }).abortWaiting q 0x06
    | _ => d.refuse t 0x0E01

/-- A write to a queue context (R499, R508). -/
def queueW (d : Dev) (t : Tgt) (q : Nat) : Dev :=
  if t.x = 0 then queueCfgW d t q
  else if t.x = 0x18 then queueCtrlW d t q
  else if t.x = 0x1C then d
  else if (d.queue q).state ≠ .off then d.refuse t 0x0E01
  else d.store t

/-- A write of a party to a register of the context of queue `q`, through the window with the selector naming it: of QRN
(R507), or of the page of a VF (R549). -/
def Dev.queueWrite (d : Dev) (pt : Party) (q off v : Nat) : Dev :=
  let go (d : Dev) (at_ : Nat) : Dev := d.ownWrite pt at_ 4 v fun d t => queueW d t q
  match pt with
  | .vf f => if d.queueFunc q = f then go (d.wrN (vfKey f 0x1200) (d.queueOwner q).2) (0x1240 + off) else d
  | _ => go (d.wrN (reg .qrn 0 0x108) q) (reg .qrn 0 (0x140 + off))

/-- QUEUE_ENABLE (R499, R500): a write of QRN_Q_CFG with ENABLE = 1. -/
def execQueueEnable (pt : Party) (q : Nat) (v : BitVec 32) (s : State) : Host.Outcome State Fault Refusal :=
  s.act fun d => d.queueWrite pt q 0 (putBits v.toNat 0 1 1)

/-- QUEUE_DISABLE (R499): a write of QRN_Q_CFG with ENABLE = 0. -/
def execQueueDisable (pt : Party) (q : Nat) (v : BitVec 32) (s : State) : Host.Outcome State Fault Refusal :=
  s.act fun d => d.queueWrite pt q 0 (putBits v.toNat 0 1 0)

/-- Nothing of a queue is outstanding, and its refusal slot is empty. -/
def Dev.queueIdle (d : Dev) (q : Nat) : Bool := (d.queueCmds q).isEmpty && (d.queue q).slot.isNone

/-- QUEUE_DRAIN_DONE (R499): a QUIESCING queue with nothing outstanding enters OFF. -/
def execQueueDrainDone (q : Nat) (s : State) : Host.Outcome State Fault Refusal :=
  s.act fun d =>
    let x := d.queue q
    if x.state = .quiescing ∧ d.queueIdle q then d.setQueue q { x with state := .off } else d

/-- QUEUE_RESET (R499, R501): a write of QRN_Q_CTRL with RESET = 1. -/
def execQueueReset (pt : Party) (q : Nat) (v : BitVec 32) (s : State) : Host.Outcome State Fault Refusal :=
  s.act fun d => d.queueWrite pt q 0x18 (putBits v.toNat 0 1 1)

/-- RESET_TIMEOUT (R501, R533, R553): a started command of a queue or function that was reset is unfinished
QRN_RESET_TIMEOUT after the reset. -/
def execResetTimeout (id : Nat) (s : State) : Host.Outcome State Fault Refusal :=
  s.act fun d =>
    match d.qcmd id with
    | some c =>
      if c.started ∧ c.done.isNone ∧ ((d.queue c.queue).state = .resetting ∨ c.end_ ≠ .complete) then
        ((d.cmdEnd id 0x06 0).raise .qrn 0 0 11).blkPump
      else d
    | none => d

/-- RESET_DONE (R499, R511): every command of a RESETTING queue has ended, and its refusal slot is written. -/
def execResetDone (q : Nat) (s : State) : Host.Outcome State Fault Refusal :=
  s.act fun d =>
    let x := d.queue q
    if x.state = .resetting ∧ d.queueIdle q then
      ((((d.wrN (queueKey q 0x10) 0).wrN (queueKey q 0x14) 0).setFld (queueKey q 0) 0 1 0).setQueue q { x with state := .off }).raise .qrn 0 0 10
    else d

/-! ### Power states (R503, R504) -/

/-- QS_IDLE_TIMEOUT (R504): a function has been idle in its power state as long as its timer says. -/
def execQsIdleTimeout (f : Func) (s : State) : Host.Outcome State Fault Refusal :=
  s.act fun d =>
    let ps := d.fld (fctxKey f 0) 0 2
    let lim := d.fld (fctxKey f (8 + 4 * ps)) 0 24
    if ps < 3 ∧ ps + 1 ≤ d.fld (fctxKey f 4) 0 2 ∧ lim ≠ 0 ∧ (d.qcmds.all fun c => decide (c.func ≠ f)) = true ∧
        d.qidle.getD (fkey f) 0 + lim ≤ d.bounds then
      ({ d with qidle := d.qidle.set (fkey f) d.bounds 0 } : Dev).wrN (fctxKey f 0) (ps + 1)
    else d

/-- The functions that own volumes which satisfy `p`. -/
def Dev.volOwners (d : Dev) (p : Vol → Bool) : List Func := (d.vols.values.filter p).map fun x => vrOwner x.rec_

/-- The shallowest Quern power state among functions; QS3 where there are none. -/
def Dev.shallowest (d : Dev) (fs : List Func) : Nat := fs.foldl (fun a f => min a (d.fld (fctxKey f 0) 0 2)) 3

/-- How deep block engine `e` is gated: as the shallowest state among the functions that own volumes it serves, and not at all
while work of the store's own is on it (R503, R505). -/
def Dev.engineGate (d : Dev) (e : Nat) : Nat :=
  if d.inFlight e ≠ 0 ∨ (d.swrites.any fun w => w.eng = e) = true ∨ (d.sreads.any fun r => r.eng = e) = true then 0
  else d.shallowest (d.volOwners fun x => vrWide x.rec_ || decide (d.servingEngine x = some e))

/-- The DRP link of a local store is in L1.2: every function that owns a volume with a member on it is in QS3; a remote store is
never put into low power (R503, R505). -/
def Dev.storeL12 (d : Dev) (s : Nat) : Bool :=
  !(d.store? s).remote && d.storeReady s && (rangeFrom 0 4).all (fun e => decide (d.ioBusy s e = 0)) &&
    decide (d.shallowest (d.volOwners fun x => decide (s ∈ vrMembers x.rec_)) = 3)

/-- A write to the power context of a function (R504, R509). -/
def fctxW (d : Dev) (t : Tgt) (f : Func) : Dev :=
  let d := d.store t
  if t.x = 4 then d.qsWake f (d.fld (fctxKey f 4) 0 2) else d

/-- PS_MAX_WRITE (R504, R509): a write of QRN_F_PS_CFG. -/
def execPsMaxWrite (pt : Party) (f : Func) (v : BitVec 32) (s : State) : Host.Outcome State Fault Refusal :=
  s.act fun d =>
    let go (d : Dev) (at_ : Nat) : Dev := d.ownWrite pt at_ 4 v.toNat fun d t => fctxW d t f
    match pt with
    | .vf g => if g = f then go d 0x1284 else d
    | _ => go (d.wrN (reg .qrn 0 0x10C) (f.num + 4096 * f.link)) (reg .qrn 0 0x184)

end Sys2Proof.Machine
end

