-- ==== Sys2Proof/Machine/HostReads.lean ====
section
/-! DEFINITION. The ends of host reads: data that comes, and reads that fail (R487, R524, R527 to R531). -/

namespace Sys2Proof.Machine

/-- A piece of work ends with the status of a failed read; the cells of a frame being read are freed (R173, R415).  A
DEBUG_UNLOCK replaces the challenge first (R609): it keeps the status in `note` behind a 3. -/
def Dev.workFail (d : Dev) (r id st : Nat) : Dev :=
  match d.work? r id with
  | none => d
  | some w =>
    if w.done.isSome then d
    else if d.ringKind r = 1 then (d.cellFree (d.txSource r) w.cells).finish r id st
    else if d.ringKind r = 7 ∧ w.opcode = 5 then d.setWork r id fun x => { x with waiting := [], note := [3, st] }
    else if w.note.head? = some 2 then d.jobEnd w st 0 0
    else d.finish r id st

/-- A fetch of ring slots that fails: every slot up to the producer count is consumed (R530); without credit none is fetched,
and the slots are read again (R175). -/
def Dev.slotsFail (d : Dev) (r st : Nat) : Dev :=
  let n := d.ringUsed r
  if (d.ring r).state ≠ .active ∨ n = 0 ∨ d.credit (d.ringCpl r) = 0 then d
  else
    let d := d.ringConsume r n
    let (d, id) := d.addWork r 0 0 []
    d.finish r id st (toLE 4 n)

/-- A host read that failed ends its work with a status. -/
def Dev.readFailed (d : Dev) (h : HRead) (st : Nat) : Dev :=
  match h.use with
  | .ring r w _ => d.workFail r w st
  | .slots r => d.slotsFail r st
  | .quern c _ => match d.qcmd c with
    | some x => if x.done.isSome then d else (d.setCmd c fun x => { x with waiting := [] }).cmdEnd c st 0
    | none => d
  | .none => d

/-- An outstanding read by its number, and the device without it. -/
def Dev.takeRead (d : Dev) (id : Nat) : Option (HRead × Dev) :=
  (takeFirst (fun h : HRead => decide (h.id = id) && h.sent) d.reads).map fun q => (q.1, { d with reads := q.2 })

/-- The data of a host read. -/
def Dev.readData (d : Dev) (h : HRead) (data : List Byte) : Dev :=
  let bs := slice data 0 h.len
  match h.use with
  | .ring r w part => d.setWork r w fun x => { x with waiting := x.waiting.filter (· ≠ h.id), data := x.data ++ [(part, bs)] }
  | .slots r => d.fetchEntry r ((d.ring r).fetched ++ bs)
  | .quern c part =>
    (d.setCmd c fun x => { x with waiting := x.waiting.filter (· ≠ h.id), data := x.data ++ [(part, bs)] }).cmdGo c
  | .none => d

/-- A read of function `f` that has been sent uses a translation of the range at an address, or asks for one. -/
def Dev.pageRead (d : Dev) (f : Func) (addr : Nat) : Bool :=
  d.reads.any fun h => decide (h.func = f) && h.sent &&
    ((h.asking && h.parts.any fun p => inInval addr (p.1 / 4096)) || h.pages.any (inInval addr))

/-- The Invalidate Requests of a link that no read holds any more complete (R531). -/
def Dev.invalSettle (d : Dev) (k : Nat) : Dev :=
  let l := d.link k
  let go := l.invals.filter fun q => !d.pageRead q.1 q.2.2
  go.foldl (fun d q => d.emit (.linkMsg k "Invalidate Completion" [fkey q.1, q.2.1]))
    (d.setLink k { l with invals := l.invals.filter fun q => d.pageRead q.1 q.2.2 })

/-- The read `h` has ended as `f` says: what waited for it goes on (R531). -/
def Dev.readOver (d : Dev) (h : HRead) (f : Dev → Dev) : Dev := (f d).invalSettle h.func.link

/-- The translations of a read have come: its parts go out (R531). -/
def Dev.translated (d : Dev) (h : HRead) (data : List Byte) : Dev :=
  let (d, h) := d.readParts h data
  { d with reads := d.reads ++ [h] }

/-- HOST_READ_COMPLETE (R487, R524, R531): what read `id` asked for arrives, its translations or its data. -/
def execHostReadComplete (id : Nat) (data : List Byte) (s : State) : Host.Outcome State Fault Refusal :=
  s.act fun d =>
    match d.takeRead id with
    | some (h, d) => d.readOver h fun d => if h.asking then d.translated h data else d.readData h data
    | none => d

end Sys2Proof.Machine
end

