-- ==== Sys2Proof/Machine/Pair.lean ====
section
/-! DEFINITION. The redundant pair: pair-protocol frames, mirroring, roles, takeover (R574 to R594). -/

namespace Sys2Proof.Machine

/-! ### Roles and events (R582, R593) -/

/-- PRL_GROUP_STATUS.ROLE. -/
def Role.code : Role → Nat
  | .off => 0
  | .stale => 1
  | .standby => 2
  | .active => 3
  | .alone => 4

/-- KIND of a group. -/
def Dev.groupKindOf (d : Dev) (g : Nat) : Nat := bitsOf (d.groupCfg g) 0 3

/-- PARTNER_ID. -/
def Dev.partnerId (d : Dev) : Nat := d.fld (reg .prl 0 0x100) 16 14

/-- A PRL event (R593). -/
def Dev.prlEvent (d : Dev) (kind g new old : Nat) (late : Bool) : Dev :=
  (d.evtVia (reg .prl 0 0x124) ([0xA1, byteN kind, byteN g, byteN new, byteN old, byteN (b2n late)] ++ toLE 2 d.partnerId ++
    toLE 8 d.turn ++ zeros 16)).1

/-! ### What waits for the partner (R581) -/

/-- What waited for an acknowledgement goes on. -/
def Dev.ackFire (d : Dev) (t : AckThen) : Dev :=
  match t with
  | .finish r id st res => (d.setWork r id fun w => { w with note := [] }).finish r id st res
  | .range sa => { d with saLimit := d.saLimit.erase sa }
  | .high sa v => { d with saHigh := d.saHigh.put sa v }
  | .part cmd => d.acked cmd 96
  | .grain v g =>
    match d.vols.find v with
    | some x => let e := x.ent g; if e.mapped && !e.pair then (d.moveRecord v (g / 16) [(g, { e with pair := true })]).getD d else d
    | none => d
  | .queued b => d.lrnNote b true

/-- The partner expects frame `n` of a stream next: earlier frames are acknowledged (R579). -/
def Dev.ackStream (d : Dev) (i n : Nat) : Dev :=
  let s := d.pair.stream i
  if s.unacked.any fun f => decide (sub32 n f.1 ≠ 0 ∧ sub32 n f.1 < 2147483648) then
    let (fire, keep) := s.waits.partition fun w => decide (sub32 n w.1 < 2147483648)
    let s := { s with unacked := s.unacked.filter fun f => !decide (sub32 n f.1 ≠ 0 ∧ sub32 n f.1 < 2147483648), ackTurn := d.bounds, waits := keep }
    let d : Dev := { d with pair := d.pair.setStream i s }
    fire.foldl (fun d w => d.ackFire w.2) d
  else d

/-- Nothing is mirrored or awaited any more: what waited goes on (R581, R582). -/
def Dev.pairRelease (d : Dev) : Dev :=
  let go (d : Dev) (i : Nat) : Dev :=
    let s := d.pair.stream i
    let d : Dev := { d with pair := d.pair.setStream i { s with unacked := [], waits := [] } }
    s.waits.foldl (fun d w => match w.2 with | .grain _ _ => d | t => d.ackFire t) d
  go (go d 0) 1

/-- A log record that waits for the lost partner written anew, without it (R449). -/
def Dev.logAlone (d : Dev) (l : LogOp) : Dev :=
  let es := l.entries.map fun (e : Nat × MapEnt) => (e.1, { e.2 with pair := false })
  let bytes := logRecord false l.lsn l.vol (leAt l.bytes 20 4) (leAt l.bytes 24 8) es
  let l' := { l with bytes := bytes, entries := es }
  if l.lost then d.logGone l
  else ({ d with logs := d.logs.map fun y => if y.id = l.id then { y with bytes := bytes, entries := es } else y } : Dev).logAgain l'

/-- The partner is lost as a member of the required set (R446, R449): segments with unfinished writes are sealed, and unfinished
grains and records are written again in new ones without the partner, with PAIR = 0. -/
def Dev.writeAlone (d : Dev) : Dev :=
  let ts := d.tasks.filter fun t => t.write && !t.logged && t.ent.pair
  let again := (ts.filter fun t => t.phase = .data).map (·.id)
  let ls := d.logs.filter fun l => decide (96 ∈ l.waits)
  let shut (d : Dev) (v : Nat) : Dev := match d.vols.find v with
    | some x => d.setVol v { x with segs := match x.open_ with
        | some n => match x.segs.find n with
          | some sg => x.segs.put n { sg with sealed := true }
          | none => x.segs
        | none => x.segs }
    | none => d
  let d := ((d.tasks.filter fun t => decide (t.id ∈ again)).map (·.vol) ++ ls.map (·.vol)).eraseDups.foldl shut d
  let d : Dev := { d with
    swrites := d.swrites.filter fun w => decide (w.id ∉ again) && decide (w.id ∉ ls.map (·.id)),
    tasks := d.tasks.map fun t =>
      if t.id ∈ again then { t with phase := .space, waits := [], ent := { t.ent with pair := false } }
      else if t.write && !t.logged then { t with ent := { t.ent with pair := false } } else t }
  ls.foldl Dev.logAlone d

/-- The group that something which waits for the partner belongs to, by its KIND and table. -/
def Dev.waitGroup (d : Dev) (stream : Nat) : AckThen → Option Nat
  | .finish r id _ _ =>
    if stream = 1 then d.groupKind 2
    else match (d.ring r).work.find? fun w => w.id = id with
      | some w => if d.ringKind r = 4 then d.groupOf 4 (byteAt w.entry 2 % 16) else d.groupKind 3
      | none => none
  | .range _ => d.groupKind 3
  | .high _ _ => d.groupKind 3
  | .part _ => d.groupKind 2
  | .grain _ _ => d.groupKind 2
  | .queued b => d.groupOf 4 (byteAt b 1 % 16)

/-- What a group had waiting goes on: it waits for the partner only while its role is ACTIVE (R581). -/
def Dev.groupRelease (d : Dev) (g : Nat) : Dev :=
  let go (d : Dev) (i : Nat) : Dev :=
    let s := d.pair.stream i
    let (fire, keep) := s.waits.partition fun w => decide (d.waitGroup i w.2 = some g)
    let d : Dev := { d with pair := d.pair.setStream i { s with waits := keep } }
    fire.foldl (fun d w => match w.2 with | .grain _ _ => d | t => d.ackFire t) d
  go (go d 0) 1

/-- An item of a resynchronisation concerns a group. -/
def Dev.itemOf (d : Dev) (g : Nat) : ResyncItem → Bool
  | .vol _ => decide (d.groupKindOf g = 2)
  | .log _ _ => decide (d.groupKindOf g = 2)
  | .sa _ => decide (d.groupKindOf g = 3)
  | .entry t _ => decide (d.groupOf 4 t = some g)

/-- A group is no longer ACTIVE: writes go on without the partner, nothing of it waits, and its resynchronisation ends (R581,
R582). -/
def Dev.groupLeave (d : Dev) (g : Nat) : Dev :=
  let d : Dev := { d with pair := { d.pair with resync := d.pair.resync.filter fun i => !d.itemOf g i } }
  (if d.groupKindOf g = 2 then d.writeAlone else d).groupRelease g

/-- A change of role (R582, R594). -/
def Dev.setRole (d : Dev) (g : Nat) (r : Role) (late : Bool := false) : Dev :=
  let old := d.role g
  if old = r then d
  else
    let d : Dev := { d with pair := { d.pair with roles := d.pair.roles.set g r .off, roleTurn := d.pair.roleTurn.set g d.turn 0 } }
    let d := (d.prlEvent 0x90 g r.code old.code late).raise .prl 0 0 9
    if old = .active then d.groupLeave g else d

/-- A group that a record concerns goes STALE where it stands by (R581). -/
def Dev.groupStale (d : Dev) (g : Option Nat) : Dev :=
  match g with
  | some g => if d.role g = .standby then d.setRole g .stale else d
  | none => d

/-! ### Records applied by the standby (R578, R581) -/

/-- A record could not be applied (R581). -/
def Dev.applyFail (d : Dev) (g : Option Nat) : Dev := (d.bump (prlCount 5)).groupStale g

/-- The place of a part of a grain among the parts received. -/
def partKey (vol grain p : Nat) : Nat := (vol * 2 ^ 48 + grain) * 8 + p

/-- The ciphertext of a grain put together from its parts, where all eight of the version have come. -/
def Dev.partsOf (d : Dev) (vol grain ver : Nat) : Option (List Byte) :=
  let ps := (rangeFrom 0 8).map fun p => d.pair.parts.getD (partKey vol grain p) []
  if ps.all fun b => decide (b.length = 8200 ∧ beAt b 0 8 = ver) then some (ps.flatMap fun b => b.drop 8) else none

/-- Writes `id` to the members of a segment, and map entries, added to the storage frame being taken (R588). -/
def Dev.landAdd (d : Dev) (id : Nat) (ms : List Nat) (v : Nat) (es : List (Nat × MapEnt)) : Dev :=
  let add (l : Landing) : Landing := { l with waits := l.waits ++ (ms.map fun m => (id, m)), vol := if es = [] then l.vol else v, es := l.es ++ es }
  { d with pair := { d.pair with landing := modifyAt add d.pair.landing (d.pair.landing.length - 1) } }

/-- A grain whose parts have all come written into the standby's own volume (R581, R588): issued to the members of its own segment,
and kept until a LOG record names it. [log 229: DEDUCED] -/
def Dev.partGrain (d : Dev) (v g ver : Nat) : Option Dev :=
  match d.partsOf v g ver with
  | none => some d
  | some ct =>
    (d.withSeg v true).map fun (d, x, n, s) =>
      let slot := s.used
      let d := d.putSeg v x n { s with used := slot + 1 }
      let frs := encodeGrain s.pol s.k s.m ct
      let (d, id) := d.fresh
      let d := s.indexed.foldl (fun d q => d.storeIssue (d.grainEngine v g) id q.2 (s.grainLba q.1 slot) ((frs[q.1]?).getD [])) d
      let gone := (rangeFrom 0 8).map (partKey v g)
      let d : Dev := { d with pair := { d.pair with parts := d.pair.parts.filter fun k _ => decide (k ∉ gone),
                                                    placed := d.pair.placed.put (v * 2 ^ 48 + g) { version := ver, seg := n, slot := slot } } }
      d.landAdd id s.members v []

/-- A part of a grain received (R578). -/
def Dev.applyPart (d : Dev) (b : List Byte) : Option Dev :=
  let v := beAt b 0 2
  let g := beAt b 4 8
  ({ d with pair := { d.pair with parts := d.pair.parts.put (partKey v g (byteAt b 20 % 8)) (slice b 12 8 ++ slice b 24 8192) } } : Dev).partGrain
    v g (beAt b 12 8)

/-- The entry of a grain of a LOG record, with the segment and slot of the standby's own volume. -/
def Dev.logGrain (d : Dev) (v : Nat) (q : Option (List (Nat × MapEnt))) (e : Nat × MapEnt) : Option (List (Nat × MapEnt)) :=
  q.bind fun es =>
    if e.2.zero then some (es ++ [(e.1, { e.2 with pair := true })])
    else match d.pair.placed.find (v * 2 ^ 48 + e.1) with
      | some p =>
        if p.version = e.2.version then some (es ++ [(e.1, { e.2 with seg := p.seg, slot := p.slot, pair := true })]) else none
      | none => none

/-- A LOG record applied: its grains are written already, and the record follows with the same LSN, VERSION, DIGEST and TAG; its map
entries count once it is durable (R450, R581, R588). -/
def Dev.applyLogRec (d : Dev) (b : List Byte) : Option Dev :=
  let v := leAt b 16 2
  if !logValid v b then none
  else match d.vols.find v with
    | none => none
    | some _ =>
      match (logEntries b).foldl (d.logGrain v) (some []) with
      | none => none
      | some es =>
        let bytes := logRecord (logMove b) (logLsn b) v (leAt b 20 4) (leAt b 24 8) es
        let (d, id) := d.fresh
        match d.logPlace v bytes fun d s lba data => d.storeIssue (d.grainEngine v (16 * leAt b 20 4)) id s lba data with
        | none => none
        | some (d, _, s) => (d.vols.find v).map fun x =>
            let gone := es.map fun e => v * 2 ^ 48 + e.1
            let d : Dev := { d with pair := { d.pair with placed := d.pair.placed.filter fun k _ => decide (k ∉ gone) } }
            (d.setVol v { x with lsn := max x.lsn (logLsn b + 1) }).landAdd id s.members v es

/-- A VOLUME record applied: STATE and BLOCKS of the standby's own volume, a volume created, or deleted, with its event (R470, R580,
R581).
[log 143: DEDUCED] -/
def Dev.applyVolume (d : Dev) (b : List Byte) : Option Dev :=
  let v := vrVol b
  match d.vols.find v with
  | some x =>
    if vrState b = 0xFF then
      let d := (d.freeVol v x).volRecord v x (splice x.rec_ 2 [0xFF])
      some ((({ d with vols := d.vols.erase v } : Dev).mapLayout).blkEvent 0x72 0 0xFF v 0xFF (vrState x.rec_) 0 0 0 0 0xFF)
    else
      let x := { x with map := x.map.filter fun g _ => decide (g < vrBlocks b / 16) }
      let d := (d.volRecord v x (splice (splice x.rec_ 2 (slice b 2 1)) 8 (slice b 8 8))).mapLayout
      some (if vrState b = vrState x.rec_ then d else d.blkEvent 0x72 0 0xFF v (vrState b) (vrState x.rec_) 0 0 0 0 0xFF)
  | none =>
    if vrState b = 0xFF then some d
    else if vrReserved b ∨ !d.membersReady b ∨ d.mapBlocks < d.otherBlocks v + vrBlocks b then none
    else some (((d.volRecord v { rec_ := b, eng := vrEngine b } (splice b 52 (zeros 8))).mapLayout).blkEvent 0x72 0 0xFF v
      (vrState b) 0xFF 0 0 0 0 0xFF)

/-- The key of TRN_COMMIT_AT of a group. -/
def commitAt (g : Nat) : Nat := reg .trn 0 (0x200 + 0x10 * g)

/-- The key of TRN_COMMIT_CTRL of a group. -/
def commitCtrl (g : Nat) : Nat := reg .trn 0 (0x208 + 0x10 * g)

/-- A COMMIT record applied to the shadows; a change of this device's own in the same turn stands where its DEVICE_ID is
the lower (R586). -/
def Dev.applyCommit (d : Dev) (turn : Nat) (b : List Byte) : Dev :=
  let g := byteAt b 0 % 16
  if d.pair.commitOwn.find g = some turn ∧ d.deviceId < d.partnerId then d
  else
    let d := (d.wr64 (commitAt g + 0x8000) (beAt b 4 8)).wrN (commitCtrl g + 0x8000) (beAt b 12 4 % 4)
    { d with pair := { d.pair with commitFrom := d.pair.commitFrom.put g true } }

/-- The image of a TABLE_ENTRY record written at its location in one entry write (R581). -/
def Dev.applyEntry (d : Dev) (b : List Byte) : Option Dev :=
  let t := byteAt b 0
  let c := d.tabCfg t
  let loc := beAt b 4 4
  if t < 16 ∧ (d.table t).state = .ready ∧ c.bucketOf loc < 2 ^ c.log2 ∧ b.length = 8 + c.size then some (d.putEntry t loc (b.drop 8)) else none

/-- An SA record written over bytes 0 to 127 of its SA; the window and what was kept of the SA before are void. -/
def Dev.applySa (d : Dev) (b : List Byte) : Option Dev :=
  let s := beAt b 0 4
  if d.saExists s then
    let d := (d.hbmWrite (d.saAddr s) (slice b 4 128)).hbmWrite (d.rplAddr s) (zeros 512)
    some { d with saLimit := d.saLimit.erase s, saDone := d.saDone.erase s, saTaken := d.saTaken.erase s }
  else none

/-- A record of a mirror frame applied (R578, R581). -/
def Dev.applyRecord (d : Dev) (turn kind : Nat) (b : List Byte) : Dev :=
  let held (g : Option Nat) (f : Option Dev) : Dev := if d.standsBy g then f.getD (d.applyFail g) else d.applyFail g
  let sa := d.groupKind 3
  let store := d.groupKind 2
  match kind with
  | 1 => held (d.groupOf 4 (byteAt b 0)) (d.applyEntry b)
  | 2 => held sa (d.applySa b)
  | 3 => held sa (if d.saExists (beAt b 0 4) then some (d.saPut (beAt b 0 4) 40 (beAt b 4 8)) else none)
  | 4 => held sa (some { d with saHigh := d.saHigh.put (beAt b 0 4) (beAt b 4 8), saHighReq := d.saHighReq.put (beAt b 0 4) (beAt b 4 8) })
  | 5 => held (d.groupOf 4 (byteAt b 1)) (some { d with pair := { d.pair with lrnQueue := d.pair.lrnQueue ++ [b] } })
  | 6 => { d with pair := { d.pair with lrnQueue := d.pair.lrnQueue.drop (beAt b 0 4) } }
  | 7 => d.applyCommit turn b
  | 8 => held store (d.applyVolume b)
  | 9 => held store (d.applyPart b)
  | 10 => held store (d.applyLogRec b)
  | _ => d.bump (prlCount 5)

/-- The records of a mirror frame applied in order. -/
def applyRecords (turn : Nat) : Nat → List Byte → Dev → Dev
  | 0, _, d => d
  | n + 1, b, d =>
    if b.length < 4 then d
    else
      let len := beAt b 2 2
      applyRecords turn n (b.drop (4 + len)) (d.applyRecord turn (byteAt b 0) (slice b 4 len))

/-- The body of a pair-protocol frame. -/
def pairBody (f : List Byte) : List Byte := slice f 36 (beAt f 32 2)

/-- The next mirror frame of a stream taken: its records are applied, and the number after it is expected. -/
def Dev.mirrorTake (d : Dev) (i : Nat) (f : List Byte) : Dev :=
  let b := pairBody f
  let d := applyRecords (beAt f 24 8) (b.length / 4 + 1) b d
  let s := d.pair.stream i
  ({ d with pair := d.pair.setStream i { s with expect := (s.expect + 1) % p32 } } : Dev).bump (prlCount 3)

/-- A mirror frame handled: applied when its number is the next expected, otherwise discarded (R579).  ACK0 moves at once, ACK1 once
what the frame holds is durable (R588). -/
def Dev.mirrorFrame (d : Dev) (f : List Byte) : Dev :=
  let i := byteAt f 18 % 2
  if beAt f 20 4 ≠ (d.pair.stream i).expect then d.bump (prlCount 6)
  else if i = 0 then (d.mirrorTake 0 f).sendAck
  else
    let old := d.ack1
    let d : Dev := { d with pair := { d.pair with landing := d.pair.landing ++ [{ seq := beAt f 20 4 }] } }
    let d := d.mirrorTake 1 f
    let d := landGo d.pair.landing d
    if d.ack1 = old then d else d.sendAck

/-- The first frame received of a type, on either or on one path, and the device without it. -/
def Dev.takeFrame (d : Dev) (type : Nat) (alt : Option Bool) : Option (List Byte × Dev) :=
  (takeFirst (fun x : Bool × List Byte => decide (byteAt x.2 15 = type) && (match alt with | some a => decide (x.1 = a) | none => true))
    d.pair.rx).map fun q => (q.1.2, { d with pair := { d.pair with rx := q.2 } })

/-- MIRROR_FRAME (R579, R581): the oldest mirror frame received. -/
def execMirrorFrame (s : State) : Host.Outcome State Fault Refusal :=
  s.act fun d =>
    match d.takeFrame 2 none with
    | some (f, d) => (d.mirrorFrame f).blkPump
    | none => d

/-! ### Resynchronisation (R582) -/

/-- Valid mirrored SAs, found by the bytes HBM lists in the SA region. -/
def Dev.mirroredSas (d : Dev) : List Nat :=
  let base := d.rd64 (reg .key 0 0x10100)
  let n := if d.saLog = 0 then 0 else 2 ^ d.saLog
  ((d.hbm.keys.filter fun a => base ≤ a ∧ a < base + 256 * n ∧ (a - base) % 256 = 2).map fun a => (a - base) / 256).filter fun s =>
    saFlag (d.saRead s) 0 && saFlag (d.saRead s) 4

/-- Locations of valid entries of a table, found by the bytes HBM lists in its region. -/
def Dev.validLocs (d : Dev) (t : Nat) : List Nat :=
  let c := d.tabCfg t
  let n := 2 ^ c.log2 * 128
  ((d.hbm.keys.filter fun a => c.base ≤ a ∧ a < c.base + n ∧ (a - c.base) % c.size = c.body + 3).map fun a => (a - c.base) / c.size).filter
    fun l => c.valid (d.entryAt c l)

/-- An SA sent to the partner: the record, its reservation or its mark. -/
def Dev.resyncSa (d : Dev) (s : Nat) : Dev :=
  let r := d.saRead s
  let d := d.mirror 0 2 (toBE 4 s ++ r.take 128)
  if saOut r then d.mirror 0 3 (toBE 4 s ++ toBE 8 (saResv r))
  else
    let h := (d.saHigh.find s).getD ((saSeq r + 16384) % p64)
    d.saMarkNow s h

/-- The log records of a volume by LSN. -/
def Vol.records (x : Vol) (v : Nat) : List (List Byte) :=
  sortBy (fun a b => decide (logLsn a ≤ logLsn b)) (x.segs.values.flatMap fun s => s.recs.filter fun b => logValid v b)

/-- The grains of one log record whose entries stand and are not held by the partner, sent with their record. -/
def Dev.resyncRecord (d : Dev) (v : Nat) (b : List Byte) : Dev :=
  match d.vols.find v with
  | none => d
  | some x =>
    let live := (logEntries b).filterMap fun e =>
      let m := x.ent e.1
      if m.mapped && !m.pair && decide (m.version = e.2.version) && decide (m.zero = e.2.zero) then some (e.1, m) else none
    if live = [] then d
    else
      let parts := live.foldl (fun (d : Dev) (e : Nat × MapEnt) => if e.2.zero then d else
        match x.segs.find e.2.seg with
        | some s =>
          let ct := decodeGrain s.pol s.k ((d.mediaFrags s e.2.slot).take s.need)
          (rangeFrom 0 8).foldl (fun d p => d.mirror 1 9 (toBE 2 v ++ [0, 0] ++ toBE 8 e.1 ++ toBE 8 e.2.version ++ [byteN p, 0, 0, 0] ++
            slice ct (8192 * p) 8192)) d
        | none => d) d
      let d := parts.mirror 1 10 (logRecord false (logLsn b) v (leAt b 20 4) (leAt b 24 8) live)
      live.foldl (fun d e => d.pairWait 1 (.grain v e.1)) d

/-- An item of a resynchronisation sent. -/
def Dev.resyncSend (d : Dev) : ResyncItem → Dev
  | .vol v => match d.vols.find v with
    | some x => (d.setVol v { x with wroteAlone := false }).mirror 1 8 (slice x.rec_ 0 64)
    | none => d
  | .log v b => d.resyncRecord v b
  | .sa s => d.resyncSa s
  | .entry t l => d.mirror 0 1 (byteN t :: zeros 3 ++ toBE 4 l ++ d.entryAt (d.tabCfg t) l)

/-- Items sent while the retransmission region has room (R579). -/
def resyncGo : List ResyncItem → Dev → Dev
  | [], d => d
  | i :: r, d =>
    if d.pairFull then { d.mirrorStall with pair := { d.mirrorStall.pair with resync := i :: r } } else resyncGo r (d.resyncSend i)

/-- A resynchronisation goes on. -/
def Dev.resyncPump (d : Dev) : Dev := resyncGo d.pair.resync { d with pair := { d.pair with resync := [] } }

/-- What a group covers, as a resynchronisation sends it (R582). -/
def Dev.resyncItems (d : Dev) (g : Nat) : List ResyncItem :=
  match d.groupKindOf g with
  | 2 => (d.vols.cells.filter fun c => vrPair c.2.rec_).flatMap fun c => .vol c.1 :: (c.2.records c.1).map (.log c.1)
  | 3 => d.mirroredSas.map .sa
  | 4 => ((rangeFrom 0 16).filter fun t => bitOf (d.groupCfg g) (16 + t)).flatMap fun t => (d.validLocs t).map (.entry t)
  | _ => []

/-- Everything a group covers sent to the partner (R582), as the retransmission region has room. -/
def Dev.resyncGroup (d : Dev) (g : Nat) : Dev :=
  ({ d with pair := { d.pair with resync := d.pair.resync ++ d.resyncItems g } } : Dev).resyncPump

/-! ### Acknowledgements (R577, R579, R590) -/

/-- The acknowledgements that an ACK or a heartbeat carries: what they make room for goes on, and received frames that waited for a
mark are verified. -/
def Dev.ackBoth (d : Dev) (body : List Byte) : Dev :=
  let d := ((d.ackStream 0 (beAt body 8 4)).ackStream 1 (beAt body 12 4)).resyncPump
  ((rangeFrom 0 4).foldl Dev.secResume d).blkPump

/-- The frames of a stream that the number `n` acknowledges. -/
def Dev.ackNews (d : Dev) (i n : Nat) : Bool :=
  (d.pair.stream i).unacked.any fun f => decide (sub32 n f.1 ≠ 0 ∧ sub32 n f.1 < 2147483648)

/-- An ACK frame that moves neither number acknowledges the oldest ROLE frame sent (R590). [log 230: DEDUCED] -/
def Dev.orderAck (d : Dev) (body : List Byte) : Dev :=
  if d.ackNews 0 (beAt body 8 4) || d.ackNews 1 (beAt body 12 4) then d
  else
    match takeFirst (fun o : RoleOrder => o.own && !o.acked) d.pair.orders with
    | some (o, rest) => { d with pair := { d.pair with orders := rest ++ [{ o with acked := true }] } }
    | none => d

/-- ACK (R577, R579, R590): an ACK frame received. -/
def execAck (alt : Bool) (s : State) : Host.Outcome State Fault Refusal :=
  s.act fun d =>
    match d.takeFrame 3 (some alt) with
    | some (f, d) =>
      (d.orderAck (pairBody f)).ackBoth (pairBody f)
    | none => d

/-! ### Streams restarted (R582) -/

/-- A stream with nothing unacknowledged goes on from the number the partner expects. [log 142: DEDUCED] -/
def Dev.pairRestart (d : Dev) (i n : Nat) : Dev :=
  let s := d.pair.stream i
  if s.unacked = [] then { d with pair := d.pair.setStream i { s with next := n } } else d

/-! ### Heartbeats (R577, R582, R591) -/

/-- A group both devices serve (R591): the device with the lower DEVICE_ID keeps it. [log 141: DEDUCED] -/
def Dev.split (d : Dev) (g : Nat) (own : Role) (body : List Byte) : Dev :=
  if d.deviceId < d.partnerId then
    if own = .alone then (((d.pairRestart 0 (beAt body 8 4)).pairRestart 1 (beAt body 12 4)).setRole g .active).resyncGroup g else d
  else
    let d := (d.setRole g .stale).prlEvent 0x93 g 1 own.code false
    let d := d.raise .prl 0 0 11
    if d.groupKindOf g = 2 then d.vols.keys.foldl (fun d v => match d.vols.find v with
      | some x =>
        if vrPair x.rec_ && x.wroteAlone then
          let old := vrState x.rec_
          (d.volRecord v { x with quiescing := false, wroteAlone := false } (splice x.rec_ 2 [3])).blkEvent 0x72 0 0xFF v 3 old 0 0 0 0 0xFF
        else d
      | none => d) d
    else d

/-- Every resynchronisation frame of a group has been taken, as far as the standby can tell (R582): the partner has been ACTIVE in it,
and no mirror frame has come, for longer than the partner lets a frame go unacknowledged before it sends it again, and nothing waits
to be applied or to be durable. [log 140: DEDUCED] -/
def Dev.resynced (d : Dev) (g : Nat) : Bool :=
  decide (max d.pair.mirrorAt (d.pair.activeAt.getD g 0) + d.fld (reg .prl 0 0x110) 0 8 < d.bounds) &&
    decide (d.pair.landing = []) && d.pair.rx.all fun x => decide (byteAt x.2 15 ≠ 2)

/-- What a group does on hearing the partner's role of it (R580, R582, R591). [log 140, 144: DEDUCED] -/
def Dev.hearGroup (turn : Nat) (body : List Byte) (d : Dev) (g : Nat) : Dev :=
  let b := byteAt body g
  let kind := d.groupKindOf g
  let was := d.pair.partner.getD g 64
  let d : Dev := { d with pair := { d.pair with
    partner := d.pair.partner.set g b 64,
    activeAt := if b % 8 = 3 ∧ was % 8 ≠ 3 then d.pair.activeAt.put g d.bounds else d.pair.activeAt } }
  let r := d.role g
  let pr := b % 8
  if kind = 0 ∨ r = .off then d
  else if b / 8 % 8 ≠ kind then if was = b then d else d.prlEvent 0x94 g r.code r.code false
  else if turn < d.pair.roleTurn.getD g 0 then d
  else match r with
    | .alone =>
      if pr = 1 then
        let d := (d.pairRestart 0 (beAt body 8 4)).pairRestart 1 (beAt body 12 4)
        (d.setRole g .active).resyncGroup g
      else if pr = 3 ∨ pr = 4 then d.split g r body
      else d
    | .active => if pr = 3 ∨ pr = 4 then d.split g r body else d
    | .stale => if pr = 3 ∧ d.resynced g then d.setRole g .standby else d
    | _ => d

/-- A heartbeat taken: what it acknowledges, and the roles it tells, group by group. -/
def Dev.heartbeatTake (d : Dev) (f : List Byte) : Dev :=
  let b := pairBody f
  ((rangeFrom 0 8).foldl (Dev.hearGroup (beAt f 24 8) b) ((d.bump (prlCount 1)).ackBoth b)).blkPump

/-- HEARTBEAT (R577, R580, R582, R591): a heartbeat received. -/
def execHeartbeat (alt : Bool) (s : State) : Host.Outcome State Fault Refusal :=
  s.act fun d =>
    match d.takeFrame 1 (some alt) with
    | some (f, d) =>
      d.heartbeatTake f
    | none => d

/-- A heartbeat sent at a boundary on the pair link, and by the control cores on the alternate path where that is enabled (R583,
R612). -/
def Dev.sendHeartbeat (d : Dev) : Dev :=
  let body := ((rangeFrom 0 8).map fun g => byteN ((d.role g).code + 8 * d.groupKindOf g)) ++ d.ackBody
  if !d.bit (reg .prl 0 0x100) 0 ∨ !d.accepts .prl 0 then d
  else
    let d := if d.pairUp then (d.pairSend 1 0 0 0 body).bump (prlCount 0) else d
    let alt := d.rdN (reg .prl 0 0x10C)
    if bitOf alt 31 && !d.coresDead then
      let f := d.pairFrame (macAddr (bitsOf alt 0 2)) 1 0 4 0 body
      let (d, id) := d.fresh
      (d.sendLater { id := id, data := f, src := 8, cells := cellsFor f.length }).bump (prlCount 0)
    else d

/-! ### Loss and takeover (R582 to R585) -/

/-- Boundaries without a frame after which the partner is lost (R583). -/
def Dev.lossBounds (d : Dev) : Nat :=
  match d.fld (reg .trn 0 0x100) 0 3 with
  | 0 => 16
  | 1 => 16
  | 2 => 8
  | 3 => 4
  | _ => 2

/-- No frame has come on a path for the loss time. [log 139: DEDUCED] -/
def Dev.silent (d : Dev) (h : Option Nat) : Bool := decide (h.getD 0 + d.lossBounds ≤ d.bounds)

/-- The takeover of a group of SAs (R584 step 3, R589). -/
def Dev.takeSa (d : Dev) (s : Nat) : Dev :=
  let r := d.saRead s
  if saOut r then ({ d with saLimit := d.saLimit.erase s } : Dev).saPut s 32 (saResv r) |>.saReserve s
  else { d with saTaken := d.saTaken.put s true }

/-- What a group does on becoming the serving one (R402, R584), by KIND; a wide volume stays in service only with every engine
(R39).  An order's SWITCH has these steps too. [log 205: DEDUCED] -/
def Dev.takeGroup (d : Dev) (g : Nat) : Dev :=
  match d.groupKindOf g with
  | 2 => d.vols.keys.foldl (fun d v => match d.vols.find v with
      | some x =>
        let st := vrState x.rec_
        if vrPair x.rec_ then
          let d := d.blkEvent 0x72 0 0xFF v st (if st = 0 ∨ st = 4 then 1 else st) 0 0 0 0 0xFF
          if vrWide x.rec_ && !d.enginesAll && decide (st = 0 ∨ st = 1 ∨ st = 4) then d.volTo v x 2 else d
        else d
      | none => d) d
  | 3 => d.mirroredSas.foldl Dev.takeSa d
  | 4 =>
    let mine := d.pair.lrnQueue.filter fun b => bitOf (d.groupCfg g) (16 + byteAt b 1 % 16)
    { d with pair := { d.pair with lrnQueue := d.pair.lrnQueue.filter fun b => decide (b ∉ mine) },
             lrn := { d.lrn with queue := (mine.map fun b => { bytes := b, turn := d.bounds }) ++ d.lrn.queue } }
  | _ => d

/-- The takeover of one group: the sweeper's ages begin anew for TABLES (R584). -/
def Dev.takeoverGroup (d : Dev) (g : Nat) : Dev :=
  let d := (d.setRole g .alone).takeGroup g
  if d.groupKindOf g = 4 then { d with pair := { d.pair with takeover := d.pair.takeover.put g d.turn } } else d

/-- The groups of a list in the order of R584: NET, SA, TABLES, STORE. -/
def Dev.takeOrder (d : Dev) (gs : List Nat) : List Nat :=
  [1, 3, 4, 2].flatMap fun k => gs.filter fun g => d.groupKindOf g = k

/-- What the standby has taken of its partner's writes takes effect, durable or not; grains without a log record go (R584, R585).
[log 229: DEDUCED] -/
def Dev.landAll (d : Dev) : Dev :=
  let d := d.pair.landing.foldl Dev.landApply d
  { d with pair := { d.pair with landing := [], parts := {}, placed := {} } }

/-- The takeover of groups (R584): what was received is applied, then each group serves. -/
def Dev.takeover (d : Dev) (gs : List Nat) : Dev :=
  if gs = [] then d
  else
    let fs := d.pair.rx.filter fun x => decide (byteAt x.2 15 = 2)
    let d : Dev := { d with pair := { d.pair with rx := d.pair.rx.filter fun x => decide (byteAt x.2 15 ≠ 2) } }
    let d := (fs.foldl (fun d f => d.mirrorFrame f.2) d).landAll
    let d := (d.takeOrder gs).foldl Dev.takeoverGroup d
    (d.bump (prlCount 7)).blkPump

/-- The partner is lost (R582, R583). -/
def Dev.partnerLost (d : Dev) : Dev :=
  let d : Dev := { d with pair := { d.pair with lost := true } }
  let d := (d.raise .prl 0 0 10).prlEvent 0x91 0xFF 0 0 false
  let gs := rangeFrom 0 8
  let act := gs.filter fun g => d.role g = .active
  let stand := gs.filter fun g => d.role g = .standby
  let held := stand.filter fun g => bitOf (d.groupCfg g) 4 && decide (d.partnerId < d.deviceId)
  let d := act.foldl (fun d g => d.setRole g .alone) d
  let d := d.pairRelease.takeover (stand.filter fun g => decide (g ∉ held))
  (held.foldl (fun d g => d.setRole g .stale) d).blkPump

/-- PARTNER_LOST (R583). -/
def execPartnerLost (s : State) : Host.Outcome State Fault Refusal :=
  s.act fun d =>
    if d.bit (reg .prl 0 0x100) 0 && !d.pair.lost && d.silent d.pair.heard && d.silent d.pair.heardAlt then d.partnerLost else d

/-- The pair link is silent while the partner is alive: ACTIVE groups go ALONE, STANDBY ones STALE (R582, R583). -/
def Dev.pairCut (d : Dev) : Dev :=
  let gs := rangeFrom 0 8
  let act := gs.filter fun g => d.role g = .active
  let stand := gs.filter fun g => d.role g = .standby
  let d := act.foldl (fun d g => d.setRole g .alone) d
  let d := if act = [] then d else d.pairRelease
  (stand.foldl (fun d g => d.setRole g .stale) d).blkPump

/-- PAIR_LINK_FRAMES_LOST (R582, R583): the pair link is silent while alternate heartbeats still arrive. -/
def execPairLinkFramesLost (s : State) : Host.Outcome State Fault Refusal :=
  s.act fun d =>
    if d.bit (reg .prl 0 0x100) 0 && d.silent d.pair.heard && !d.silent d.pair.heardAlt then d.pairCut else d

/-- The unacknowledged frames of stream `i` sent again as they were kept but for RETRANS, so with the TURN of their first sending,
which R586 judges by, and its wait begun anew. [log 231: DEDUCED] -/
def Dev.pairResend (d : Dev) (i : Nat) : Dev :=
  let d := (d.pair.stream i).unacked.foldl (fun d f => (d.pairEmit (splice f.2 19 [byteN (byteAt f.2 19 ||| 1)])).bump (prlCount 4)) d
  { d with pair := d.pair.setStream i { d.pair.stream i with ackTurn := d.bounds } }

/-- RETRANSMIT (R579): the unacknowledged frames of a stream are sent again. -/
def execRetransmit (stream : Nat) (s : State) : Host.Outcome State Fault Refusal :=
  s.act fun d =>
    let i := stream % 2
    let q := d.pair.stream i
    if q.unacked ≠ [] ∧ q.ackTurn + d.fld (reg .prl 0 0x110) 0 8 ≤ d.bounds then d.pairResend i else d

/-! ### Orders (R45, R590) -/

/-- A SWITCH order of the partner, taken and acknowledged; of two orders of one turn for one group that of the device with
the lower DEVICE_ID stands (R45, R590). -/
def Dev.orderTake (d : Dev) (f : List Byte) : Dev :=
  let b := pairBody f
  let g := byteAt b 0 % 8
  let rival := d.pair.orders.any fun o => o.own && decide (o.group = g ∧ o.turn = beAt f 24 8)
  if rival && decide (d.deviceId < d.partnerId) then d
  else
    let d := if rival then (d.wrN (reg .prl 0 0x138) 0x05) else d
    let keep := d.pair.orders.filter fun o => !(rival && o.own && decide (o.group = g))
    ({ d with pair := { d.pair with orders := keep ++ [{ group := g, at_ := beAt b 2 8, acked := true, own := false, turn := beAt f 24 8 }] } } : Dev).sendAck

/-- ROLE (R45, R577, R590): a ROLE frame received; a SWITCH order is taken and acknowledged. -/
def execRole (alt : Bool) (s : State) : Host.Outcome State Fault Refusal :=
  s.act fun d =>
    match d.takeFrame 4 (some alt) with
    | some (f, d) =>
      if byteAt (pairBody f) 1 ≠ 1 then d else d.orderTake f
    | none => d

/-- The SWITCH orders that are due at a boundary; one whose group is neither ACTIVE nor STANDBY any more is refused (R582, R590). -/
def Dev.switchDue (d : Dev) : Dev :=
  let due := d.pair.orders.filter fun o => o.acked && decide (o.at_ ≤ d.turn)
  let d : Dev := { d with pair := { d.pair with orders := d.pair.orders.filter fun o => !(o.acked && decide (o.at_ ≤ d.turn)) } }
  due.foldl (fun d o =>
    let late := decide (o.at_ < d.turn)
    let told (d : Dev) (st : Nat) : Dev := if o.own then d.wrN (reg .prl 0 0x138) st else d
    match d.role o.group with
    | .active => (told d 0).setRole o.group .standby late
    | .standby => ((told d 0).setRole o.group .active late).takeGroup o.group
    | _ => told d 0x05) d

/-- A write of PRL_ROLE_CMD (R590). -/
def roleCmdW (d : Dev) (t : Tgt) : Dev :=
  let g := bitsOf t.acc.data 0 3
  let ord := bitsOf t.acc.data 4 2
  let res := reg .prl 0 0x138
  let pr := d.pair.partner.getD g 64 % 8
  match ord with
  | 1 =>
    let rival := d.pair.orders.any fun o => !o.own && decide (o.group = g ∧ o.turn = d.turn)
    if rival && decide (d.partnerId < d.deviceId) then d.wrN res 0x05
    else if (d.role g = .active ∧ pr = 2) ∨ (d.role g = .standby ∧ pr = 3) then
      let d : Dev := { d with pair := { d.pair with orders := d.pair.orders.filter fun o => !(!o.own && decide (o.group = g ∧ o.turn = d.turn)) } }
      let at_ := d.rd64 (reg .prl 0 0x130)
      let d : Dev := { d with pair := { d.pair with
        orders := d.pair.orders ++ [{ group := g, at_ := at_, acked := false, own := true, turn := d.turn }] } }
      (d.pairSend 4 0 0 0 ([byteN g, 1] ++ toBE 8 at_)).wrN res 0x100
    else d.wrN res 0x05
  | 2 => if d.pair.lost ∧ d.role g = .stale then (d.takeover [g]).wrN res 0 else d.wrN res 0x05
  | _ => d.refuse t 0x0001

/-- SWITCH (R590): a write of PRL_ROLE_CMD with ORDER 1. -/
def execSwitchRole (pt : Party) (v : BitVec 32) (s : State) : Host.Outcome State Fault Refusal :=
  s.act fun d => d.ownWrite pt (reg .prl 0 0x128) 4 (putBits v.toNat 4 2 1) fun d t => roleCmdW d t

/-- FORCE (R590): a write of PRL_ROLE_CMD with ORDER 2. -/
def execForceRole (pt : Party) (v : BitVec 32) (s : State) : Host.Outcome State Fault Refusal :=
  s.act fun d => d.ownWrite pt (reg .prl 0 0x128) 4 (putBits v.toNat 4 2 2) fun d t => roleCmdW d t

/-- A configuration of group `g` that breaks the limits of R580. -/
def Dev.groupBad (d : Dev) (g v : Nat) : Bool :=
  let k := bitsOf v 0 3
  let others := (rangeFrom 0 8).filter fun h => decide (h ≠ g)
  decide (4 < k) || (decide (k = 2 ∨ k = 3) && others.any fun h => decide (d.groupKindOf h = k)) ||
    (decide (k = 1 ∨ k = 4) && others.any fun h =>
      decide (d.groupKindOf h = k) && decide (bitsOf (d.groupCfg h) 16 (if k = 1 then 4 else 16) &&& bitsOf v 16 (if k = 1 then 4 else 16) ≠ 0))

/-- A write of PRL_GROUP_CFG (R580, R582). -/
def groupCfgW (d : Dev) (t : Tgt) (g : Nat) : Dev :=
  let v := t.acc.data
  let k := bitsOf v 0 3
  if d.role g ≠ .off then
    if k = 0 then (((d.setRole g .off).store t).volsServed).blkPump else d.refuse t 0x1101
  else if d.groupBad g v then d.refuse t 0x0001
  else
    let d := d.store t
    if k = 0 then d else d.setRole g (if bitOf v 3 then .alone else .stale)

/-- GROUP_KIND_WRITE (R580, R582): a write of PRL_GROUP_CFG. -/
def execGroupKindWrite (pt : Party) (g : Nat) (v : BitVec 32) (s : State) : Host.Outcome State Fault Refusal :=
  s.act fun d => d.ownWrite pt (reg .prl 0 (0x140 + 4 * g)) 4 v.toNat fun d t => groupCfgW d t g

end Sys2Proof.Machine
end

