-- ==== Sys2Proof/Machine/HostLink.lean ====
section
/-! DEFINITION. The host links: bus master enable, completion errors, the aperture, configuration, links and resets (R512 to
R538). -/

namespace Sys2Proof.Machine

/-! ### What a function has -/

/-- Rings of a function that are not OFF, or hold something. -/
def Dev.ringsOf (d : Dev) (f : Func) : List Nat := d.rings.keys.filter fun r => decide (d.ringFunc r = f)

/-- Every ring of a function of which something is not at its reset value. -/
def Dev.ringsTouched (d : Dev) (f : Func) : List Nat :=
  let ctx := (d.regs.keys.filter fun k => decide (0x100000000 ≤ k ∧ k < 0x200000000)).map fun k => (k - 0x100000000) / 0x40
  ((d.rings.keys ++ ctx).filter fun r => decide (d.ringFunc r = f)).eraseDups

/-- Queues of a function that are not OFF, or hold something. -/
def Dev.queuesOf (d : Dev) (f : Func) : List Nat := d.queues.keys.filter fun q => decide (d.queueFunc q = f)

/-- A function has work outstanding. -/
def Dev.fnBusy (d : Dev) (f : Func) : Bool :=
  ((d.ringsOf f).any fun r => let s := d.ring r; s.work ≠ [] || decide (s.owed ≠ 0) || s.stash ≠ [] || s.held ≠ []) ||
    d.qcmds.any fun c => decide (c.func = f ∧ c.end_ = .complete)

/-- Frames waiting for an RX ring discarded (R164). -/
def Dev.rxFlush (d : Dev) (r : Nat) : Dev :=
  let s := d.ring r
  s.rx.foldl (fun d w => d.rxDiscard r w) (d.setRing r { s with rx := [] })

/-! ### Bus master enable (R523 to R526) -/

/-- A ring enters HALT_BME. -/
def Dev.ringHalt (d : Dev) (r : Nat) : Dev :=
  let d := d.rxFlush r
  let s := d.ring r
  match s.state with
  | .active => d.setRing r { s with state := .haltActive }
  | .draining => d.setRing r { s with state := .haltDraining }
  | _ => d

/-- A queue enters HALT_BME. -/
def Dev.queueHalt (d : Dev) (q : Nat) : Dev :=
  let s := d.queue q
  match s.state with
  | .active => d.setQueue q { s with state := .haltActive }
  | .quiescing => d.setQueue q { s with state := .haltQuiescing }
  | _ => d

/-- Bus Master Enable of a function set or cleared. -/
def Dev.setBme (d : Dev) (f : Func) (on : Bool) : Dev := { d with bme := d.bme.set (fkey f) on false }

/-- The boot has ended: configuration requests are answered (R534, R599). -/
def Dev.booted (d : Dev) : Bool := decide (d.fld (reg .fwc 0 0x100) 0 2 ≠ 0)

/-- A configuration request to a link: its effect, or Request Retry Status until the device has initialised; the link answers
nothing without an accepted reference or in reset (R534, R642). -/
def Dev.config (d : Dev) (k : Nat) (f : Dev → Dev) : Dev :=
  if !d.refUp || (d.link k).inReset then d
  else if (d.link k).ready then f d
  else d.emit (.linkMsg k "RETRY" [])

/-- Bus Master Enable of a function cleared: its reads end, its rings and queues halt (R523, R524, R526).
[log 129: DEDUCED] -/
def Dev.bmeOff (d : Dev) (f : Func) : Dev :=
  let busy := d.fnBusy f
  let d := d.setBme f false
  let gone := d.reads.filter fun h => decide (h.func = f) && h.sent
  let d : Dev := { d with reads := d.reads.filter fun h => !(decide (h.func = f) && h.sent) }
  let d := (d.ringsOf f).foldl Dev.ringHalt d
  let d := (d.queuesOf f).foldl Dev.queueHalt d
  let d := gone.foldl (fun d h => match h.use with
    | .slots _ => d
    | _ => d.readFailed h 0x08) d
  (if busy then d.raise .hif f.link 0 11 else d).blkPump.invalSettle f.link

/-- BME_CLEAR (R523, R524, R526). -/
def execBmeClear (f : Func) (s : State) : Host.Outcome State Fault Refusal :=
  s.act fun d => d.config f.link fun d => if !d.fnExists f then d else if d.master f then d.bmeOff f else d.setBme f false

/-- A ring leaves HALT_BME. -/
def Dev.ringUnhalt (d : Dev) (r : Nat) : Dev :=
  let s := d.ring r
  match s.state with
  | .haltActive => d.setRing r { s with state := .active }
  | .haltDraining => d.setRing r { s with state := .draining }
  | _ => d

/-- A queue leaves HALT_BME; what was accepted for a QUIESCING one is aborted (R499). -/
def Dev.queueUnhalt (d : Dev) (q : Nat) : Dev :=
  let s := d.queue q
  match s.state with
  | .haltActive => d.setQueue q { s with state := .active }
  | .haltQuiescing => (d.setQueue q { s with state := .quiescing }).abortWaiting q 0x07
  | _ => d

/-- Pending messages of a function that nothing masks sent, in ascending vector order (R63, R525). -/
def Dev.msixFlush (d : Dev) (f : Func) : Dev :=
  (d.msix.cells.filter fun c => decide (c.1 / 2048 = fkey f) && c.2.pending && c.2.unmasked).foldl (fun d c =>
    if d.msixFn.getD (fkey f) false && d.master f && (d.link f.link).up then
      ({ d with msix := d.msix.set c.1 { c.2 with pending := false } {} } : Dev).emit (.msix f (c.1 % 2048))
    else d) d

/-- Reads of a function that could not be sent go out. -/
def Dev.sendReads (d : Dev) (f : Func) : Dev :=
  let go := d.reads.filter fun h => decide (h.func = f) && !h.sent
  go.foldl (fun d h =>
    let (d, h) := d.readOut h
    { d with reads := d.reads.map fun x => if x.id = h.id then h else x }) d

/-- Bus Master Enable of a function set: its rings leave HALT_BME and every held completion is written; then the write-backs;
then the messages, those of the rings among the pending ones, in ascending vector order; its queues go on (R525). -/
def Dev.bmeOn (d : Dev) (f : Func) : Dev :=
  let rs := (d.ringsOf f).filter fun r => (d.ring r).state = .haltActive ∨ (d.ring r).state = .haltDraining
  let d := rs.foldl Dev.ringUnhalt (d.setBme f true)
  let d := (rs.foldl Dev.ringRelease d).qrnFlush f Dev.cplPut
  let d := rs.foldl Dev.writeBack d
  let d := ((rs.foldl Dev.ringNotify (d.setBme f false)).setBme f true).msixFlush f
  let d := (d.queuesOf f).foldl Dev.queueUnhalt d
  (d.sendReads f).fetchKick

/-- BME_SET (R525). -/
def execBmeSet (f : Func) (s : State) : Host.Outcome State Fault Refusal :=
  s.act fun d => d.config f.link fun d =>
    if !d.fnExists f || d.master f then d else if d.awake f then d.bmeOn f else d.setBme f true

/-! ### Completion timeout and errors (R527 to R531) -/

/-- A counter of a HIF page (R537). -/
def hifCount (k x : Nat) : Nat := reg .hif k (0x200 + x)

/-- COMPLETION_TIMEOUT (R528). -/
def execCompletionTimeout (id : Nat) (s : State) : Host.Outcome State Fault Refusal :=
  s.act fun d =>
    match d.takeRead id with
    | some (h, d) =>
      let k := h.func.link
      let d : Dev := { d with late := d.late.put id (fkey h.func) }
      let d := ((d.bump (hifCount k 0)).raise .hif k 0 12).aerReport h.func 14 (d.aerAdvisory h.func 14)
      d.readOver h fun d => (d.readFailed h 0x09).blkPump
    | none => d

/-- LATE_COMPLETION (R528): a completion for a read that timed out is discarded. -/
def execLateCompletion (id : Nat) (s : State) : Host.Outcome State Fault Refusal :=
  s.act fun d =>
    match d.late.find id with
    | some k =>
      (({ d with late := d.late.erase id } : Dev).bump (hifCount (fkeyFunc k).link 8)).aerReport (fkeyFunc k) 16 true
    | none => d

/-- The read of a completion without good data, and the AER error it is reported as: Poisoned TLP Received, or the completion
status received (R529). -/
def badCpl : BadCpl → Nat × Nat
  | .poisoned id => (id, 12)
  | .unsupported id => (id, 20)
  | .aborted id => (id, 15)

/-- POISONED_COMPLETION (R529): a completion with poisoned data, or with Unsupported Request or Completer Abort status. -/
def execPoisonedCompletion (c : BadCpl) (s : State) : Host.Outcome State Fault Refusal :=
  s.act fun d =>
    match d.takeRead (badCpl c).1 with
    | some (h, d) =>
      let k := h.func.link
      let d := (d.bump (hifCount k 0x10)).aerReport h.func (badCpl c).2 true
      d.readOver h fun d => (d.readFailed h 0x0A).blkPump
    | none => d

/-- INVALIDATE_REQUEST (R531): it completes once no read of the function reaches the page any more. -/
def execInvalidateRequest (f : Func) (itag addr : Nat) (s : State) : Host.Outcome State Fault Refusal :=
  s.onDev fun d =>
    if d.bit (reg .hif f.link 0x100) 8 then
      let l := d.link f.link
      (d.setLink f.link { l with invals := l.invals ++ [(f, itag, addr)] }).invalSettle f.link
    else d.emit (.unsupported f.link)

/-! ### Requests of the host (R513, R518 to R520, R522, R527) -/

/-- The size of the aperture of a link: HIF_CFG.APT_SIZE. -/
def Dev.aptSize (d : Dev) (k : Nat) : Nat :=
  match d.fld (reg .hif k 0x100) 6 2 with
  | 1 => 0x10000000
  | 2 => 0x40000000
  | _ => 0

/-- The sizes of PF0's three BARs (R519). -/
def Dev.barSize (d : Dev) (k i : Nat) : Nat := match i with
  | 0 => 0x10000000
  | 1 => 0x800000
  | _ => d.aptSize k

/-- The sizes of the VF BARs, of one VF (R519). -/
def vfBarSize (i : Nat) : Nat := if i < 2 then 0x10000 else 0

/-- Dword `i` of a set of 64-bit BARs with sizes `size` after a write: the bits below the size stay zero, and so does an absent
BAR (R519). -/
def barWrite (size : Nat → Nat) (m : NMap Nat) (i v : Nat) : NMap Nat :=
  let n := size (i / 2)
  if n = 0 then m else m.set i (if i % 2 = 0 then v / n * n else v) 0

/-- The base of BAR `i` of a set. -/
def barBase (m : NMap Nat) (i : Nat) : Nat := m.getD (2 * i) 0 + p32 * m.getD (2 * i + 1) 0

/-- Where a memory address on a link leads: a function, its BAR and the offset in it; VF n's BARs lie at the VF BAR base +
(n − 1) × 64 KiB (R519, R520). -/
def Dev.route (d : Dev) (k a : Nat) : Option (Func × Nat × Nat) :=
  let l := d.link k
  let pf := (rangeFrom 0 3).find? fun i => l.memOn && d.awake (pf0 k) && decide (barBase l.bar i ≤ a ∧ a < barBase l.bar i + d.barSize k i)
  match pf with
  | some i => some (pf0 k, 2 * i, a - barBase l.bar i)
  | none =>
    match (rangeFrom 0 2).find? fun i => l.vfMemOn && l.vfEnable &&
        decide (barBase l.vfBar i ≤ a ∧ a < barBase l.vfBar i + l.numVfs * 0x10000) with
    | some i => some (⟨k, (a - barBase l.vfBar i) / 0x10000 + 1⟩, 2 * i, (a - barBase l.vfBar i) % 0x10000)
    | none => none

/-- UNSUPPORTED_REQUEST (R513): an inbound request of a kind no link supports, or a memory request that hits no BAR. -/
def execUnsupportedRequest (q : Inbound) (s : State) : Host.Outcome State Fault Refusal :=
  s.onDev fun d => match q with
    | .atomicOp k | .io k | .type1 k => d.emit (.unsupported k)
    | .memory k a => if (d.route k a).isSome then d else d.emit (.unsupported k)

/-- The Completion Timeout Values the device takes (R527). -/
def timeoutOk (v : Nat) : Bool := decide (v ∈ [0, 1, 2, 5, 6, 9, 10, 13, 14])

/-- The completion timeout of a function, in microseconds (R527). -/
def Dev.readTimeout (d : Dev) (f : Func) : Nat :=
  match d.devCtl2.getD (fkey f) 0 % 16 with
  | 1 => 80
  | 2 => 8000
  | 6 => 200000
  | 9 => 800000
  | 10 => 3000000
  | 13 => 12000000
  | 14 => 60000000
  | _ => 50000

/-- Device Control after a write: the fields of R513 and R514; Max_Payload_Size stays where the value is above 512 B, and
Max_Read_Request_Size where it is above 4,096 B. [log 202: PRESUMED] -/
def controlWrite (old v : Nat) : Nat :=
  let v := putBits v 5 3 (if bitsOf v 5 3 ≤ 2 then bitsOf v 5 3 else bitsOf old 5 3)
  let v := putBits v 12 3 (if bitsOf v 12 3 ≤ 5 then bitsOf v 12 3 else bitsOf old 12 3)
  v &&& 0x71FF

/-- An 8 B access of the aperture to HBM address `a` is refused (R522). [log 133: DEDUCED] -/
def Dev.aptDenied (d : Dev) (k a : Nat) (write : Bool) : Bool :=
  let b := d.rd64 (reg .key 0 0x108)
  (d.keyEn && decide (b < a + 8 ∧ a < b + 0x10000000)) || decide (hbmSize < a + 8) || (write && decide (d.primary ≠ k))

/-- APERTURE_ACCESS (R250, R522): an 8 B access to BAR4/5 of a link, with the data of a write. -/
def execApertureAccess (link off : Nat) (data : Option (BitVec 64)) (s : State) : Host.Outcome State Fault Refusal :=
  s.onDev fun d =>
    let x := off / 8 * 8
    let a := d.rd64 (reg .hif link 0x108) + x
    if d.aptSize link ≤ x then d.emit (.unsupported link)
    else match data with
      | none =>
        if d.aptDenied link a false then (d.bump (hifCount link 0x20)).emit (.hostData link 0)
        else d.emit (.hostData link (BitVec.ofNat 64 (leNat (d.hbmRead a 8))))
      | some v => if d.aptDenied link a true then d.bump (hifCount link 0x20) else d.hbmWrite a (toLE 8 v.toNat)

/-- A configuration write refused, logged in the HIF page (R518). [log 132: DEDUCED] -/
def Dev.configBad (d : Dev) (link v : Nat) : Dev :=
  d.logRaw (pageOf .hif link 0) 0x0001 (1 + link + 0x10000000 * link) 0 v 0

/-- A write of Device Control 2: the Completion Timeout Value where the device takes it, and 10-Bit Tag Requester Enable of PF0
(R513, R527). -/
def Dev.control2Write (d : Dev) (f : Func) (n : Nat) : Dev :=
  let old := d.devCtl2.getD (fkey f) 0
  let v := if timeoutOk (n % 16) then n % 16 else old % 16
  { d with devCtl2 := d.devCtl2.set (fkey f) (v + if f.num = 0 then 4096 * bitsOf n 12 1 else 0) 0 }

/-- The PowerState of a function written: D0 and D3hot only; in D3hot it halts as with Bus Master Enable cleared (R517).
[log 220: PRESUMED] -/
def Dev.powerWrite (d : Dev) (f : Func) (n : Nat) : Dev :=
  if n % 4 = 3 then (if d.master f then (d.bmeOff f).setBme f true else d).setCap f 0x44 0xB
  else if n % 4 = 0 ∧ d.awake f = false then
    let d := d.setCap f 0x44 8
    if d.master f then d.bmeOn f else d
  else d

/-- A write to a dword of the capabilities of a function (R513, R517). -/
def Dev.capW (d : Dev) (f : Func) (off n : Nat) : Dev :=
  if off = 0x44 then d.powerWrite f n
  else if off = 0x50 then
    (({ d.capWrite f off n with msixFn := d.msixFn.set (fkey f) (bitOf n 31 && !bitOf n 30) false } : Dev)).msixFlush f
  else d.capWrite f off n

/-- CONFIG_WRITE (R513, R514, R517 to R519, R527): a write to a register of configuration space. -/
def execConfigWrite (link : Nat) (reg : CfgReg) (v : BitVec 32) (s : State) : Host.Outcome State Fault Refusal :=
  s.act fun d => d.config link fun d =>
    let l := d.link link
    let n := v.toNat
    match reg with
    | .numVfs =>
      let n := n % 65536
      if 2048 < n ∨ (l.vfEnable ∧ n ≠ l.numVfs) then d.configBad link n else d.setLink link { l with numVfs := n }
    | .pageSize => if n ∈ [0, 1, 2, 4, 8, 16] then d.setLink link { l with pageSize := n } else d.configBad link n
    | .command => d.setLink link { l with memOn := bitOf n 1 }
    | .sriovControl => d.setLink link { l with vfMemOn := bitOf n 3 }
    | .control => { d with devCtl := d.devCtl.set link (controlWrite (d.devControl link) n) 0x2010 }
    | .control2 k => if d.fnExists ⟨link, k⟩ then d.control2Write ⟨link, k⟩ n else d
    | .cap k off => if d.fnExists ⟨link, k⟩ then d.capW ⟨link, k⟩ off n else d
    | .bar i => d.setLink link { l with bar := barWrite (d.barSize link) l.bar i n }
    | .vfBar i => d.setLink link { l with vfBar := barWrite vfBarSize l.vfBar i n }

/-! ### Resets of functions (R431, R532, R533, R553) -/

/-- A ring of a reset function enters OFF (R177): work, held and stashed completions are discarded, counts are zeroed; one
that drained raises IDLE (R180). -/
def Dev.ringKill (d : Dev) (r : Nat) : Dev :=
  let d := d.rxFlush r
  let d := if (d.ring r).state = .draining then d.setInt (ringPage r) (2 ^ 11) else d
  let s := d.ring r
  let d := s.work.foldl (fun d w =>
    if w.done.isSome then d
    else if d.ringKind r = 1 then d.cellFree (d.txSource r) w.cells
    else match w.note with
      | 2 :: g :: h :: _ => (d.keyDrop g).keyDrop h
      | _ => d) d
  let d := d.setRing r { owner := s.owner }
  (((d.wrN (rngKey r 0x18) 0).wrN (rngKey r 0x1C) 0).wrN (rngKey r 0x38) 0).setFld (rngKey r 8) 9 1 0

/-- A queue of a reset function enters OFF (R499); its commands not started are dropped, or end toward the manager with
ABORTED_RESET, and started ones run on with `ending` as what becomes of their end (R532, R533, R553). -/
def Dev.queueKill (ending : QEnd) (d : Dev) (q : Nat) : Dev :=
  let cs := d.queueCmds q
  let d := if ending = .orphan then d.abortWaiting q 0x06
           else { d with qcmds := d.qcmds.filter fun c => !(decide (c.queue = q ∧ c.end_ = .complete) && !c.started) }
  let ids := cs.map (·.id)
  let d : Dev := { d with qcmds := d.qcmds.map fun c => if c.id ∈ ids then { c with end_ := ending } else c }
  let s := d.queue q
  (d.setFld (queueKey q 0) 0 1 0).setQueue q { s with state := .off, slot := none }

/-- Fetched entries of a function's rings without an end, and completions not written (R554). -/
def Dev.fnLosses (d : Dev) (f : Func) : Nat × Nat :=
  (d.ringsOf f).foldl (fun a r =>
    let s := d.ring r
    (a.1 + (s.work.filter fun w => w.done.isNone).length,
     a.2 + s.stash.length + s.held.length + (s.work.filter fun w => w.done.isSome).length)) (0, 0)

/-- Everything of a function that a reset of any kind ends. -/
def Dev.fnKill (d : Dev) (f : Func) (ending : QEnd) : Dev :=
  let d : Dev := { d with reads := d.reads.filter fun h => decide (h.func ≠ f) }
  let d := (d.ringsTouched f).foldl Dev.ringKill d
  let d := ((d.queuesOf f).foldl (Dev.queueKill ending) d).idleSince f d
  let l := d.link f.link
  let d := d.setLink f.link { l with invals := l.invals.filter fun q => decide (q.1 ≠ f) }
  { d with bme := d.bme.set (fkey f) false false, msixFn := d.msixFn.set (fkey f) false false,
           caps := d.caps.filter (fun k _ => decide (k / 4096 ≠ fkey f)),
           msix := d.msix.filter (fun k _ => decide (k / 2048 ≠ fkey f)), devCtl2 := d.devCtl2.set (fkey f) 0 0,
           devCtl := if f.num = 0 then d.devCtl.set f.link 0x2010 0x2010 else d.devCtl }

/-- The control page of a VF at its reset values, the Quern power context it shows among them, its mailboxes empty (R548,
R550). -/
def Dev.vfPageReset (d : Dev) (f : Func) : Dev :=
  let base := vfKey f 0
  let v := d.vf f
  let d : Dev := { d with regs := d.regs.filter fun k _ => !(decide (base ≤ k) && decide (k < base + 0x10000)) && !(decide (fctxKey f 0 ≤ k) && decide (k < fctxKey f 0x20)) }
  d.setVf f { v with outMsg := [], inMsg := [], outFull := false, inFull := false }

/-- Keys and KEKs of a VF zeroised, its SAs invalidated (R431). -/
def Dev.vfKeysGone (d : Dev) (f : Func) : Dev := ((d.keyEraseFunc f).1).saInvalidateFunc f

/-- A VF leaves service by FLR (`how` = 1) or by the clearing of VF Enable (`how` = 2): a forced quiesce where it is not
QUIESCED (R551, R553, R554). -/
def Dev.vfLeave (d : Dev) (f : Func) (how : Nat) (next : VState) : Dev :=
  let v := d.vf f
  let (es, cs) := d.fnLosses f
  let cmds := (d.qcmds.filter fun c => decide (c.func = f ∧ c.end_ = .complete)).length
  let d := v.quiesce.foldl (fun d w => d.finishNow w.1 w.2 0x05) d
  let d := d.fnKill f .orphan
  let d := if v.state ≠ .quiesced ∧ es + cs + cmds ≠ 0 then
      (d.vfmEvent f.link ([0xA1, 0x80, byteN how, 0] ++ toLE 2 f.num ++ [byteN f.link, 0] ++ toLE 4 es ++ toLE 4 cs ++ toLE 4 cmds ++
        zeros 4 ++ toLE 8 d.turn)).raise .vfm f.link 0 10
    else d
  let d := (d.vfPageReset f).vfKeysGone f
  d.setVf f { d.vf f with state := next, quiesce := [] }

/-- The VFs of a link that exist. -/
def Dev.vfsOf (d : Dev) (k : Nat) : List Func :=
  let l := d.link k
  if l.vfEnable then (rangeFrom 1 l.numVfs).map fun n => ⟨k, n⟩ else []

/-- VF Enable of a link cleared (R532, R551, R553). -/
def Dev.vfsOff (d : Dev) (k : Nat) : Dev :=
  let fs := d.vfsOf k
  let d := fs.foldl (fun d f => d.vfLeave f 2 .disabled) d
  let d : Dev := { d with flr := fs.foldl (fun (m : NMap Bool) f => m.set (fkey f) false false) d.flr }
  d.setLink k { d.link k with vfEnable := false }

/-- VF_ENABLE_CLEAR (R532, R551, R553). -/
def execVfEnableClear (link : Nat) (s : State) : Host.Outcome State Fault Refusal :=
  s.act fun d => d.config link fun d => if (d.link link).vfEnable then (d.vfsOff link).blkPump else d

/-- The pages whose messages have waited for a function of a link to be enabled since DL_Up: one message for each whose condition
is true and whose function exists now (R535). -/
def Dev.dueMsgs (d : Dev) (k : Nat) : Dev :=
  let l := d.link k
  let here (page : Nat) : Bool := d.fnExists ⟨k, d.fld (page + 0x2C) 16 12⟩
  ((l.due.filter fun p => here p && d.intCond p && d.bit (p + 0x2C) 31 && decide (d.fld (p + 0x2C) 28 1 = k)).foldl (fun d p => d.pageMsg p)
    (d.setLink k { l with due := l.due.filter fun p => !here p }))

/-- VF_ENABLE_SET (R539, R551): VF 1 to NumVFs enter ACTIVE. -/
def execVfEnableSet (link : Nat) (s : State) : Host.Outcome State Fault Refusal :=
  s.act fun d => d.config link fun d =>
    let l := d.link link
    if l.vfEnable then d
    else
      let d := d.setLink link { l with vfEnable := true }
      ((d.vfsOf link).foldl (fun d f => d.setVf f { d.vf f with state := .active }) d).dueMsgs link

/-- A function level reset under way: of a VF, or of PF0 with every VF of its link (R532, R533, R551, R553). -/
def Dev.flrNow (d : Dev) (f : Func) : Dev :=
  let d : Dev := { d with flr := d.flr.set (fkey f) true false }
  if f.num ≠ 0 then (d.vfLeave f 1 .resetting).blkPump
  else
    let d := d.vfsOff f.link
    let d := d.setLink f.link { d.link f.link with numVfs := 0, pageSize := 1, bar := {}, vfBar := {}, memOn := false, vfMemOn := false }
    (d.fnKill f .silent).blkPump

/-- FLR (R532 to R534, R551, R553). -/
def execFlr (f : Func) (s : State) : Host.Outcome State Fault Refusal :=
  s.act fun d => d.config f.link fun d => if !d.fnExists f then d else d.flrNow f

/-- FLR_COMPLETE (R534, R538, R551). -/
def execFlrComplete (f : Func) (s : State) : Host.Outcome State Fault Refusal :=
  s.act fun d =>
    if d.flr.getD (fkey f) false then
      let d : Dev := { d with flr := d.flr.set (fkey f) false false }
      let v := d.vf f
      let d := if f.num ≠ 0 ∧ v.state = .resetting then d.setVf f { v with state := .active } else d
      (d.bump (hifCount f.link 0x30)).raise .hif f.link 0 10
    else d

/-! ### Resets of links (R70, R512, R532, R534, R535, R546, R558) -/

/-- Every ring and queue of a link's VFs returned to PF0, with contexts at their reset values (R546). -/
def Dev.reclaim (d : Dev) (k : Nat) : Dev :=
  let rs := d.rings.keys.filter fun r => (d.ring r).owner.isSome && decide (d.ringFunc r = ⟨k, (d.ringFunc r).num⟩)
  let qs := d.queues.keys.filter fun q => (d.queue q).owner.isSome && decide (d.queueFunc q = ⟨k, (d.queueFunc q).num⟩)
  let d : Dev := { d with
    regs := d.regs.filter fun x _ =>
      !(rs.any fun r => decide (rngKey r 0 ≤ x ∧ x < rngKey r 0 + 0x40)) && !(qs.any fun q => decide (queueKey q 0 ≤ x ∧ x < queueKey q 0 + 0x20)) }
  qs.foldl (fun d q => d.setQueue q {}) (rs.foldl (fun d r => d.setRing r {}) d)

/-- The registers of the HIF page and of the VFM instance of a link at their reset values, but for PG_STATUS, whose QUIESCED falls with QUIESCE, HIF_CFG, the
counters and their snapshots (R49, R147, R532, R537). -/
def Dev.linkPagesReset (d : Dev) (k : Nat) : Dev :=
  let h := reg .hif k 0
  let v := reg .vfm k 0
  let d := (d.setFld (h + 0x14) 2 1 0).setFld (v + 0x14) 2 1 0
  { d with regs := d.regs.filter fun x _ =>
      !((decide (h ≤ x ∧ x < h + 0x10000 ∧ x ≠ h + 0x14 ∧ x ≠ h + 0x100 ∧
          ¬ (h + 0x200 ≤ x ∧ x < h + 0x238) ∧ ¬ (h + 0x600 ≤ x ∧ x < h + 0x638))) ||
        decide (v ≤ x ∧ x < v + 0x80000 ∧ x ≠ v + 0x14)) }

/-- The management commands under way for a VF that is no more, of a manager on either link (R541). -/
def Dev.vfCmdsEnd (d : Dev) (f : Func) : Dev :=
  let v := d.vf f
  let d := v.quiesce.foldl (fun d w => d.finishNow w.1 w.2 0x05) d
  let d := v.orders.foldl (fun d o => d.finishNow o.ring o.work 0x05) d
  v.harvests.foldl (fun d h => d.finishNow h.ring h.work 0x05) d

/-- A link fundamental reset or hot reset (R532, R546, R558); LINK_DOWN stays set in the page (R535). [log 130: DEDUCED] -/
def Dev.linkReset (d : Dev) (k : Nat) (perst : Bool) : Dev :=
  let l := d.link k
  let d := if l.up then ((d.setLink k { l with up := false }).bump (hifCount k 0x28)).raise .hif k 0 8 else d
  let d : Dev := { d with ownerMove :=
    if d.ownerMove = none ∧ d.bit (reg .sys 0 0x120) 1 ∧ d.primary = k then some k else d.ownerMove }
  let own := d.vfs.keys.filter fun x => decide ((fkeyFunc x).link = k)
  let fs := (own.map fkeyFunc) ++ [pf0 k]
  let d := fs.foldl (fun d f => d.fnKill f .silent) d
  let d := own.foldl (fun d x => (((d.vfCmdsEnd (fkeyFunc x)).vfPageReset (fkeyFunc x)).vfKeysGone (fkeyFunc x)).setVf (fkeyFunc x) {}) d
  let d := (d.reclaim k).linkPagesReset k
  let d := if l.up then d.wrN (pageOf .hif k 0 + 0x20) 0x100 else d
  let d : Dev := { d with flr := d.flr.filter fun x _ => decide ((fkeyFunc x).link ≠ k), late := d.late.filter fun _ j => decide ((fkeyFunc j).link ≠ k) }
  (d.setLink k { inReset := perst, ready := !perst && d.booted }).blkPump

/-- LINK_FUNDAMENTAL_RESET (R532): PERSTn is asserted. -/
def execLinkFundamentalReset (link : Nat) (s : State) : Host.Outcome State Fault Refusal := s.act fun d => d.linkReset link true

/-- PERST_DEASSERT (R534). -/
def execPerstDeassert (link : Nat) (s : State) : Host.Outcome State Fault Refusal :=
  s.act fun d =>
    let l := d.link link
    if l.inReset then d.setLink link { l with inReset := false, ready := d.booted } else d

/-- HOT_RESET (R532). [log 131: DEDUCED] -/
def execHotReset (link : Nat) (s : State) : Host.Outcome State Fault Refusal :=
  s.act fun d => if (d.link link).inReset then d else d.linkReset link false

/-- LINK_DOWN (R532, R538): Data Link Layer down, which acts as a hot reset. -/
def execLinkDown (link : Nat) (s : State) : Host.Outcome State Fault Refusal :=
  s.act fun d => if (d.link link).up then d.linkReset link false else d

/-- The pages whose condition is true and whose route names a link. -/
def Dev.duePages (d : Dev) (k : Nat) : List Nat :=
  ((d.regs.keys.filter fun x => x % 0x10000 = 0x2C ∧ x < 0x8000000).map fun x => x - 0x2C).filter fun p =>
    d.intCond p && d.bit (p + 0x2C) 31 && decide (d.fld (p + 0x2C) 28 1 = k)

/-- One message for every page whose condition is true and whose route names the link, once the named function is enabled
(R535). -/
def Dev.linkMsgs (d : Dev) (k : Nat) : Dev := (d.setLink k { d.link k with due := d.duePages k }).dueMsgs k

/-- The widest link that HIF_CFG allows: MAX_WIDTH (R512, R537). -/
def laneCap (cfg : Nat) : Nat := match bitsOf cfg 1 2 with | 0 => 16 | 1 => 8 | _ => 4

/-- LINK_UP (R512, R535, R538): a link reaches DL_Up at a rate and width its configuration allows. -/
def execLinkUp (link rate width : Nat) (flit : Bool) (s : State) : Host.Outcome State Fault Refusal :=
  s.act fun d =>
    let l := d.link link
    let cfg := d.rdN (reg .hif link 0x100)
    if l.up ∨ l.inReset ∨ ¬ bitOf cfg 0 ∨ rate = 0 ∨ ¬ d.refUp then d
    else
      let r := min rate (bitsOf cfg 3 3)
      let m := min width (laneCap cfg)
      if m < 4 then d
      else
        let w := if m < 8 then 4 else if m < 16 then 8 else 16
        ((d.setLink link { l with up := true, rate := r, width := w, flit := flit || decide (r = 6) }).raise .hif link 0 9).linkMsgs link

end Sys2Proof.Machine
end

