-- ==== Sys2Proof/Machine/VirtualFunctions.lean ====
section
/-! DEFINITION. Virtual functions: grants, quiesce, dirty-page logging, the mailbox (R539 to R560). -/

namespace Sys2Proof.Machine

/-! ### VF management commands (R539 to R541) -/

/-- A VFM command of an MBX ring with its parameter block (R540): the VFM controller executes it, in ring order. -/
def Dev.vfmBlock (d : Dev) (r op : Nat) (f : Dev → Work → List Byte → Dev) : Dev :=
  match d.workHead r op with
  | some w =>
    if d.ringKind r ≠ 7 then d
    else if w.entry.length ≠ 32 then d.finish r w.id 0x01
    else if !w.started then (d.setWork r w.id fun x => { x with started := true }).workRead w 0 (mbxAddr w) 64
    else if w.waiting ≠ [] ∨ !d.accepts .vfm (d.ringFunc r).link then d
    else f d w (slice w.allData 0 64)
  | none => d

/-- The VF a parameter block names in bytes 0 to 2. -/
def blockVf (b : List Byte) : Func := ⟨byteAt b 2 % 2, leAt b 0 2⟩

/-- The submitter of a VFM command may manage a VF (R539). -/
def Dev.mayManage (d : Dev) (r : Nat) (f : Func) : Bool := decide (d.ringFunc r = pf0 f.link) || d.fromPrimary r

/-- A VFM command for a VF that exists, from a manager of it. -/
def Dev.vfmExisting (d : Dev) (r op : Nat) (g : Dev → Work → List Byte → Func → Dev) : Dev :=
  d.vfmBlock r op fun d w b =>
    let f := blockVf b
    if !d.mayManage r f then d.finish r w.id 0x04
    else if f.num = 0 ∨ !d.fnExists f then d.finish r w.id 0x05
    else g d w b f

/-- An order taken for the next boundary; of two managers' orders for one VF, the primary manager's is kept (R541).
[log 137: DEDUCED] -/
def Dev.vfOrder (d : Dev) (f : Func) (kind r : Nat) (w : Work) (b : List Byte) : Dev :=
  let v := d.vf f
  let mine := (d.ringFunc r).link
  let rivals := v.orders.filter fun o => decide ((d.ringFunc o.ring).link ≠ mine)
  if rivals ≠ [] ∧ mine ≠ d.primary then d.finish r w.id 0x05
  else
    let d := d.setVf f { v with orders := v.orders.filter (fun o => decide ((d.ringFunc o.ring).link = mine)) ++
      [{ kind := kind, ring := r, work := w.id, body := b }] }
    let d := rivals.foldl (fun d o => d.finishNow o.ring o.work 0x05) d
    d.setWork r w.id fun x => { x with note := [1] }

/-! ### Grants (R542 to R546) -/

/-- A grant record with its reserved fields zero (R15, R542). -/
def grantClean (g : List Byte) : List Byte :=
  slice g 0 2 ++ [byteN (byteAt g 2 % 2), byteN (byteAt g 3 % 8)] ++ slice g 4 11 ++ [0] ++ slice g 16 2 ++ [0, 0] ++ slice g 20 8 ++
    zeros 36

/-- Rings of a grant record. -/
def grantRings (g : List Byte) : List Nat := rangeFrom (leAt g 4 2) (leAt g 6 2)

/-- Queues of a grant record. -/
def grantQueues (g : List Byte) : List Nat := rangeFrom (leAt g 8 2) (leAt g 10 2)

/-- A field of a grant record is outside its range (R544 row 1). -/
def grantRange (g : List Byte) : Bool :=
  let f := blockVf g
  let rb := leAt g 4 2
  let rn := leAt g 6 2
  let qb := leAt g 8 2
  let qn := leAt g 10 2
  decide (f.num = 0 ∨ 2048 < f.num ∨ 256 < rn ∨ 64 < qn ∨ 64 < byteAt g 12 ∨ byteAt g 13 = 0 ∨ byteAt g 14 = 0 ∨
    67108864 < leAt g 20 4 ∨ 2097152 < leAt g 24 4) ||
    (decide (rn ≠ 0) && decide (rb < f.link * 32768 ∨ f.link * 32768 + 32768 < rb + rn)) ||
    (decide (qn ≠ 0) && decide (qb < f.link * 8192 ∨ f.link * 8192 + 8192 < qb + qn))

/-- A VF holds something that a personality bit permits (R543, R544 row 4). -/
def Dev.holdsBit (d : Dev) (f : Func) (bit : Nat) : Bool :=
  let live (p : Nat → Bool) : Bool := d.rings.cells.any fun c => decide (c.2.state ≠ .off) && decide (d.ringFunc c.1 = f) && p (d.ringKind c.1)
  match bit with
  | 0 => live fun k => decide (k = 1 ∨ k = 2 ∨ k = 4 ∨ k = 5)
  | 1 => (d.queues.cells.any fun c => decide (c.2.state ≠ .off) && decide (d.queueFunc c.1 = f)) ||
      d.vols.values.any fun x => decide (vrOwner x.rec_ = f)
  | _ => live (fun k => decide (k = 3)) || decide (d.keysOwned f ≠ 0) ||
      (let base := d.rd64 (reg .key 0 0x10100)
       let n := if d.saLog = 0 then 0 else 2 ^ d.saLog
       d.hbm.keys.any fun a => decide (base ≤ a ∧ a < base + 256 * n ∧ (a - base) % 256 = 2) &&
         (let r := d.saRead ((a - base) / 256)
          saFlag r 0 && decide (saOwner r = f)))

/-- The first check of R544 that a grant fails. [log 136: DEDUCED] -/
def Dev.grantCheck (d : Dev) (g : List Byte) : Option Nat :=
  let f := blockVf g
  let old := (d.vf f).grant
  let rOut := (grantRings old).filter fun r => decide (r ∉ grantRings g)
  let qOut := (grantQueues old).filter fun q => decide (q ∉ grantQueues g)
  let rIn := (grantRings g).filter fun r => decide (d.ringFunc r ≠ f)
  let qIn := (grantQueues g).filter fun q => decide (d.queueFunc q ≠ f)
  if grantRange g then some 0x35
  else if (rIn.any fun r => decide (d.ringFunc r ≠ pf0 f.link)) || qIn.any (fun q => decide (d.queueFunc q ≠ pf0 f.link)) then some 0x05
  else if ((rOut ++ rIn).any fun r => decide ((d.ring r).state ≠ .off)) || (qOut ++ qIn).any (fun q => decide ((d.queue q).state ≠ .off)) then
    some 0x05
  else if (rangeFrom 0 3).any fun i => bitOf (byteAt old 3) i && !bitOf (byteAt g 3) i && d.holdsBit f i then some 0x05
  else none

/-- VFM_GRANT (R541 to R545): checked, and taken for the next boundary; behind another order for the VF it is checked there, against
the result of that order. -/
def execVfmGrant (r : Nat) (s : State) : Host.Outcome State Fault Refusal :=
  s.act fun d => d.vfmBlock r 0x60 fun d w b =>
    let b := grantClean b
    if !d.mayManage r (blockVf b) then d.finish r w.id 0x04
    else match (d.vf (blockVf b)).orders, d.grantCheck b with
      | [], some st => d.finish r w.id st
      | _, _ => d.vfOrder (blockVf b) 0 r w b

/-- The context of a ring at its reset values, owned by `o` (R545). -/
def Dev.ringGive (o : Option (Func × Nat)) (d : Dev) (r : Nat) : Dev :=
  ({ d with regs := d.regs.filter fun x _ => !decide (rngKey r 0 ≤ x ∧ x < rngKey r 0 + 0x40) } : Dev).setRing r { owner := o }

/-- The context of a queue at its reset values, owned by `o`. -/
def Dev.queueGive (o : Option (Func × Nat)) (d : Dev) (q : Nat) : Dev :=
  ({ d with regs := d.regs.filter fun x _ => !decide (queueKey q 0 ≤ x ∧ x < queueKey q 0 + 0x20) } : Dev).setQueue q { owner := o }

/-- An accepted grant takes effect (R545). -/
def Dev.grantNow (d : Dev) (f : Func) (g : List Byte) : Dev :=
  let old := (d.vf f).grant
  let d := ((grantRings old).filter fun r => decide (r ∉ grantRings g)).foldl (Dev.ringGive none) d
  let d := ((grantQueues old).filter fun q => decide (q ∉ grantQueues g)).foldl (Dev.queueGive none) d
  let d := (grantRings g).foldl (fun d r =>
    let o := some (f, r - leAt g 4 2)
    if d.ringFunc r = f then d.setRing r { d.ring r with owner := o } else Dev.ringGive o d r) d
  let d := (grantQueues g).foldl (fun d q =>
    let o := some (f, q - leAt g 8 2)
    if d.queueFunc q = f then d.setQueue q { d.queue q with owner := o } else Dev.queueGive o d q) d
  d.setVf f { d.vf f with grant := slice g 0 64 }

/-! ### Quiesce and resume (R551, R552) -/

/-- Completions of a VF that have found no room: stashed or owed, and those of commands ended before they started (R552). -/
def Dev.vfHeld (d : Dev) (f : Func) : Nat :=
  (d.ringsOf f).foldl (fun a r => a + (d.ring r).stash.length + (d.ring r).owed) 0 + ((d.ended f).filter fun c => !c.started).length

/-- VFM_QUIESCE (R540, R551, R552). [log 134: DEDUCED] -/
def execVfmQuiesce (r : Nat) (s : State) : Host.Outcome State Fault Refusal :=
  s.act fun d => d.vfmExisting r 0x61 fun d w b f =>
    match (d.vf f).state with
    | .quiesced => if (d.vf f).orders = [] then d.finish r w.id 0 (toLE 4 (d.vfHeld f)) else d.vfOrder f 1 r w b
    | .active | .quiescing => d.vfOrder f 1 r w b
    | _ => d.finish r w.id 0x05

/-- A ring of a VF that is quiesced: ENABLE = 0, which a CPL ring refuses as it does a write (R178, R552).
[log 218: DEDUCED] -/
def Dev.ringDrain (d : Dev) (r : Nat) : Dev :=
  let s := d.ring r
  if s.state = .active ∨ s.state = .haltActive then (d.ringStop r).1 else d

/-- The rings of a VF drained, those that submit before those that take their completions (R178, R552). -/
def Dev.ringsDrain (d : Dev) (f : Func) : Dev :=
  let rs := d.ringsOf f
  let d := (rs.filter fun r => d.ringKind r ≠ 6).foldl Dev.ringDrain d
  let d := (d.queuesOf f).foldl Dev.queueQuiesce d
  (rs.filter fun r => d.ringKind r = 6).foldl Dev.ringDrain d

/-- The boundary of a VFM_QUIESCE (R552). -/
def Dev.quiesceNow (d : Dev) (f : Func) (r w : Nat) : Dev :=
  let v := d.vf f
  match v.state with
  | .active | .quiescing =>
    (d.setVf f { v with state := .quiescing, quiesce := v.quiesce ++ [(r, w)] }).ringsDrain f
  | .quiesced => d.finishNow r w 0 (toLE 4 (d.vfHeld f))
  | _ => d.finishNow r w 0x05

/-- VF_QUIESCED (R551, R552): every completion that finds a place is posted, and no fetched entry, started command or host
access of a QUIESCING VF remains. -/
def execVfQuiesced (f : Func) (s : State) : Host.Outcome State Fault Refusal :=
  s.act fun d =>
    let v := d.vf f
    let d := if v.state = .quiescing then d.qrnFlush f Dev.cplWrite else d
    if v.state = .quiescing ∧ ((d.ringsOf f).all fun r => (d.ring r).work.all fun w => w.done.isSome) = true ∧
        (d.qcmds.all fun c => !(decide (c.func = f) && c.started && c.done.isNone)) = true ∧
        (d.reads.all fun h => decide (h.func ≠ f)) = true then
      let n := d.vfHeld f
      v.quiesce.foldl (fun d w => d.finishNow w.1 w.2 0 (toLE 4 n)) (d.setVf f { v with state := .quiesced, quiesce := [] })
    else d

/-- VFM_RESUME (R540, R551). -/
def execVfmResume (r : Nat) (s : State) : Host.Outcome State Fault Refusal :=
  s.act fun d => d.vfmExisting r 0x62 fun d w b f =>
    if (d.vf f).state = .quiesced ∨ (d.vf f).orders ≠ [] then d.vfOrder f 2 r w b else d.finish r w.id 0x05

/-! ### Dirty-page logging (R555 to R558) -/

/-- VFs that log, on both links together. [log 135: DEDUCED] -/
def Dev.loggers (d : Dev) : Nat :=
  (d.vfs.values.filter fun v => v.log.isSome || v.orders.any fun o => decide (o.kind = 3)).length

/-- A log of a VF as a START block names it. -/
def startLog (b : List Byte) : DirtyLog := { base := leAt b 8 8, pages := leAt b 16 4, hbm := leAt b 24 8 }

/-- VFM_DIRTY_START (R555). -/
def execVfmDirtyStart (r : Nat) (s : State) : Host.Outcome State Fault Refusal :=
  s.act fun d => d.vfmExisting r 0x63 fun d w b f =>
    let n := leAt b 16 4
    let v := d.vf f
    if leAt b 8 8 % 4096 ≠ 0 ∨ n % 64 ≠ 0 ∨ n = 0 ∨ 268435456 < n ∨ leAt b 24 8 % 65536 ≠ 0 then d.finish r w.id 0x01
    else if v.log.isSome ∨ (v.orders.any fun o => decide (o.kind = 3)) = true then d.finish r w.id 0x05
    else if 64 ≤ d.loggers then d.finish r w.id 0x20
    else d.vfOrder f 3 r w b

/-- `n` bytes of HBM from `a` zeroed. -/
def Dev.hbmZero (d : Dev) (a n : Nat) : Dev := { d with hbm := d.hbm.filter fun k _ => !decide (a ≤ k ∧ k < a + n) }

/-- Logging starts: both bitmaps are zeroed (R555). -/
def Dev.logNow (d : Dev) (f : Func) (b : List Byte) : Dev :=
  let lg := startLog b
  (d.hbmZero lg.hbm (lg.pages / 4)).setVf f { d.vf f with log := some { lg with started := true } }

/-- A harvest, or the final harvest of a VFM_DIRTY_STOP, queued (R557, R558). -/
def Dev.harvest (d : Dev) (r : Nat) (w : Work) (b : List Byte) (f : Func) (stop : Bool) : Dev :=
  let v := d.vf f
  if (v.log.isNone && v.orders.all fun o => decide (o.kind ≠ 3)) || v.harvests.any (·.stop) then d.finish r w.id 0x05
  else
    (d.setVf f { v with harvests := v.harvests ++ [{ ring := r, work := w.id, mgr := d.ringFunc r, dest := leAt b 8 8, stop := stop }] }).setWork
      r w.id fun x => { x with note := [1] }

/-- VFM_DIRTY_HARVEST (R557). -/
def execVfmDirtyHarvest (r : Nat) (s : State) : Host.Outcome State Fault Refusal :=
  s.act fun d => d.vfmExisting r 0x64 fun d w b f => d.harvest r w b f false

/-- VFM_DIRTY_STOP (R558). -/
def execVfmDirtyStop (r : Nat) (s : State) : Host.Outcome State Fault Refusal :=
  s.act fun d => d.vfmExisting r 0x65 fun d w b f => d.harvest r w b f true

/-- The bitmap of a log that is written, or the other one. -/
def DirtyLog.bitmap (lg : DirtyLog) (second : Bool) : Nat := if second then lg.hbm + lg.pages / 8 else lg.hbm

/-- Set bits of a byte string. -/
def onesOf (bs : List Byte) : Nat := bs.foldl (fun a b => a + ((rangeFrom 0 8).filter fun i => bitOf b.toNat i).length) 0

/-- The boundary at which the next harvest of a VF takes effect: logging switches to the other bitmap, and stops where the
harvest is the last (R557, R558). -/
def Dev.harvestNow (d : Dev) (k : Nat) : Dev :=
  let f := fkeyFunc k
  let v := d.vf f
  match v.log, v.harvests with
  | some lg, h :: hs =>
    if h.switched ∨ ¬ lg.started then d
    else
      let bits := onesOf (d.hbmRead (lg.bitmap lg.second) (lg.pages / 8))
      d.setVf f { v with log := some { lg with second := !lg.second, outside := 0, started := !h.stop },
                         harvests := { h with switched := true, bits := bits, outside := lg.outside } :: hs }
  | _, _ => d

/-- The old bitmap of a log written to the host and zeroed, and the harvest completed; the last one ends the log. -/
def Dev.harvested (d : Dev) (f : Func) (lg : DirtyLog) (h : Harvest) (hs : List Harvest) : Dev :=
  let a := lg.bitmap (!lg.second)
  let n := lg.pages / 8
  let ok := d.master h.mgr
  let d := (d.dmaWrite h.mgr h.dest (d.hbmRead a n)).hbmZero a n
  let d := d.setVf f { d.vf f with harvests := hs, log := if h.stop then none else some lg }
  d.finishNow h.ring h.work (if ok then 0 else 0x08) (if ok then toLE 4 h.bits ++ toLE 4 h.outside else [])

/-- HARVEST_DONE (R557, R558): the old bitmap has been copied to the host; it is zeroed, and the command completes. -/
def execHarvestDone (f : Func) (s : State) : Host.Outcome State Fault Refusal :=
  s.act fun d =>
    let v := d.vf f
    match v.log, v.harvests with
    | some lg, h :: hs =>
      if !h.switched then d else d.harvested f lg h hs
    | _, _ => d

/-! ### Information (R540, R559) -/

/-- VF_STATE.STATE. -/
def VState.code : VState → Nat
  | .disabled => 0
  | .active => 1
  | .quiescing => 2
  | .quiesced => 3
  | .resetting => 4

/-- VFM_VF_STATE of a VF as it reads. -/
def Dev.vfStateWord (d : Dev) (f : Func) : Nat :=
  let v := d.vf f
  v.state.code + 8 * b2n v.log.isSome + 16 * b2n (v.state = .quiesced && decide (d.vfHeld f ≠ 0)) + 32 * b2n v.outFull + 64 * b2n v.inFull

/-- The grant record of a VF as in force (R542). -/
def Dev.grantRecord (d : Dev) (f : Func) : List Byte :=
  let g := (d.vf f).grant
  if g = [] then splice (zeros 64) 13 [1, 1] else g

/-- VFM_INFO (R540). -/
def execVfmInfo (r : Nat) (s : State) : Host.Outcome State Fault Refusal :=
  s.act fun d => d.vfmBlock r 0x66 fun d w b =>
    let f := blockVf b
    if !d.mayManage r f then d.finish r w.id 0x04
    else if f.num = 0 ∨ 2048 < f.num then d.finish r w.id 0x05
    else d.finishPut r w.id (leAt b 8 8) (d.grantRecord f ++ toLE 4 (d.vfStateWord f) ++ toLE 4 (d.flowsOwned f) ++
        toLE 4 (d.keysOwned f) ++ zeros 52)

/-! ### Orders at a boundary (R541, R545, R552, R555) -/

/-- One order for a VF takes effect, checked against what stands then (R541). -/
def vfOrderNow (f : Func) (d : Dev) (o : VfOrder) : Dev :=
  match o.kind with
  | 0 => match d.grantCheck o.body with
    | some st => d.finishNow o.ring o.work st
    | none => (d.grantNow f o.body).finishNow o.ring o.work 0
  | 1 => d.quiesceNow f o.ring o.work
  | 2 =>
    let v := d.vf f
    if v.state = .quiesced then (d.setVf f { v with state := .active }).finishNow o.ring o.work 0 else d.finishNow o.ring o.work 0x05
  | _ => (d.logNow f o.body).finishNow o.ring o.work 0

/-- The orders of a VF at a boundary, then its harvest; harvests of a log that has not started after all end. -/
def vfOrders (d : Dev) (k : Nat) : Dev :=
  let f := fkeyFunc k
  let v := d.vf f
  let start := v.orders.any fun o => decide (o.kind = 3)
  let d := v.orders.foldl (vfOrderNow f) (d.setVf f { v with orders := [] })
  let v := d.vf f
  if v.log = none then
    v.harvests.foldl (fun d h => d.finishNow h.ring h.work 0x05) (d.setVf f { v with harvests := [] })
  else if start then d else d.harvestNow k

/-- The harvest of a VF that takes effect at this boundary (R557). -/
def VfSt.dueHarvest (v : VfSt) : Option Harvest :=
  match v.log, v.harvests with
  | some lg, h :: _ => if h.switched || !lg.started then none else some h
  | _, _ => none

/-- A VF at a boundary: a harvest of one manager and orders of the other are settled first, the primary manager's prevail
(R44, R541). [log 137: DEDUCED] -/
def vfBoundary (d : Dev) (k : Nat) : Dev :=
  let f := fkeyFunc k
  let v := d.vf f
  match v.dueHarvest with
  | some h =>
    let rival := v.orders.filter fun o => decide (d.ringFunc o.ring ≠ h.mgr)
    if rival = [] then vfOrders d k
    else if h.mgr.link = d.primary then
      vfOrders (rival.foldl (fun d o => d.finishNow o.ring o.work 0x05) (d.setVf f { v with orders := [] })) k
    else vfOrders ((d.setVf f { v with harvests := v.harvests.drop 1 }).finishNow h.ring h.work 0x05) k
  | none => vfOrders d k

/-- Every VF at a boundary. -/
def Dev.vfBoundaries (d : Dev) : Dev := d.vfs.keys.foldl vfBoundary d

/-! ### The mailbox (R550) -/

/-- A VF messaged on VF_IRQ (R550). -/
def Dev.vfMessage (d : Dev) (f : Func) : Dev :=
  let q := d.rdN (vfKey f 0x1030)
  if bitOf q 15 && d.fnExists f && decide (bitsOf q 0 6 < d.msixSize f) then d.msixSend f (bitsOf q 0 6) else d

/-- 64 B of 16 registers from a key. -/
def Dev.words16 (d : Dev) (k : Nat) : List Byte := (rangeFrom 0 16).flatMap fun i => toLE 4 (d.rdN (k + 4 * i))

/-- A write of VF_MBX_CTRL. -/
def vfMbxCtrlW (d : Dev) (t : Tgt) (f : Func) : Dev :=
  let send (d : Dev) : Dev :=
    let v := d.vf f
    if v.outFull then d.refuse t 0x0F01
    else (d.setVf f { v with outMsg := d.words16 (vfKey f 0x2000), outFull := true }).raise .vfm f.link 0 8
  let ack (d : Dev) : Dev :=
    let v := d.vf f
    if v.inFull then (d.setVf f { v with inFull := false }).raise .vfm f.link 0 9 else d.refuse t 0x0F01
  let d := if bitOf t.acc.data 0 then send d else d
  if bitOf t.acc.data 1 then ack d else d

/-- VF_MBX_SEND (R550): a write of VF_MBX_CTRL with SEND = 1. -/
def execVfMbxSend (f : Func) (v : BitVec 32) (s : State) : Host.Outcome State Fault Refusal :=
  s.act fun d => d.ownWrite (.vf f) 0x2080 4 (putBits v.toNat 0 1 1) fun d t => vfMbxCtrlW d t f

/-- VF_MBX_ACK (R550): a write of VF_MBX_CTRL with ACK = 1. -/
def execVfMbxAck (f : Func) (v : BitVec 32) (s : State) : Host.Outcome State Fault Refusal :=
  s.act fun d => d.ownWrite (.vf f) 0x2080 4 (putBits v.toNat 1 1 1) fun d t => vfMbxCtrlW d t f

/-- A write of VFM_MBX_CMD: the manager's side of the mailbox of the VF in VFM_MBX_SEL. -/
def vfmMbxCmdW (d : Dev) (t : Tgt) (k : Nat) : Dev :=
  let f : Func := ⟨k, d.fld (reg .vfm k 0x300) 0 12⟩
  let v := d.vf f
  match bitsOf t.acc.data 0 2 with
  | 1 =>
    if v.inFull then d.refuse t 0x0F01
    else (d.setVf f { v with inMsg := d.words16 (reg .vfm k 0x380), inFull := true }).vfMessage f
  | 2 => if v.outFull then (d.setVf f { v with outFull := false }).vfMessage f else d.refuse t 0x0F01
  | 3 => d.refuse t 0x0001
  | _ => d

/-- VFM_MBX_SEND (R550): a write of VFM_MBX_CMD with SEND = 1. -/
def execVfmMbxSend (pt : Party) (link : Nat) (v : BitVec 32) (s : State) : Host.Outcome State Fault Refusal :=
  s.act fun d => d.ownWrite pt (reg .vfm link 0x304) 4 (putBits v.toNat 0 1 1) fun d t => vfmMbxCmdW d t link

/-- VFM_MBX_ACK (R550): a write of VFM_MBX_CMD with ACK = 1. -/
def execVfmMbxAck (pt : Party) (link : Nat) (v : BitVec 32) (s : State) : Host.Outcome State Fault Refusal :=
  s.act fun d => d.ownWrite pt (reg .vfm link 0x304) 4 (putBits v.toNat 1 1 1) fun d t => vfmMbxCmdW d t link

end Sys2Proof.Machine
end

