-- ==== Sys2Proof/Machine/Boot.lean ====
section
/-! DEFINITION. The boot flash, its configuration record and its image slots (R595 to R598), the boot (R599, R600), and what
a reset of the whole device clears (R621, R640, R644). -/

namespace Sys2Proof.Machine

/-! ### The boot flash (R595) -/

/-- `n` bytes of the flash from `a`. [log 148: PRESUMED] -/
def Dev.flashRead (d : Dev) (a n : Nat) : List Byte := (rangeFrom a n).map fun i => d.flash.getD i 0xFF

/-- Bytes stored in a flash image from `a`. -/
def flashPut (m : NMap Byte) (a : Nat) : List Byte → NMap Byte
  | [] => m
  | b :: r => flashPut (m.set a b 0xFF) (a + 1) r

/-- `n` bytes of the flash from `a` erased. -/
def Dev.flashErase (d : Dev) (a n : Nat) : Dev := { d with flash := d.flash.filter fun k _ => !decide (a ≤ k ∧ k < a + n) }

/-- Bytes programmed from `a`: a bit that is 0 stays 0 until it is erased. -/
def Dev.flashProgram (d : Dev) (a : Nat) (bs : List Byte) : Dev :=
  { d with flash := flashPut d.flash a (List.zipWith (fun x y => x &&& y) (d.flashRead a bs.length) bs) }

/-- The first flash byte of an image slot. -/
def slotBase (k : Nat) : Nat := 0x100000 + k * 0x1000000

/-! ### Images (R597, R598) -/

/-- The header of an image slot, as far as it has fields. -/
def Dev.slotHead (d : Dev) (k : Nat) : List Byte := d.flashRead (slotBase k) 160

/-- The number of the first condition of R598 that the image in a slot fails. -/
def Dev.imageBad (d : Dev) (k : Nat) : Option Nat :=
  let h := d.slotHead k
  let len := leAt h 12 4
  if leAt h 0 4 ≠ 0x0940F1A5 ∨ byteAt h 4 ≠ 1 then some 1
  else if byteAt h 5 ≠ d.fld (reg .sys 0 0x104) 0 8 then some 2
  else if byteAt h 6 < d.rollback then some 3
  else if 4 ≤ byteAt h 7 ∨ ¬ Config.signerHeld (byteAt h 7) then some 4
  else if ¬ ecdsaOk (Config.signerKey (byteAt h 7)) (slice h 0 64) (slice h 64 96) then some 5
  else if len = 0 ∨ 16773120 < len ∨ sha384 (d.flashRead (slotBase k + 4096) len) ≠ slice h 16 48 then some 6
  else none

/-- The image in a slot is valid. -/
def Dev.imageOk (d : Dev) (k : Nat) : Bool := (d.imageBad k).isNone

/-- VERSION of the image in a slot; 0 without a valid image (R607). -/
def Dev.slotVersion (d : Dev) (k : Nat) : Nat := if d.imageOk k then leAt (d.slotHead k) 8 4 else 0

/-- The slot the boot ROM runs (R599 step 3): the valid image with the higher VERSION, slot 0 when they are equal. -/
def Dev.bootSlot (d : Dev) : Option Nat :=
  match d.imageOk 0, d.imageOk 1 with
  | true, true => some (if d.slotVersion 0 < d.slotVersion 1 then 1 else 0)
  | true, false => some 0
  | false, true => some 1
  | false, false => none

/-! ### The boot configuration record (R596) -/

/-- A copy of the record is valid. -/
def recordOk (b : List Byte) : Bool :=
  decide (leAt b 0 4 = 0x0940C0F6 ∧ byteAt b 4 = 1 ∧ leAt b 4092 4 = crc32c 0xFFFFFFFF (slice b 0 4092))

/-- The copy the boot ROM uses: the valid one with the higher GEN; empty when neither is valid. -/
def Dev.bootRecord (d : Dev) : List Byte :=
  let a := d.flashRead 0 4096
  let b := d.flashRead 4096 4096
  match recordOk a, recordOk b with
  | true, true => if leAt a 8 4 < leAt b 8 4 then b else a
  | true, false => a
  | false, true => b
  | false, false => []

/-- A field of the record in use, or its default. -/
def Dev.bootField (d : Dev) (off n dflt : Nat) : Nat := if d.bootRec = [] then dflt else leAt d.bootRec off n

/-- SSVID and SSID of every function (R596). -/
def Dev.subsystem (d : Dev) : Nat × Nat := (d.bootField 26 2 0x1F6B, d.bootField 28 2 0)

/-- The reset value of DRP_CFG (R477, R596). -/
def Dev.drpReset (d : Dev) : Nat := d.bootField 20 4 0x60 &&& 0x73

/-- The registers the record sets at their values. [log 16: DEDUCED] -/
def Dev.bootRegs (d : Dev) : Dev :=
  let d := d.wrN (reg .hif 0 0x100) (d.bootField 12 4 0x31 % 512)
  let d := d.wrN (reg .hif 1 0x100) (d.bootField 16 4 0x31 % 512)
  let c := d.drpReset
  let d : Dev := { (d.wrN (reg .drp 0 0x100) c) with drpCfg := c }
  d.setFld (reg .sys 0 0x120) 0 1 (d.bootField 24 1 0 % 2)

/-- The boot ROM reads the record (R599 step 2). [log 151: DEDUCED] -/
def Dev.readRecord (d : Dev) : Dev := ({ d with bootRec := d.bootRecord } : Dev).bootRegs

/-! ### States of the firmware (R615) -/

/-- FWC_STATUS.STATE. -/
def Dev.fwState (d : Dev) : Nat := d.fld (reg .fwc 0 0x100) 0 2

/-- FWC_STATUS.STATE written. -/
def Dev.setFwState (d : Dev) (v : Nat) : Dev := d.setFld (reg .fwc 0 0x100) 0 2 v

/-- The running slot. -/
def Dev.runSlot (d : Dev) : Nat := d.fld (reg .fwc 0 0x100) 8 1

/-- The running slot changed: FWC_STATUS, FWC_VERSION. -/
def Dev.setRunSlot (d : Dev) (k : Nat) : Dev := (d.setFld (reg .fwc 0 0x100) 8 1 k).wrN (reg .fwc 0 0x104) (d.slotVersion k)

/-- A new debug challenge: 16 bytes of the entropy source (R609). [log 17: DESIGN CHOICE] -/
def Dev.newChallenge (d : Dev) : Dev :=
  (rangeFrom 0 4).foldl (fun d i => let (d, v) := d.entDraw 3; d.wrN (reg .sec 0 (0x110 + 4 * i)) v) d

/-- Every instance, by the first offset of its page. -/
def allInstances : List (Blk × Nat) := pageMap.flatMap fun r => (rangeFrom 0 r.insts).map fun i => (r.blk, i)

/-- PG_STATUS.READY of an instance. -/
def Dev.setReady (d : Dev) (b : Blk) (i : Nat) : Dev := d.setFld (statusReg b i) 0 1 1

/-- Links out of reset answer configuration requests (R599 step 5, R600). -/
def Dev.linksReady (d : Dev) : Dev :=
  (rangeFrom 0 2).foldl (fun d k => let l := d.link k; d.setLink k { l with ready := !l.inReset }) d

/-- The end of the boot, with a wrap key and a challenge drawn (R426, R609): RUN on the chosen slot with every domain on, or
RECOVERY (R599, R600). [log 196: DESIGN CHOICE] -/
def Dev.boot (d : Dev) : Dev :=
  let d := d.wrapFresh.newChallenge
  match d.bootSlot with
  | some k =>
    let d := allInstances.foldl (fun d q => d.setReady q.1 q.2) d
    let d := (d.wr64 (reg .pwr 0 0x128) 0x1FFFFFFFF).wrN (reg .ent 0 0x100) 0xF1
    ((d.setRunSlot k).setFwState 1).linksReady
  | none =>
    let d := ((d.setReady .sys 0).setReady .fwc 0).setReady .sec 0
    (d.setFwState 2).linksReady

/-! ### What a reset of the device leaves (R640) -/

/-- Writes that no store has acknowledged: whether each is durable is left open (R35). [log 123: DESIGN CHOICE] -/
def Dev.landSome (d : Dev) : Dev :=
  d.swrites.foldl (fun d w => let (d, x) := d.drawFree; if x % 2 = 1 then d.storeLand w.store w.lba w.data else d) d

/-- The device after POR or device reset, before its boot: what lies outside it (flash, media behind the stores, the pins of
modules and PERSTn, what it has sent), OTP and the model's own counters stay; with `judged`, JUDGED stays. -/
def Dev.afterReset (d : Dev) (judged : Bool) : Dev :=
  let d := d.landSome
  let fresh : Dev := {
    flash := d.flash, media := d.media, out := d.out, draws := d.draws, nextId := d.nextId, rollback := d.rollback,
    ports := (d.ports.mapVal fun _ p => ({ modPresent := p.modPresent, modInt := p.modInt } : PortSt)).filter fun _ p => decide (p ≠ ({} : PortSt)),
    links := (d.links.mapVal fun (_ : Nat) l => ({ inReset := l.inReset } : LinkSt)).filter fun _ l => decide (l ≠ ({} : LinkSt)) }
  if judged ∧ d.bit (reg .clk 0 0x100) 0 then
    { (fresh.wrN (reg .clk 0 0x100) 1) with locking := !d.lossSince, lossSince := d.lossSince }
  else fresh

/-- Device reset (R621, R640): the queue of waiting commands is no part of the device. [log 157: DEDUCED] -/
def State.deviceReset (s : State) (held : Bool) : State :=
  { s with time := {}, dev := { s.dev.afterReset true with resetHeld := held } }

/-- Everything lost as at POR; the device is up, or down with THERM_TRIP_N as given. -/
def State.porReset (s : State) (dead tripped : Bool) : State :=
  { s with time := {}, dev := { s.dev.afterReset false with dead := dead, tripped := tripped } }

end Sys2Proof.Machine
end

