-- ==== Sys2Proof/Machine/Firmware.lean ====
section
/-! DEFINITION. The firmware: its mailbox commands, live update, debug authorisation, the flash window, the end of the boot
(R595 to R617). -/

namespace Sys2Proof.Machine

/-! ### Events (R616) -/

/-- An FWC event; a fault event raises FAULT. -/
def Dev.fwEvent (d : Dev) (kind unit cause count version : Nat) : Dev :=
  let d := (d.evtVia (reg .fwc 0 0x108)
    ([0xA1, byteN kind, byteN unit, byteN cause] ++ toLE 4 (count % p32) ++ toLE 8 (d.turn % p64) ++ toLE 4 version ++ zeros 12)).1
  if kind ≤ 0xA3 ∨ kind = 0xA6 then d.raise .fwc 0 0 8 else d

/-! ### Mailbox commands (R602 to R607) -/

/-- A mailbox command that only the primary manager may give (R602). -/
def Dev.primaryOnly (d : Dev) (r : Nat) (w : Work) (f : Dev → Dev) : Dev := if d.fromPrimary r then f d else d.finish r w.id 0x04

/-- The area FW_INFO writes (R607). -/
def Dev.fwInfo (d : Dev) : List Byte :=
  toLE 4 (d.rdN (reg .fwc 0 0x104)) ++ [byteN (d.runSlot + 2 * b2n (d.imageOk 0) + 4 * b2n (d.imageOk 1)), byteN d.rollback,
    byteN d.fwState, 0] ++ toLE 4 (d.slotVersion 0) ++ toLE 4 (d.slotVersion 1) ++ zeros 48

/-- FW_INFO (R602, R607). -/
def execFwInfo (r : Nat) (s : State) : Host.Outcome State Fault Refusal :=
  s.act fun d => d.mbx r 1 fun d w => d.primaryOnly r w fun d => d.finishPut r w.id (mbxAddr w) d.fwInfo

/-- FW_STAGE (R604): the image goes into the slot that is not running, and is verified there. [log 149: DEDUCED] -/
def execFwStage (r : Nat) (s : State) : Host.Outcome State Fault Refusal :=
  s.act fun d => d.mbx r 2 fun d w => d.primaryOnly r w fun d =>
    if d.activation.isSome then d.finish r w.id 0x05
    else if 0x1000000 < mbxLen w then d.finish r w.id 0x35
    else d.mbxBlock r 2 mbxLen fun d w img =>
      let k := 1 - d.runSlot
      let d := (d.flashErase (slotBase k) 0x1000000).flashProgram (slotBase k) img
      match d.imageBad k with
      | some n => d.finish r w.id 0x01 [byteN n]
      | none => d.finish r w.id 0

/-- The next cluster from `c` down that hands its tasks over: one that runs (R605). -/
def Dev.handoverFrom (d : Dev) : Nat → Option Nat
  | 0 => none
  | c + 1 => if d.clusterGone c then d.handoverFrom c else some c

/-- Every cluster runs the new image: the block-store handover begins (R502, R605 step 2). -/
def Dev.fwHold (d : Dev) (v : Nat) : Dev := d.setFld (reg .qrn 0 0x104) 0 1 v

/-- The end of an activation with a status (R605, R606). -/
def Dev.activationEnd (d : Dev) (a : Activation) (st : Nat) (res : List Byte) : Dev :=
  (({ d with activation := none, handing := none } : Dev).fwHold 0).setFwState 1 |>.finish a.ring a.work st res

/-- An activation fails: the clusters return to the old image one after the other, and then the command completes with `st`;
one that returns already keeps its status (R606). [log 152: DEDUCED] -/
def Dev.activationBack (d : Dev) (a : Activation) (st : Nat) : Dev :=
  let st := a.failed.getD st
  match d.handoverFrom 4 with
  | none => d.activationEnd a st []
  | some c =>
    if a.failed.isSome then d
    else { d.fwHold 0 with activation := some { a with failed := some st, waiting := false }, handing := some c }

/-- The handover of the cluster under way ends at a boundary, and the next one begins (R605 step 1); after the last one the
block-store handover begins, or a failed activation ends (R606). [log 152: DEDUCED] -/
def Dev.handoverNext (d : Dev) : Dev :=
  match d.activation, d.handing with
  | some a, some c =>
    match d.handoverFrom c, a.failed with
    | some n, _ => { d with handing := some n }
    | none, none => { d with handing := none }.fwHold 1
    | none, some st => d.activationEnd a st []
  | _, _ => d

/-- FW_ACTIVATE (R605, R606). -/
def execFwActivate (r : Nat) (s : State) : Host.Outcome State Fault Refusal :=
  s.act fun d => d.mbx r 3 fun d w => d.primaryOnly r w fun d =>
    if w.started then d
    else if d.activation.isSome ∨ ¬ d.imageOk (1 - d.runSlot) then d.finish r w.id 0x05
    else
      let d := d.setWork r w.id fun w => { w with started := true }
      let d : Dev := { d with activation := some { ring := r, work := w.id, slot := 1 - d.runSlot }, handing := d.handoverFrom 4 }
      d.setFwState 3

/-- Some started Quern command has not completed (R502). -/
def Dev.quernRunning (d : Dev) : Bool := d.qcmds.any fun c => c.started && c.done.isNone

/-- ACTIVATION_COMPLETE (R502, R605): the new firmware has taken over the block store. -/
def execActivationComplete (s : State) : Host.Outcome State Fault Refusal :=
  s.act fun d =>
    match d.activation with
    | some a =>
      if a.waiting ∨ d.handing.isSome ∨ d.quernRunning then d
      else
        let v := d.slotVersion a.slot
        let d := (d.setRunSlot a.slot).activationEnd a 0 (toLE 4 v ++ zeros 4)
        (d.fwEvent 0xA4 0 0 0 v).raise .fwc 0 0 9
    | none => d

/-- ACT_DEFERRED (R502, R606): started commands have not all completed 40 ms after FW_HOLD was set. -/
def execActDeferred (s : State) : Host.Outcome State Fault Refusal :=
  s.act fun d =>
    match d.activation with
    | some a =>
      if a.waiting ∨ d.handing.isSome ∨ ¬ d.quernRunning then d
      else
        let d := (d.fwHold 0).fwEvent 0xA5 0 0 0 0
        if a.defers = 3 then d.activationBack a 0x05 else { d with activation := some { a with defers := a.defers + 1, waiting := true } }
    | none => d

/-- ACTIVATION_RETRY (R606): 100 ms after a deferral. -/
def execActivationRetry (s : State) : Host.Outcome State Fault Refusal :=
  s.act fun d =>
    match d.activation with
    | some a => if a.waiting then ({ d with activation := some { a with waiting := false } } : Dev).fwHold 1 else d
    | none => d

/-- FW_ROLLBACK_COMMIT (R598, R607): the counter rises to the running image's ROLLBACK. -/
def execFwRollbackCommit (r : Nat) (s : State) : Host.Outcome State Fault Refusal :=
  s.act fun d => d.mbx r 4 fun d w => d.primaryOnly r w fun d =>
    ({ d with rollback := max d.rollback (min 127 (byteAt (d.slotHead d.runSlot) 6)) } : Dev).finish r w.id 0

/-! ### Debug authorisation (R608, R609) -/

/-- SEC_DEBUG_CHALLENGE. -/
def Dev.challenge (d : Dev) : List Byte := (rangeFrom 0 4).flatMap fun i => toLE 4 (d.rdN (reg .sec 0 (0x110 + 4 * i)))

/-- A token verifies (R609). -/
def Dev.tokenOk (d : Dev) (t : List Byte) : Bool :=
  decide (leAt t 0 4 = 0x0940DB06 ∧ leAt t 4 8 = Config.serial.toNat ∧ slice t 12 16 = d.challenge ∧ byteAt t 32 < 4) &&
    Config.signerHeld (byteAt t 32) && ecdsaOk (Config.signerKey (byteAt t 32)) (slice t 0 64) (slice t 64 96)

/-- SEC_DEBUG_STATE written. -/
def Dev.setDebug (d : Dev) (unlocked : Bool) (scope : Nat) : Dev := d.wrN (reg .sec 0 0x100) (b2n unlocked + 16 * scope)

/-- DEBUG_UNLOCK (R609): the token is checked, the challenge replaced, every slot and KEK zeroised, and the state changes once
no operation under way holds a zeroised key (R430); it waits while ENT instance 3, which the challenge comes from, is stopped
(R423). [log 153: DEDUCED] -/
def execDebugUnlock (r : Nat) (s : State) : Host.Outcome State Fault Refusal :=
  s.act fun d => d.mbx r 5 fun d w => d.primaryOnly r w fun d =>
    let unlock (d : Dev) (scope : Nat) (gens : List Nat) : Dev :=
      if d.keyHeld gens then d.setWork r w.id fun w => { w with note := 2 :: scope :: gens }
      else (d.setDebug true scope).finish r w.id 0
    match w.note with
    | 2 :: scope :: gens => unlock d scope gens
    | [3, st] => if d.entRuns 3 then d.newChallenge.finish r w.id st else d
    | _ =>
      if !d.entRuns 3 then d
      else if mbxLen w ≠ 160 then d.newChallenge.finish r w.id 0x10
      else d.mbxBlock r 5 mbxLen fun d w t =>
        let ok := d.tokenOk t
        let d := d.newChallenge
        if ok then
          let (d, gens) := d.keyEraseAll
          unlock d (leAt t 28 4 % 8) gens
        else d.finish r w.id 0x10

/-- DEBUG_LOCK (R609). -/
def execDebugLock (r : Nat) (s : State) : Host.Outcome State Fault Refusal :=
  s.act fun d => d.mbx r 6 fun d w => d.primaryOnly r w fun d => (d.setDebug false 0).finish r w.id 0

/-! ### The flash window and FWC_CTRL (R600, R615) -/

/-- FWC_FLASH_CMD. -/
def flashCmd : Nat := reg .fwc 0 0x10104

/-- FWC_FLASH_STATUS. -/
def flashStat : Nat := reg .fwc 0 0x10108

/-- Bytes from `a` touch the running slot; no slot runs before RUN or in RECOVERY. -/
def Dev.touchesRun (d : Dev) (a n : Nat) : Bool :=
  decide ((d.fwState = 1 ∨ d.fwState = 3) ∧ a < slotBase d.runSlot + 0x1000000 ∧ slotBase d.runSlot < a + n)

/-- FWC_FLASH_DATA. -/
def Dev.flashData (d : Dev) : List Byte := (rangeFrom 0 16).flatMap fun i => toLE 4 (d.rdN (reg .fwc 0 (0x10140 + 4 * i)))

/-- A write of FWC_FLASH_CMD (R615): the primary manager's alone has an effect; reserved bits are ignored, and a write without
one of the three bits does nothing. [log 154: DEDUCED] [log 207: DESIGN CHOICE] -/
def flashCmdW (d : Dev) (t : Tgt) : Dev :=
  let v := t.acc.data % 8
  let a := d.rdN (reg .fwc 0 0x10100)
  if v = 0 || (match t.acc.pt with | .core _ => true | _ => false) then d
  else if v ≠ 1 ∧ v ≠ 2 ∧ v ≠ 4 then d.refuse t 0x0001
  else if d.flashOp.isSome then d
  else if (v = 2 ∧ d.touchesRun a 64) ∨ (v = 4 ∧ d.touchesRun (a / 65536 * 65536) 65536) then d.refuse t 0x1201
  else { d with flashOp := some (v, a, d.flashData) }.setFld flashStat 0 2 1

/-- A write of a party to FWC_FLASH_CMD. -/
def State.flashCmd (s : State) (pt : Party) (v : Nat) : Host.Outcome State Fault Refusal :=
  s.act fun d => d.ownWrite pt Machine.flashCmd 4 v flashCmdW

/-- FLASH_READ (R615): a write of FWC_FLASH_CMD with READ. -/
def execFlashRead (pt : Party) (v : BitVec 32) (s : State) : Host.Outcome State Fault Refusal := s.flashCmd pt (putBits v.toNat 0 1 1)

/-- FLASH_PROGRAM (R615): a write of FWC_FLASH_CMD with PROGRAM. -/
def execFlashProgram (pt : Party) (v : BitVec 32) (s : State) : Host.Outcome State Fault Refusal := s.flashCmd pt (putBits v.toNat 1 1 1)

/-- FLASH_ERASE (R615): a write of FWC_FLASH_CMD with ERASE. -/
def execFlashErase (pt : Party) (v : BitVec 32) (s : State) : Host.Outcome State Fault Refusal := s.flashCmd pt (putBits v.toNat 2 1 1)

/-- FLASH_DONE (R615): the operation of the window ends, and FAIL tells whether it has failed; a failed one changes nothing
else. [log 208: DESIGN CHOICE] -/
def execFlashDone (s : State) : Host.Outcome State Fault Refusal :=
  s.act fun d =>
    match d.flashOp with
    | some (op, a, data) =>
      let (d, x) := ({ d with flashOp := none } : Dev).drawFree
      let d := d.setFld flashStat 0 2 (2 * (x % 2))
      if x % 2 = 1 then d
      else if op = 2 then d.flashProgram a data
      else if op = 4 then d.flashErase (a / 65536 * 65536) 65536
      else
        let bs := d.flashRead a 64
        (rangeFrom 0 16).foldl (fun d i => d.wrN (reg .fwc 0 (0x10140 + 4 * i)) (leAt bs (4 * i) 4)) d
    | none => d

/-- A write of FWC_CTRL: REBOOT acts in RECOVERY alone, as a device reset (R600, R615). -/
def State.fwcCtrl (s : State) (v : Nat) : State := if bitOf v 0 ∧ s.dev.fwState = 2 then s.deviceReset false else s

/-- REBOOT (R600, R615): a write of FWC_CTRL. -/
def execReboot (pt : Party) (v : BitVec 32) (s : State) : Host.Outcome State Fault Refusal :=
  s.run fun s =>
    match s.dev.writeCheck pt (reg .fwc 0 0x10C) 4 v.toNat with
    | .error d => { s with dev := d }
    | .ok t => s.fwcCtrl t.acc.data

/-- BOOT_COMPLETE (R599 steps 3 to 5, R600). -/
def execBootComplete (s : State) : Host.Outcome State Fault Refusal :=
  s.act fun d => if d.fwState = 0 ∧ d.refUp then d.boot else d

end Sys2Proof.Machine
end

