-- ==== Sys2Proof/Machine/Containment.lean ====
section
/-! DEFINITION. Fault containment: fences, the fault events, and what a failed unit loses (R55, R127, R305, R386, R387, R610
to R613). -/

namespace Sys2Proof.Machine

/-- An instance fenced: FENCED set, ENABLE and QUIESCE cleared (R55); ERROR after an uncorrectable error or a broken bound
(R610); STATE is raised in page 0 of the instance (R669). [log 185: DESIGN CHOICE] -/
def Dev.fenceInst (d : Dev) (b : Blk) (i : Nat) (error : Bool) : Dev :=
  let d := if b = .pat then d.patLost i else d
  let e := error || d.bit (statusReg b i) 4
  let was := d.bit (statusReg b i) 3 && (!error || d.bit (statusReg b i) 4)
  let d := (d.wrN (ctrlReg b i) 0).wrN (statusReg b i) (2 + 8 + 16 * b2n e)
  if was then d else d.raise b i 0 1

/-- PG_STATUS.ERROR of an instance, with STATE in its page 0. [log 30: DEDUCED] [log 185: DESIGN CHOICE] -/
def Dev.setError (d : Dev) (b : Blk) (i : Nat) : Dev :=
  if d.bit (statusReg b i) 4 then d else (d.setFld (statusReg b i) 4 1 1).raise b i 0 1

/-- UNCORRECTABLE recorded in the page of an instance (R66). -/
def Dev.logUncorrectable (d : Dev) (b : Blk) (i : Nat) : Dev := d.logOwn (pageOf b i 0) 0x0008 (pageOf b i 0)

/-! ### Pipelines -/

/-- The instances of a pipeline with its pattern engine. -/
def pipeBlks : List Blk := [.prs, .cls, .act, .pat]

/-- The passes inside a pipeline and its waiting leat passes dropped with cause FENCED; how many they were (R610, R616). -/
def Dev.pipeEmpty (d : Dev) (p : Nat) : Dev × Nat :=
  let d := d.patBack p
  let q := d.pipe p
  let ps := q.marks ++ q.ready ++ (if q.act.ps.pkt.id = 0 then [] else [q.act.ps])
  let d := d.setPipe p { q with marks := [], ready := [], leats := [], act := {}, leatUntil := none }
  let d := ps.foldl (fun d x => (d.dropPkt x.pkt 11).cellFree x.pkt.src 1) d
  (q.leats.foldl (fun d x => d.dropPkt x 11) d, ps.length + q.leats.length)

/-- A failed pipeline and its pattern engine fenced at a boundary (R610); an uncorrectable error is recorded in the pages of
its instances (R66). [log 30: DEDUCED] -/
def Dev.pipeFence (d : Dev) (p : Nat) : Dev :=
  match (d.pipe p).fault with
  | some cause =>
    let d := d.setPipe p { d.pipe p with fault := none }
    let (d, n) := d.pipeEmpty p
    let d := pipeBlks.foldl (fun d b => d.fenceInst b p true) d
    let d := if cause = 0 then [Blk.prs, .cls, .act].foldl (fun d b => d.logUncorrectable b p) d else d
    d.fwEvent 0xA0 p cause n 0
  | none => d

/-- A pipeline fails; it is fenced at the next boundary, the first cause counts. -/
def Dev.pipeFail (d : Dev) (p cause : Nat) : Dev :=
  let q := d.pipe p
  if p < 8 ∧ d.pipeAlive p ∧ q.fault = none then d.setPipe p { q with fault := some cause } else d

/-- A pass of a pipeline has broken the bound of R127: the turn after the second one after its admission has begun. -/
def Dev.transitBroken (d : Dev) (p : Nat) : Bool :=
  let q := d.pipe p
  !d.bit (reg .clk 0 0x100) 1 && (q.marks ++ q.ready).any fun x => !x.exempt && decide (x.admitted + 3 ≤ d.turn)

/-! ### Block engines -/

/-- A block engine is fenced: its narrow volumes and its commands go to the next engine, which issues again what stores have not
answered, with the same contents; wide volumes are quiesced (R39, R448, R610). -/
def Dev.engineFence (d : Dev) (e cause : Nat) : Dev :=
  let n := d.inFlight e
  let served := d.engineIn e
  let d := d.fenceInst .blke e true
  let d := if cause = 0 then d.logUncorrectable .blke e else d
  let d : Dev := { d with engServing := d.engServing.set e false false }
  let next := (d.engineFrom (e + 1)).getD e
  let d : Dev := { d with
    swrites := d.swrites.map fun w => if w.eng = e then { w with eng := next, sent := false } else w,
    sreads := d.sreads.map fun r => if r.eng = e then { r with eng := next, sent := false } else r }
  let d : Dev := { d with vols := d.vols.mapVal fun _ x => if vrWide x.rec_ ∨ x.eng ≠ e then x else { x with eng := next } }
  let d := if served then d.quiesceVols fun x => vrWide x.rec_ else d
  (d.fwEvent 0xA1 e cause n 0).ioPump.blkPump

/-- A block engine fails; one that is fenced already does not fail again. -/
def Dev.engineFail (d : Dev) (e cause : Nat) : Dev := if 4 ≤ e ∨ d.fenced .blke e then d else d.engineFence e cause

/-! ### Cipher lanes -/

/-- A lane leaves service: its started inline packet is dropped; jobs of the other clusters run on another lane, and without
one the volumes go OFFLINE (R386, R435, R610, R611). [log 102: DEDUCED] -/
def Dev.laneFence (d : Dev) (c i cause : Nat) : Dev :=
  let l := d.lane c i
  let d := d.setLane c i { l with active := none, fenced := some d.turn }
  let d := match l.active with
    | some r => (d.dropPkt r.job.pkt 11).keyDrop r.gen
    | none => d
  let d := ((d.setFld (reg .cip c 0x100) i 1 0).setError .cip c).raise .cip c 0 8
  let d := if cause = 0 then d.logUncorrectable .cip c else d
  let d := d.fwEvent 0xA2 (i + 16 * c) cause (b2n l.active.isSome) 0
  if c = 2 ∧ ¬ d.laneAny 2 then d.quiesceVols fun _ => true else d

/-- A lane of a cluster that is not fenced fails; one out of service does not fail again. -/
def Dev.laneFail (d : Dev) (c i cause : Nat) : Dev :=
  if 3 ≤ c ∨ laneCount c ≤ i ∨ (d.lane c i).fenced.isSome ∨ d.fenced .cip c then d else d.laneFence c i cause

/-- Packets that wait for a fenced lane move to the next one in service once the fence has taken effect (R386). -/
def Dev.laneMove (d : Dev) (i : Nat) : Dev :=
  let l := d.lane 0 i
  match l.fenced with
  | some t =>
    if t < d.turn ∧ l.queue ≠ [] then
      l.queue.foldl (fun d j => d.toInline j) (d.setLane 0 i { l with queue := [] })
    else d
  | none => d

/-! ### Control cores -/

/-- A live activation fails because a cluster has failed (R606). -/
def Dev.activationFail (d : Dev) : Dev :=
  match d.activation with
  | some a => d.activationBack a 0x3F
  | none => d

/-- A RESET of FWC ends a live activation at once. -/
def Dev.activationReset (d : Dev) : Dev :=
  match d.activation with
  | some a => d.activationEnd a (a.failed.getD 0x3F) []
  | none => d

/-- A control-core cluster is fenced; an activation under way fails, and the last cluster's loss is told (R606, R610,
R612).  The page all four clusters share shows ERROR; FENCED would hide FWC_STATUS. [log 201: DEDUCED] -/
def Dev.clusterFence (d : Dev) (c cause : Nat) : Dev :=
  let d := ({ d with coresFenced := d.coresFenced.set c true false } : Dev).setError .fwc 0
  let d := if cause = 0 then d.logUncorrectable .fwc 0 else d
  let d := (d.fwEvent 0xA3 c cause 0 0).activationFail
  if d.coresDead then d.fwEvent 0xA6 c cause 0 0 else d

/-- A control-core cluster fails. -/
def Dev.clusterFail (d : Dev) (c cause : Nat) : Dev := if 4 ≤ c ∨ d.clusterGone c then d else d.clusterFence c cause

/-! ### The rows -/

/-- UNCORRECTABLE_ERROR (R66, R610, R612); an error of an instance whose failure fences nothing is recorded in its page.
[log 30: DEDUCED] -/
def execUncorrectableError (u : FaultUnit) (s : State) : Host.Outcome State Fault Refusal :=
  s.act fun d =>
    match u with
    | .pipeline p => d.pipeFail p 0
    | .engine e => d.engineFail e 0
    | .lane c i => d.laneFail c i 0
    | .cluster c => d.clusterFail c 0
    | .other page =>
      match locate page with
      | some l =>
        if l.off = 0 ∧ l.page = 0 ∧ l.blk ∉ [Blk.prs, .cls, .act, .blke] then
          (d.setError l.blk l.inst).logUncorrectable l.blk l.inst
        else d
      | none => d

/-- TRANSIT_BOUND_EXCEEDED (R127, R610). [log 68: DEDUCED] -/
def execTransitBoundExceeded (p : Nat) (s : State) : Host.Outcome State Fault Refusal :=
  s.act fun d => if d.transitBroken p then d.pipeFail p 1 else d

/-- ENGINE_NO_PROGRESS (R610): a command of the engine has made no progress for 16 turns. [log 156: DEDUCED] -/
def execEngineNoProgress (e : Nat) (s : State) : Host.Outcome State Fault Refusal :=
  s.act fun d => if (d.flying e).any fun c => decide (c.moved + 16 ≤ d.bounds) then d.engineFail e 1 else d

/-- A packet has not come back by the end of the turn after the one its lane started it in (R387). -/
def Dev.laneLate (d : Dev) (lane : Nat) : Bool :=
  match (d.lane 0 lane).active with
  | some r => decide (r.started + 2 ≤ d.bounds)
  | none => false

/-- LANE_BOUND_EXCEEDED (R387, R610): a started packet has not come back from its inline lane. [log 103: DEDUCED] -/
def execLaneBoundExceeded (cluster lane : Nat) (s : State) : Host.Outcome State Fault Refusal :=
  s.act fun d => if cluster = 0 ∧ d.laneLate lane then d.laneFail 0 lane 1 else d

/-- WATCHDOG_EXPIRE (R610). -/
def execWatchdogExpire (c : Nat) (s : State) : Host.Outcome State Fault Refusal :=
  s.act fun d => d.clusterFail c 2

end Sys2Proof.Machine
end

