-- ==== Sys2Proof/Machine/Blocks.lean ====
section
/-! DEFINITION. What a reset of one block instance clears (R54, R55), for PG_CTRL.RESET and for the switch-on of a domain. -/

namespace Sys2Proof.Machine

/-- Registers that another rule keeps over a RESET of their block: PWR_DOMAIN_ON (R635 to R638), SEC_DEBUG_CHALLENGE, which has
no reset value (R617), FWC_STATUS and FWC_VERSION of the firmware that runs on (R613), HIF_CFG, whose reset value is what it
holds (R537), DRP_CFG (R477); of KEY what places the slots and SAs of a PF0, which survive (R431). [log 22, 192: DEDUCED] -/
def liveReg (b : Blk) (x : Nat) : Bool :=
  match b with
  | .pwr => decide (x = 0x128 ∨ x = 0x12C)
  | .sec => decide (0x110 ≤ x)
  | .fwc => decide (x = 0x100 ∨ x = 0x104)
  | .hif => decide (x = 0x100)
  | .drp => decide (x = 0x100)
  | .key => decide (x = 0x100 ∨ x = 0x108 ∨ x = 0x10C ∨ (0x10100 ≤ x ∧ x < 0x10118))
  | _ => false

/-- The block-specific registers of pages `lo` to `lo + n` of an instance, active and shadow, at their reset values. -/
def Dev.resetRegs (d : Dev) (b : Blk) (i lo n : Nat) : Dev :=
  let base := reg b i 0
  { d with regs := d.regs.filter fun k _ =>
      !(decide (base + lo * 0x10000 ≤ k ∧ k < base + (lo + n) * 0x10000 ∧ 0x100 ≤ k % 0x10000) && !liveReg b (k - base)) }

/-- The registers of a context space at their reset values. -/
def Dev.resetSpace (d : Dev) (lo hi : Nat) : Dev := { d with regs := d.regs.filter fun k _ => !decide (lo ≤ k ∧ k < hi) }

/-- Pages of an instance. -/
def blkPages (b : Blk) : Nat := match pageMap.find? fun r => r.blk = b with | some r => r.pages | none => 0

/-- The rings with their owners, and nothing else; the frames that wait for one are discarded (R361, R379). -/
def Dev.ringsFresh (d : Dev) : Dev :=
  let d := d.rings.cells.foldl (fun d c => c.2.rx.foldl (fun d w => d.rxDiscard c.1 w) d) d
  { d with rings := (d.rings.mapVal fun _ r => ({ owner := r.owner } : RingSt)).filter fun _ r => decide (r ≠ ({} : RingSt)) }

/-- The queues with their owners, and nothing else. -/
def Dev.queuesFresh (d : Dev) : Dev :=
  { d with queues := (d.queues.mapVal fun _ q => ({ owner := q.owner } : QueueSt)).filter fun _ q => decide (q ≠ ({} : QueueSt)) }

/-- The lanes of a cipher cluster without the packets that wait for them; fenced lanes stay fenced unless `unfence`. -/
def Dev.lanesReset (d : Dev) (c : Nat) (unfence : Bool) : Dev :=
  (rangeFrom 0 (laneCount c)).foldl (fun d i =>
    let l := d.lane c i
    let d := l.queue.foldl (fun d j => d.dropPkt j.pkt 11) (d.setLane c i { fenced := if unfence then none else l.fenced })
    if !unfence && l.fenced.isSome then d.setFld (reg .cip c 0x100) i 1 0 else d) d

/-- The internal state of an instance at its reset value: the active rule set is the device's and a pipeline has it again at
once (R132, R139), the indirection tables and the time counter go on (R75, R77, R239). [log 23, 24: DEDUCED] -/
def Dev.resetInner (d : Dev) (b : Blk) (i : Nat) (unfence : Bool) : Dev :=
  match b with
  | .clk => { d with windows := 0, locking := false }
  | .pwr => { d with ocLevel := 0 }
  | .trn => { d with extended := false, staged := some {}, retained := none, stageFill := false }
  | .prs | .cls | .act => d.setPipe i { d.pipe i with act := {}, admitted := 0, lookups := 0, deferred := false, refused := [], fault := none }
  | .fwc =>
    let d := d.activationReset
    { d with coresFenced := if d.coresDead then d.coresFenced else d.coresFenced.set 0 false false, flashOp := none }
  | .vfm =>
    let d := d.reclaim i
    { d.setLink i { d.link i with events := [] } with
      vfs := d.vfs.mapVal fun k v =>
        if (fkeyFunc k).link = i then { ({} : VfSt) with state := if v.state = .disabled ∨ v.state = .resetting then v.state else .active } else v }
  | .mac => d.setPort i { d.port i with localFault := false, remoteFault := false }
  | .prl => { ({ d with pair := { d.pair with roles := {} } } : Dev).writeAlone.pairRelease with pair := {} }
  | .drp => { d with drpCfg := d.rdN (reg .drp 0 0x100) }
  | .tbl => { d with tables := {}, owned := {}, scrubs := [], sweeps := [], faults := [], filter := {} }
  | .lrn => { d with lrn := {} }
  | .egr => (rangeFrom 0 4).foldl (fun d n => d.setPort n { d.port n with deficits := {}, rr := 0, rrVisited := false }) d
  | .cip => if d.entRuns i then d.lanesReset i unfence else (d.lanesReset i unfence).randStall i true
  | .ent =>
    ((({ d with entReqs := {}, entSeeds := {} } : Dev).randStall 0 true).randStall 1 true).randStall 2 true
  | .key =>
    let d := ((d.keyErase (fun _ k => k.owner.num ≠ 0) fun _ k => k.owner.num ≠ 0).1).saInvalidate fun r => (saOwner r).num ≠ 0
    { d with keyBusy := none, keyPend := none, keyLoadAt := none }
  | .blkg => { d with vols := {}, stores := {}, tasks := [], logs := [], sreads := [], swrites := [] }
  | .qrn =>
    let fs := (d.qcmds.map fun c => fkey c.func).eraseDups
    let d : Dev := { d with qcmds := [], blkDeficit := {}, qTaken := {}, qidle := fs.foldl (fun (m : NMap Nat) k => m.set k d.bounds 0) d.qidle }
    d.queuesFresh.resetSpace 0x200000000 0x300000000
  | .rng => ((({ d with txUsed := {} } : Dev).ringsFresh).resetSpace 0x100000000 0x200000000).resetSpace 0x500000000 0x600000000
  | _ => d

/-- Every block-specific register and the internal state of an instance at their reset values. -/
def Dev.instReset (d : Dev) (b : Blk) (i : Nat) (unfence : Bool) : Dev :=
  let d' := (d.resetRegs b i 0 (blkPages b)).resetInner b i unfence
  if b = .pat then d'.streamsUnused (d.streamRegion i).1 (d.streamRegion i).2.1 else d'

/-! ### What follows ENABLE and QUIESCE at once (R671) -/

/-- The links after a change of ENABLE or QUIESCE of an instance (R671). -/
def Dev.linksCease (d : Dev) (b : Blk) (i : Nat) : Dev :=
  match b with
  | .mac => d.portCease i
  | .sds => (rangeFrom 0 4).foldl Dev.portCease d
  | .prl => d.portCease 4
  | .drp => d.drpTrain
  | _ => d

end Sys2Proof.Machine
end

