-- ==== Sys2Proof/Machine/ClocksPower.lean ====
section
/-! DEFINITION. The reference and the PLLs, supply, temperature, the switching of domains, the resets of the device (R618 to
R647). -/

namespace Sys2Proof.Machine

/-! ### The reference (R619 to R626) -/

/-- CLK_STATUS. -/
def clkStatus : Nat := reg .clk 0 0x100

/-- A judgement has failed (R619, R620). -/
def Dev.judgeFail (d : Dev) : Dev := (d.bumpSat (reg .clk 0 0x108)).raise .clk 0 0 10

/-- JUDGE_WINDOW (R619): a window of 65,536 reference cycles in which IOSC was counted. [log 158: DEDUCED] -/
def execJudgeWindow (iosc : Nat) (s : State) : Host.Outcome State Fault Refusal :=
  s.act fun d =>
    if d.refUp ∨ d.locking ∨ (d.bit clkStatus 1 ∧ ¬ d.bit clkStatus 2) then d
    else
      let n := d.windows
      let d := d.setFld clkStatus 2 1 1
      if 41524 ≤ iosc ∧ iosc ≤ 42362 then
        if n = 63 then
          ({ d with windows := 0, locking := true } : Dev).setFld clkStatus 2 1 0 |>.wrN (reg .clk 0 0x104) 64
        else { d with windows := n + 1 }
      else (({ d with windows := 0 } : Dev).wrN (reg .clk 0 0x104) (n + 65536 * (iosc % 65536))).judgeFail

/-- PLL_LOCK_TIMEOUT (R620): the judgement has failed and is repeated. -/
def execPllLockTimeout (s : State) : Host.Outcome State Fault Refusal :=
  s.act fun d => if d.locking then (({ d with locking := false, windows := 0 } : Dev).setFld clkStatus 2 1 1).judgeFail else d

/-- REF_EDGES_RESUME (R619, R626): a judgement starts at the next reference edge, after a loss while the clocks coast. -/
def execRefEdgesResume (s : State) : Host.Outcome State Fault Refusal :=
  s.act fun d =>
    if ¬ d.refUp ∧ ¬ d.bit clkStatus 2 ∧ ¬ d.locking then ({ d with windows := 0 } : Dev).setFld clkStatus 2 1 1 else d

/-- What acceptance does on the device: CLK_STATUS, REF_ACCEPTED, and in BOOT the boot configuration record (R599, R620).
[log 36: DEDUCED] -/
def Dev.accept (d : Dev) : Dev :=
  let d := ({ d with locking := false, windows := 0, lossSince := false } : Dev).wrN clkStatus 0xF1
  let d := (d.raise .clk 0 0 9).drpTrain
  if d.fwState = 0 then d.readRecord else d

/-- REF_ACCEPTED (R94, R95, R620, R626): every PLL has locked after a judgement that passed. -/
def execRefAccepted (s : State) : Host.Outcome State Fault Refusal :=
  s.run fun s =>
    if s.dev.locking then
      let t := s.time
      let s := s.setTime { t with coast := false, servo := if t.servo = .coast then .holdover else t.servo }
      { s with dev := s.dev.accept }
    else s

/-- A port leaves UP because its SerDes have stopped. -/
def Dev.portLost (d : Dev) (n : Nat) : Dev := if (d.port n).link = .up then d.linkTo n .fault true else d

/-- Every SerDes link goes down: network ports, the pair link, DRP, the host links. -/
def Dev.serdesLost (d : Dev) : Dev :=
  let d := (rangeFrom 0 5).foldl Dev.portLost d
  let d := d.drpTrain
  (rangeFrom 0 2).foldl (fun d k => if (d.link k).up then d.linkReset k false else d) d

/-- What the loss of the reference does on the device (R624, R625); what local stores have not answered is sent again when they
return. -/
def Dev.loseRef (d : Dev) : Dev :=
  let d := ({ d with lossSince := true } : Dev).wrN clkStatus (b2n (d.bit clkStatus 0) + 2)
  let d := (d.bumpSat (reg .clk 0 0x10C)).wr64 (reg .clk 0 0x110) (d.turn % p64)
  let d := d.raise .clk 0 0 8
  let d := d.serdesLost
  let d : Dev := { d with
    swrites := d.swrites.map fun w => if (d.store? w.store).remote then w else { w with sent := false },
    sreads := d.sreads.map fun r => if (d.store? r.store).remote then r else { r with sent := false } }
  (rangeFrom 0 8).foldl (fun d g => if d.role g = .off ∨ d.role g = .stale then d else d.setRole g .stale) d

/-- The judgement under way fails at a gap without an edge, or while the PLLs lock after it (R619, R620); one that was skipped
does not (R621). -/
def Dev.judgeLost (d : Dev) : Dev :=
  let skipped := d.locking && d.bit clkStatus 0 && !d.lossSince
  let judged := d.bit clkStatus 2 || d.locking
  let e := (({ d with windows := 0, locking := false } : Dev).setFld clkStatus 2 1 0)
  if judged && !skipped then (e.wrN (reg .clk 0 0x104) (if d.locking then 64 else d.windows)).judgeFail else e

/-- REF_LOST (R93 to R95, R619, R624 to R626): the reference is lost, and the judgement under way fails; before the first
acceptance since POR there is nothing to lose but the judgement.  A loss while SYS_RST_N is low counts for R621 only.
[log 158: DEDUCED] -/
def execRefLost (s : State) : Host.Outcome State Fault Refusal :=
  if !s.dev.dead && s.dev.resetHeld then
    .next { s with dev := { s.dev with locking := false, lossSince := true } }
  else s.run fun s =>
    let d := s.dev
    if d.refUp ∨ (d.bit clkStatus 0 ∧ (d.bit clkStatus 2 ∨ d.locking)) then
      let t := s.time
      let s := s.setTime { t with coast := true, lossSinceLock := true, servo := if t.servo = .host then .host else .coast }
      { s with dev := s.dev.judgeLost.loseRef }
    else { s with dev := d.judgeLost }

/-! ### Supply (R628, R629) -/

/-- PWR_STATUS. -/
def pwrStatus : Nat := reg .pwr 0 0x100

/-- A bit of PWR_STATUS; a change to 1 raises an interrupt bit. -/
def Dev.pwrBit (d : Dev) (i int : Nat) (v : Bool) : Dev :=
  let was := d.bit pwrStatus i
  let d := d.setFld pwrStatus i 1 (b2n v)
  if v && !was then d.raise .pwr 0 0 int else d

/-- VIN_OUT_OF_RANGE (R628): VIN in mV lies outside the operating range; a fall below 10.5 V releases THERM_TRIP_N of a device
that has tripped (R630, R640). -/
def execVinOutOfRange (mv : Nat) (s : State) : Host.Outcome State Fault Refusal :=
  if s.dev.dead then .next (if mv < 10500 then { s with dev := { s.dev with tripped := false } } else s)
  else s.act fun d =>
    if 10800 ≤ mv ∧ mv ≤ 13200 then d
    else ((d.wrN (reg .pwr 0 0x104) (mv % 65536)).pwrBit 0 10 (decide (mv < 10800))).pwrBit 1 10 (decide (13200 < mv))

/-- VIN_RETURN_TO_RANGE (R628). -/
def execVinReturnToRange (mv : Nat) (s : State) : Host.Outcome State Fault Refusal :=
  s.act fun d =>
    if 10800 ≤ mv ∧ mv ≤ 13200 then ((d.wrN (reg .pwr 0 0x104) mv).pwrBit 0 10 false).pwrBit 1 10 false else d

/-- BROWN_OUT (R628, R630): VIN has been below 10.5 V for more than 10 µs; the device stays down until POR, with THERM_TRIP_N
released. -/
def execBrownOut (s : State) : Host.Outcome State Fault Refusal :=
  .next (if s.dev.dead then { s with dev := { s.dev with tripped := false } } else s.porReset true false)

/-- IIN_WINDOW (R628): IIN in mA averaged over 1 ms; an average above 25 A while OVERCURRENT stands persists at level 1.
[log 159: DEDUCED] -/
def execIinWindow (ma : Nat) (s : State) : Host.Outcome State Fault Refusal :=
  s.act fun d =>
    let d := d.wrN (reg .pwr 0 0x108) (ma % 65536)
    if 25000 < ma then { d.pwrBit 2 11 true with ocLevel := if d.ocLevel = 0 then 1 else 2 }
    else if ma < 23000 then { d.pwrBit 2 11 false with ocLevel := 0 }
    else d

/-- VIO_FAULT (R629). [log 159: DEDUCED] -/
def execVioFault (s : State) : Host.Outcome State Fault Refusal := s.act fun d => d.pwrBit 3 10 true

/-! ### Temperature (R631 to R634) -/

/-- PWR_TJ, in 0.0625 °C. -/
def Dev.tj (d : Dev) : Int := ((d.rd (reg .pwr 0 0x10C)).setWidth 16).toInt

/-- PWR_STATUS.TJ_WARN brought up to date. -/
def Dev.tjCheck (d : Dev) : Dev := d.pwrBit 6 12 (decide ((d.fld (reg .pwr 0 0x114) 0 16 : Nat) ≤ d.tj))

/-- TJ_WARN (R634): the highest junction temperature, in 0.0625 °C, as the sensors read it. [log 170: DESIGN CHOICE] -/
def execTjWarn (tj : Int) (s : State) : Host.Outcome State Fault Refusal :=
  s.act fun d => (d.wrN (reg .pwr 0 0x10C) (BitVec.ofInt 16 tj).toNat).tjCheck

/-- THERMAL_TRIP (R633): at 115 °C and above the device goes down, everything lost as at POR, until POR. -/
def execThermalTrip (tj : Int) (s : State) : Host.Outcome State Fault Refusal :=
  .next (if s.dev.dead ∨ tj < 1840 then s else s.porReset true true)

/-- The throttle level of the next turn (R632). -/
def Dev.nextThrottle (d : Dev) : Nat :=
  let l := d.fld pwrStatus 4 2
  let oc := d.ocLevel
  if 1680 ≤ d.tj ∨ 2 ≤ oc ∨ (l = 2 ∧ ¬ (d.tj < 1632 ∧ oc = 0)) then 2
  else if 1600 ≤ d.tj ∨ 1 ≤ oc ∨ (l ≠ 0 ∧ ¬ (d.tj < 1552 ∧ oc = 0)) then 1
  else 0

/-- The throttle level changed at a boundary, and its turns counted (R632). -/
def Dev.throttleStep (d : Dev) : Dev :=
  let l := d.fld pwrStatus 4 2
  let n := d.nextThrottle
  let d := if n = l then d else (d.setFld pwrStatus 4 2 n).raise .pwr 0 0 9
  if n = 0 then d else d.bump (reg .pwr 0 0x200)

/-! ### Switching domains (R635 to R639) -/

/-- The instances whose domain is `m`. -/
def domainInsts (m : Nat) : List (Blk × Nat) :=
  if 1 ≤ m ∧ m ≤ 8 then [(.prs, m - 1), (.cls, m - 1), (.act, m - 1)]
  else if m ≤ 16 then [(.pat, m - 9)]
  else if m ≤ 19 then [(.cip, m - 17)]
  else if m ≤ 23 then [(.blke, m - 20)]
  else if 27 ≤ m ∧ m ≤ 30 then [(.mac, m - 27)]
  else if m = 31 then [(.prl, 0)]
  else if m = 32 then [(.drp, 0)]
  else []

/-- PWR_DOMAIN_ON bit of a domain written. -/
def Dev.setDomain (d : Dev) (m : Nat) (v : Bool) : Dev := d.wr64 (reg .pwr 0 0x128) (putBits (d.rd64 (reg .pwr 0 0x128)) m 1 (b2n v))

/-- A switch command ends: PWR_SW_RESULT and SW_DONE. -/
def Dev.switchEnd (d : Dev) (m st : Nat) : Dev :=
  (({ d with domSwitch := none } : Dev).wrN (reg .pwr 0 0x124) (st + 65536 * m)).raise .pwr 0 0 8

/-- A switch-off that is refused (R636). -/
def Dev.offRefused (d : Dev) (m : Nat) : Bool :=
  if 1 ≤ m ∧ m ≤ 8 then (rangeFrom 0 8).all fun p => decide (p = m - 1) || !(d.pipe p).inService
  else if m = 17 then (rangeFrom 0 4).any fun n => decide (d.fld (reg .mac n 0xC00) 0 2 ≠ 0)
  else if m = 19 then d.vols.values.any fun x => decide (d.volState x ≠ 3)
  else if 24 ≤ m ∧ m ≤ 26 then d.fwState = 3
  else if m = 31 then (rangeFrom 0 8).any fun g => decide (d.role g ≠ .off)
  else if m = 32 then d.stores.values.any fun x => !x.remote && decide (x.state ≠ 0)
  else false

/-- A write of PWR_SW_CMD (R635, R636). [log 160: DEDUCED] -/
def switchW (d : Dev) (t : Tgt) : Dev :=
  let v := t.acc.data
  let m := bitsOf v 0 6
  let on := bitOf v 8
  if m = 0 ∨ 32 < m then d.refuse t 0x0001
  else if d.domSwitch.isSome ∨ on = bitOf v 9 then d.refuse t 0x1301
  else if d.domainOn m = on then d.switchEnd m 0
  else if !on && d.offRefused m then d.switchEnd m 0x05
  else ({ d with domSwitch := some { dom := m, on := on } } : Dev).wrN (reg .pwr 0 0x124) (256 + 65536 * m)

/-- A write of a party to PWR_SW_CMD. -/
def State.switchCmd (s : State) (pt : Party) (v : Nat) : Host.Outcome State Fault Refusal :=
  s.act fun d => d.ownWrite pt (reg .pwr 0 0x120) 4 v switchW

/-- DOMAIN_OFF (R635, R636): a write of PWR_SW_CMD with OFF. -/
def execDomainOff (pt : Party) (v : BitVec 32) (s : State) : Host.Outcome State Fault Refusal :=
  s.switchCmd pt (putBits (putBits v.toNat 8 1 0) 9 1 1)

/-- DOMAIN_ON (R635, R638): a write of PWR_SW_CMD with ON. -/
def execDomainOn (pt : Party) (v : BitVec 32) (s : State) : Host.Outcome State Fault Refusal :=
  s.switchCmd pt (putBits (putBits v.toNat 8 1 1) 9 1 0)

/-- First passes of a pipeline that has left service go, in order, to the pipeline of R236. -/
def Dev.resteer (d : Dev) (p : Nat) : Dev :=
  let q := d.pipe p
  if q.inService ∨ q.firsts = [] then d
  else q.firsts.foldl (fun d x =>
    match d.serving (d.pipeInd (foldHash x.hash)) 8 with
    | none => d.dropPkt x 11
    | some i => d.setPipe i { d.pipe i with firsts := (d.pipe i).firsts ++ [x] }) (d.setPipe p { q with firsts := [] })

/-- A pipeline leaves service at a boundary; its leats are admitted for 8 turns more (R637, R671). -/
def Dev.pipeWithdraw (d : Dev) (p : Nat) : Dev :=
  let q := d.pipe p
  if q.inService then d.setPipe p { q with inService := false, leatUntil := some (d.bounds + 8) } else d

/-- A block engine leaves service: narrow volumes go to the next one, wide volumes are quiesced (R39, R637, R671). -/
def Dev.engineWithdraw (d : Dev) (e : Nat) : Dev :=
  let d : Dev := { d with engServing := d.engServing.set e false false }
  let idle (v : Nat) : Bool := d.qcmds.all fun c => !(c.started && c.done.isNone && decide (c.vol = v))
  let next := (d.engineFrom (e + 1)).getD e
  let d : Dev := { d with vols := d.vols.mapVal fun v x => if vrWide x.rec_ ∨ x.eng ≠ e ∨ ¬ idle v then x else { x with eng := next } }
  d.quiesceVols fun x => vrWide x.rec_

/-- The withdrawal of a domain at a boundary, and QUIESCE on its instances (R637 steps 1 and 2). [log 162: DEDUCED] -/
def Dev.withdraw (d : Dev) : Dev :=
  match d.domSwitch with
  | some w =>
    if w.on ∨ w.withdrawn then d
    else
      let d : Dev := { d with domSwitch := some { w with withdrawn := true } }
      let m := w.dom
      let d := if 1 ≤ m ∧ m ≤ 8 then d.pipeWithdraw (m - 1)
        else if 20 ≤ m ∧ m ≤ 23 then d.engineWithdraw (m - 20)
        else if 27 ≤ m ∧ m ≤ 30 then (d.linkTo (m - 27) .disabled false).recalDone (m - 27)
        else if m = 31 then (d.linkTo 4 .disabled false).recalDone 4
        else d
      let d := (domainInsts m).foldl (fun d q => d.setFld (ctrlReg q.1 q.2) 1 1 1) d
      if m = 32 then d.drpTrain else d
  | none => d

/-- Each instance of a domain is quiesced, or fenced already; a pipeline has no leat left (R637 steps 1 and 2). -/
def Dev.domainQuiet (d : Dev) (m : Nat) : Bool :=
  ((domainInsts m).all fun q => d.bit (statusReg q.1 q.2) 3 || !d.busy q.1 q.2) &&
    (!(decide (1 ≤ m ∧ m ≤ 8)) || (d.pipe (m - 1)).leats.isEmpty)

/-- DOMAIN_OFF_COMPLETE (R55, R420, R637): the domain is fenced and its power removed; packets that wait for its lanes are lost,
a fault of its pipeline is told (R639), and the loss of the last control-core cluster too (R612). [log 234: DEDUCED] -/
def execDomainOffComplete (s : State) : Host.Outcome State Fault Refusal :=
  s.act fun d =>
    match d.domSwitch with
    | some w =>
      if w.on ∨ ¬ w.withdrawn ∨ ¬ d.domainQuiet w.dom then d
      else
        let dead := d.coresDead
        let m := w.dom
        let d := if 1 ≤ m ∧ m ≤ 8 then d.pipeFence (m - 1) else if 17 ≤ m ∧ m ≤ 19 then d.lanesReset (m - 17) false else d
        let d := (domainInsts m).foldl (fun d q => d.fenceInst q.1 q.2 false) d
        let d := d.setDomain m false
        (if !dead && d.coresDead then d.fwEvent 0xA6 (m - 23) 0 0 0 else d).switchEnd m 0
    | none => d

/-- LEAT_WITHDRAW_EXPIRE (R637): leat passes that still wait 8 turns after the withdrawal of their pipeline. -/
def execLeatWithdrawExpire (p : Nat) (s : State) : Host.Outcome State Fault Refusal :=
  s.act fun d =>
    let q := d.pipe p
    if q.inService ∨ d.leatsOpen q ∨ 8 ≤ p then d
    else q.leats.foldl (fun d x => d.dropPkt x 11) (d.setPipe p { q with leats := [], leatUntil := none })

/-- A domain powered: its instances are reset and IDLE, with ERROR as it was; SerDes pages and a core cluster come with it
(R55, R139, R613, R638), unless every cluster is fenced (R612).  DRP_CFG takes the value of the boot configuration (R477). -/
def Dev.domainUp (d : Dev) (m : Nat) : Dev :=
  let dead := d.coresDead
  let d := d.setDomain m true
  let d := (domainInsts m).foldl (fun d q =>
    let e := b2n (d.bit (statusReg q.1 q.2) 4)
    (d.instReset q.1 q.2 true).wrN (statusReg q.1 q.2) (3 + 16 * e)) d
  let d := if 27 ≤ m ∧ m ≤ 30 then d.resetRegs .sds 0 (2 * (m - 27)) 2 else d
  let d := if m = 32 then { d.wrN (reg .drp 0 0x100) d.drpReset with drpCfg := d.drpReset } else d
  if 24 ≤ m ∧ m ≤ 26 then { d with coresFenced := d.coresFenced.set (m - 23) dead false } else d

/-- DOMAIN_ON_COMPLETE (R55, R139, R613, R638): the domain is powered and initialised. -/
def execDomainOnComplete (s : State) : Host.Outcome State Fault Refusal :=
  s.act fun d =>
    match d.domSwitch with
    | some w =>
      if !w.on then d else (d.domainUp w.dom).switchEnd w.dom 0
    | none => d

/-! ### Resets of the device (R640, R641) -/

/-- POR (R640): VIN rises past 10.8 V; a device that has tripped stays down until VIN has fallen below 10.5 V. -/
def execPor (s : State) : Host.Outcome State Fault Refusal :=
  .next (if s.dev.dead ∧ s.dev.tripped then s else s.porReset false false)

/-- DEVICE_RESET (R621, R640): SYS_RST_N has been low for 10 µs. -/
def execDeviceReset (s : State) : Host.Outcome State Fault Refusal :=
  .next (if s.dev.dead then s else s.deviceReset true)

/-- SYS_RST_N_RELEASE (R641): the boot begins. -/
def execSysRstNRelease (s : State) : Host.Outcome State Fault Refusal :=
  .next { s with dev := { s.dev with resetHeld := false } }

end Sys2Proof.Machine
end

