-- ==== Sys2Proof/Machine/Turns.lean ====
section
/-! DEFINITION. What happens at a boundary (R117 to R123, R128 to R150), with everything other chapters tie to one. -/

namespace Sys2Proof.Machine

/-! ### Snapshots (R146) -/

/-- The distance from a counter to its snapshot register; none for a register that is not snapshotted. -/
def snapDist (k : Nat) : Option Nat :=
  match locate k with
  | some l =>
    if l.off < 0x100 ∨ 0x8000 ≤ l.off then none
    else match rowAt l.blk.rows (l.page * 0x10000 + l.off) with
      | some (r, _) => if r.snap = 0 then none else some r.snap
      | none => none
  | none => none

/-- A register is the snapshot of a counter. -/
def isSnap (k : Nat) : Bool :=
  match locate k with
  | some l =>
    let x := l.page * 0x10000 + l.off
    decide (0x100 ≤ l.off ∧ l.off < 0x8000) && l.blk.rows.any fun r => decide (r.snap ≠ 0 ∧ r.snap ≤ x) && (r.hit (x - r.snap)).isSome
  | none => false

/-- Every snapshotted counter copied into its snapshot register. -/
def Dev.copyCounters (d : Dev) : Dev :=
  let keep := d.regs.filter fun k _ => !isSnap k
  { d with regs := d.regs.cells.foldl (fun (m : NMap Word) c => match snapDist c.1 with
      | some n => m.set (c.1 + n) c.2 (regReset (c.1 + n))
      | none => m) keep }

/-- TRN_SNAP_CTRL. -/
def snapCtrl : Nat := reg .trn 0 0x148

/-- Step 1 of R123: the snapshot, when one is due at the boundary of the present turn. -/
def Dev.snapshotStep (d : Dev) : Dev :=
  if d.bit snapCtrl 0 ∧ d.rd64 (reg .trn 0 0x140) ≤ d.turn then
    let d := (d.copyCounters.wr64 (reg .trn 0 0x150) (d.turn % p64)).bump32 (reg .trn 0 0x158)
    ((d.setFld snapCtrl 0 1 0).setFld (snapCtrl + 0x8000) 0 1 0).raise .trn 0 0 13
  else d

/-! ### Commits (R57, R128 to R130) -/

/-- The active word of a TL register at a key, from its active or its shadow word. -/
def tlActive (k : Nat) : Option (Nat × Nat) :=
  match locate k with
  | some l =>
    if l.blk = .rng ∨ l.off < 0x100 ∨ (0x8000 ≤ l.off ∧ l.off < 0x8100) then none
    else match rowAt l.blk.rows (l.page * 0x10000 + unshadow l) with
      | some (r, _) => if r.tl then some (if 0x8000 ≤ l.off then k - 0x8000 else k, l.pageBase) else none
      | none => none
  | none => none

/-- Every TL shadow of the pages of group `g` copied into its active copy. -/
def Dev.copyShadows (d : Dev) (g : Nat) : Dev :=
  d.regs.keys.foldl (fun m k => match tlActive k with
    | some (a, page) => if d.fld (page + 0x60) 0 4 = g then m.wr a (d.rd (a + 0x8000)) else m
    | none => m) d

/-- The GOV pages of group `g` apply their update slots (R368). -/
def Dev.commitGov (d : Dev) (g : Nat) : Dev :=
  (rangeFrom 0 4).foldl (fun d pg => if d.fld (pageOf .gov 0 pg + 0x60) 0 4 = g then d.govSlots pg else d) d

/-- TRN_EPOCH_CTRL. -/
def epochCtrl : Nat := reg .trn 0 0x120

/-- SWAP cleared in both copies of TRN_EPOCH_CTRL. -/
def Dev.swapClear (d : Dev) : Dev := (d.setFld epochCtrl 8 1 0).setFld (epochCtrl + 0x8000) 8 1 0

/-- The swap as part of a commit of group `g` (R134). -/
def Dev.swapStep (d : Dev) (g : Nat) : Dev :=
  if d.fld epochCtrl 0 4 ≠ g ∨ ¬ d.bit epochCtrl 8 then d
  else match d.staged with
    | none => d.swapClear.raise .trn 0 0 11
    | some rs =>
      let d : Dev := { d with active := { rs with activeAt := d.turn }, retained := some d.active, staged := none, stageFill := false }
      let d := (d.wr64 (reg .trn 0 0x128) (d.turn % p64)).wr64 (reg .trn 0 0x130) ((d.turn + 2) % p64)
      (d.bump32 (reg .trn 0 0x138)).swapClear.raise .trn 0 0 10

/-- A region of `unit`-byte records at a TL base register passes the end of HBM (R280, R310). -/
def Dev.regionPast (d : Dev) (base cfg unit : Nat) : Bool :=
  decide (d.fld cfg 0 5 ≠ 0 ∧ hbmSize < d.rd64 base + unit * 2 ^ d.fld cfg 0 5)

/-- The regions of pipeline `p` that pass the end of HBM: records, counters, stream states. -/
def Dev.regionsPast (d : Dev) (p : Nat) : Bool × Bool × Bool :=
  let a := reg .act p 0x10000
  let s := reg .pat p 0x10000
  (d.regionPast (a + 0x100) (a + 0x108) 64, d.regionPast (a + 0x110) (a + 0x118) 16, d.regionPast (s + 0x100) (s + 0x108) 64)

/-- What a commit of group `g` does beside the copies: REGION_BAD of its pages whose region passes the end of HBM after it
(R280, R310), and the end of the streams of a stream region it has changed; `old` is the device before it. [log 45: DEDUCED] -/
def Dev.regionNotes (d old : Dev) (g : Nat) : Dev :=
  (rangeFrom 0 8).foldl (fun d p =>
    let y := d.regionsPast p
    let d := if (y.1 || y.2.1) && decide (d.fld (pageOf .act p 1 + 0x60) 0 4 = g) then d.raise .act p 1 8 else d
    let d := if y.2.2 && decide (d.fld (pageOf .pat p 1 + 0x60) 0 4 = g) then d.raise .pat p 1 8 else d
    if old.streamRegion p = d.streamRegion p then d else d.streamsUnused (old.streamRegion p).1 (old.streamRegion p).2.1) d

/-- A commit of group `g`: shadows, regions, update slots, swap. -/
def Dev.commit (d : Dev) (g : Nat) : Dev := (((d.copyShadows g).regionNotes d g).commitGov g).swapStep g

/-- COMMIT records for the schedules that a write of this device's own has changed (R586). [log 46: DEDUCED] -/
def Dev.commitRecords (old d : Dev) : Dev :=
  (rangeFrom 1 15).foldl (fun d g =>
    if old.rd64 (commitAt g) = d.rd64 (commitAt g) ∧ old.rdN (commitCtrl g) = d.rdN (commitCtrl g) then d
    else if (d.pair.commitFrom.find g).isSome then { d with pair := { d.pair with commitFrom := d.pair.commitFrom.erase g } }
    else if d.bit (reg .prl 0 0x120) g then
      let d := d.mirror 0 7 ([byteN g, 0, 0, 0] ++ toBE 8 (d.rd64 (commitAt g)) ++ toBE 4 (d.rdN (commitCtrl g)))
      { d with pair := { d.pair with commitOwn := d.pair.commitOwn.put g d.turn } }
    else d) d

/-- Step 2 of R123. -/
def Dev.commitZero (d : Dev) : Dev := Dev.commitRecords d (d.commit 0)

/-- The groups that commit at this boundary beside group 0, with the turns they are scheduled for, in order: those in NEXT
mode count as scheduled for it. -/
def Dev.dueGroups (d : Dev) : List (Nat × Nat) :=
  let gs := (rangeFrom 1 15).filterMap fun g =>
    if !d.bit (commitCtrl g) 1 then some (d.turn, g)
    else if d.bit (commitCtrl g) 0 ∧ d.rd64 (commitAt g) ≤ d.turn then some (d.rd64 (commitAt g), g)
    else none
  sortBy (fun a b => decide (a.1 < b.1 ∨ (a.1 = b.1 ∧ a.2 ≤ b.2))) gs

/-- TRN_COMMIT_STATUS of a group. -/
def commitStat (g : Nat) : Nat := reg .trn 0 (0x308 + 0x10 * g)

/-- A scheduled commit is recorded (R130); at a step boundary `from_` is the first skipped turn, or the landing turn. -/
def Dev.commitNote (d : Dev) (g at_ : Nat) (from_ : Option Nat) : Dev :=
  let d := ((d.setFld (commitCtrl g) 0 1 0).setFld (commitCtrl g + 0x8000) 0 1 0).wr64 (reg .trn 0 (0x300 + 0x10 * g)) (d.turn % p64)
  let d := d.setFld (commitStat g) 16 16 (d.fld (commitStat g) 16 16 + 1)
  let late := match from_ with
    | some f => decide (at_ < f)
    | none => decide (at_ < d.turn)
  let d := if from_.isSome then d.setFld (commitStat g) 1 1 1 else d
  let d := if late then (d.setFld (commitStat g) 0 1 1).raise .trn 0 0 9 else d
  d.raise .trn 0 0 8

/-- Step 3 of R123. -/
def Dev.commitsStep (d : Dev) (from_ : Option Nat) : Dev :=
  d.dueGroups.foldl (fun d q =>
    let scheduled := d.bit (commitCtrl q.2) 1
    let d := d.commit q.2
    if scheduled then d.commitNote q.2 q.1 from_ else d) d

/-- Step 4 of R123: the retained set released once no pass uses it, whether it was retained or still active when the pass was
admitted (R137). -/
def Dev.releaseStep (d : Dev) : Dev :=
  match d.retained with
  | none => d
  | some rs =>
    let used := (rangeFrom 0 8).any fun p => ((d.pipe p).marks ++ (d.pipe p).ready).any fun x => decide (x.rules.activeAt = rs.activeAt)
    if d.rd64 (reg .trn 0 0x130) < d.turn ∧ ¬ used then
      ({ d with retained := none, stageFill := true } : Dev).wr64 (reg .trn 0 0x130) 0
    else d

/-- Step 5 of R123. -/
def Dev.refillStep (d : Dev) : Dev :=
  (rangeFrom 0 8).foldl (fun d p => d.setPipe p { d.pipe p with admitted := 0, lookups := 0, deferred := false, refused := [] }) d

/-- Step 6 of R123: the open masks and the heartbeat. -/
def Dev.gatesStep (d : Dev) : Dev :=
  ((rangeFrom 0 4).foldl (fun d n => d.setPort n { d.port n with openMask := d.openAt n d.turn }) d).sendHeartbeat

/-! ### What other chapters tie to a boundary -/

/-- A pipeline at a boundary: it leaves service, is fenced, or enters service (R236, R610, R613, R671). -/
def Dev.pipeStep (d : Dev) (p : Nat) : Dev :=
  let q := d.pipe p
  let ok := d.accepts .prs p && d.accepts .cls p && d.accepts .act p
  if !d.pipeAlive p then d.setPipe p { q with inService := false }
  else if q.fault.isSome then d.pipeFence p
  else if ok then d.setPipe p { q with inService := true, leatUntil := none }
  else d.pipeWithdraw p

/-- Every pipeline at a boundary, then the first passes of those out of service. -/
def Dev.pipesStep (d : Dev) : Dev := (rangeFrom 0 8).foldl Dev.resteer ((rangeFrom 0 8).foldl Dev.pipeStep d)

/-- A block engine at a boundary (R39, R671). -/
def Dev.engineStep (d : Dev) (e : Nat) : Dev :=
  if d.accepts .blke e then { d with engServing := d.engServing.set e true false }
  else if d.engServing.getD e false then d.engineWithdraw e
  else d

/-- A narrow volume returns to its home engine at the first boundary at which no command of it is in flight (R39). -/
def Dev.homeReturn (d : Dev) (v : Nat) (x : Vol) : Dev :=
  if x.homing ∧ d.accepts .blke (vrEngine x.rec_) ∧ (d.qcmds.all fun c => decide (c.vol ≠ v) || !c.started || c.done.isSome) then
    d.setVol v { x with eng := vrEngine x.rec_, homing := false }
  else d

/-- Volumes created since the last boundary exist (R470), volumes return to their home engines, and those that may not be in service
leave it (R39); stores hear a Keep Alive, and commands that waited for them are sent (R441, R442). -/
def Dev.volumesStep (d : Dev) : Dev :=
  let d := d.stores.keys.foldl (fun d s => if d.storeReadable s && d.storeReach s then d.storeAlive s else d) d
  let d := d.vols.keys.foldl (fun d v => match d.vols.find v with
    | some x =>
      if x.fresh then (d.setVol v { x with fresh := false }).blkEvent 0x72 0 0xFF v (vrState x.rec_) 0xFF 0 0 0 0 0xFF
      else d.homeReturn v x
    | none => d) d
  d.volsServed.ioPump

/-- Table `t` at a boundary (R313): READY once its region is zeroed, OFF once it is drained. -/
def Dev.tableStep (d : Dev) (t : Nat) : Dev :=
  let x := d.table t
  if !x.initDone then d
  else match x.state with
    | .init => d.setTable t { x with state := .ready, initDone := false, swept := d.bounds - 1, scrubbed := d.bounds - 1 }
    | .draining => (d.tabForget t).setTable t {}
    | _ => d

/-- A port at a boundary: FAULT goes to TRAINING (R567); its egress records are written. [log 76: DESIGN CHOICE] -/
def Dev.portStep (d : Dev) (n : Nat) : Dev :=
  let d := d.recordsWrite n 64
  if (d.port n).link = .fault then d.linkTo n .training false else d

/-- The primary manager moves to the link that has not gone down (R70). -/
def Dev.ownerStep (d : Dev) : Dev :=
  match d.ownerMove with
  | some k => (({ d with ownerMove := none } : Dev).setFld (reg .sys 0 0x120) 0 1 (1 - k)).raise .sys 0 0 8
  | none => d

/-- Everything the other chapters do at a boundary. -/
def Dev.unitsStep (d : Dev) : Dev :=
  let d := d.ownerStep.switchDue.vfBoundaries.withdraw.throttleStep.pipesStep
  let d := (rangeFrom 0 4).foldl Dev.engineStep d
  let d := (rangeFrom 0 16).foldl Dev.laneMove d
  let d := (rangeFrom 0 16).foldl Dev.tableStep d.volumesStep
  (((rangeFrom 0 5).foldl Dev.portStep d).handoverNext.blkPump).fetchKick

/-! ### The boundary -/

/-- The entry into turn `n`; at a step boundary `from_` is the first turn after the last one issued (R122, R123, R143). -/
def Dev.enter (d : Dev) (n : Nat) (from_ : Option Nat) : Dev :=
  let d := (rangeFrom 0 8).foldl Dev.actFinish d
  let d : Dev := { d with turn := n, bounds := d.bounds + 1, extended := false }
  let d := (d.snapshotStep.commitZero.commitsStep from_).releaseStep.refillStep.gatesStep
  d.unitsStep

/-- The passes in flight that satisfy `f` are exempt from the bound of R127. -/
def Dev.exemptWhere (d : Dev) (f : Pass → Bool) : Dev :=
  let mark (x : Pass) : Pass := if f x then { x with exempt := true } else x
  { d with pipes := d.pipes.mapVal fun _ q => { q with marks := q.marks.map mark, ready := q.ready.map mark } }

/-- Passes in flight are admitted before a step boundary (R127). -/
def Dev.exemptAll (d : Dev) : Dev := d.exemptWhere fun _ => true

/-- The present turn is extended: no pass admitted in it is under the bound (R119, R127). -/
def Dev.extendTurn (d : Dev) : Dev := { d.exemptWhere fun x => decide (x.admitted = d.turn) with extended := true }

/-- A step boundary into a later turn `n` (R143). [log 41: DEDUCED] -/
def Dev.stepInto (d : Dev) (n : Nat) : Dev :=
  let l := d.turn
  let d := (d.exemptAll.wr64 (reg .trn 0 0x118) ((n - l - 1) % p64)).enter n (some (l + 1))
  d.raise .trn 0 0 14

/-- The turn number of a time (R117). -/
def Dev.turnAt (d : Dev) (t : TimeSt) : Nat := t.ns / d.period

/-- A jump of device time forward: a step boundary where it lies in a later turn (R143, R144). -/
def State.jumped (s : State) : State :=
  let n := s.dev.turnAt s.time
  if s.dev.turn < n then { s with dev := s.dev.stepInto n } else s

/-- TURN_BOUNDARY (R117, R118, R121, R123): `cycles` of the time clock pass, and the next turn is entered when device time has
reached it. [log 42: DEDUCED] -/
def execTurnBoundary (cycles : Nat) (s : State) : Host.Outcome State Fault Refusal :=
  s.run fun s =>
    let s := s.setTime (s.time.advance cycles)
    if s.dev.turn < s.dev.turnAt s.time then { s with dev := s.dev.enter (s.dev.turn + 1) none } else s

/-- STAGE_OPEN (R137): the freed copy has been filled with the active set. [log 44: DESIGN CHOICE] -/
def execStageOpen (s : State) : Host.Outcome State Fault Refusal :=
  s.act fun d =>
    if d.stageFill then ({ d with staged := some d.active, stageFill := false } : Dev).raise .trn 0 0 12 else d

/-- A write of TRN_PERIOD (R118, R119). [log 43: DEDUCED] -/
def State.periodW (s : State) (t : Tgt) : State :=
  let d := s.dev
  if s.time.valid then { s with dev := d.refuse t 0x0201 }
  else
    let d' := d.store t
    if d'.period = d.period then { s with dev := d' }
    else
      let n := d'.turnAt s.time
      { s with dev := if d.turn < n then d'.stepInto n else d'.extendTurn }

/-- A write of a party with an effect on time and device. -/
def State.ownWrite (s : State) (pt : Party) (off width v : Nat) (f : State → Tgt → State) : State :=
  match s.dev.writeCheck pt off width v with
  | .error d => { s with dev := d }
  | .ok t => f s t

/-- PERIOD_CHANGE (R118, R119): a write of TRN_PERIOD. -/
def execPeriodChange (pt : Party) (v : BitVec 32) (s : State) : Host.Outcome State Fault Refusal :=
  s.run fun s => s.ownWrite pt (reg .trn 0 0x100) 4 v.toNat State.periodW

end Sys2Proof.Machine
end

