-- ==== Sys2Proof/Machine/Time.lean ====
section
/-! DEFINITION. The time counter and the servo, pulse outputs and capture inputs (R75 to R95, R110 to R116) as commands. -/

namespace Sys2Proof.Machine

/-! ### Writes of the servo registers (R79 to R85, R91) -/

/-- A write to a servo register: refused to a party that is not the servo owner (R80). [log 32: DEDUCED] -/
def State.servoW (s : State) (t : Tgt) (f : State → State) : State :=
  if s.dev.servoOwner t.acc.pt then f s else { s with dev := s.dev.refuse t 0x0101 }

/-- A servo write that is refused by its value. -/
def State.refused (s : State) (t : Tgt) (code : Nat) : State := { s with dev := s.dev.refuse t code }

/-- A write of TIM_INCR (R79, R81). -/
def State.incrW (s : State) (t : Tgt) : State :=
  s.servoW t fun s =>
    let v := t.merge s.time.incr
    if incrOk v then s.setTime ({ s.time with incr := v } : TimeSt).update else s.refused t 0x0001

/-- A write of TIM_SLEW_INCR (R79, R81). -/
def State.slewIncrW (s : State) (t : Tgt) : State :=
  s.servoW t fun s =>
    let v := t.merge s.time.slewIncr
    if incrOk v then s.setTime ({ s.time with slewIncr := v } : TimeSt).update else s.refused t 0x0001

/-- What the fantail times in device time after the counter has jumped by `n` units of it: an Announce message is as old as it
was (R96). -/
def FtSt.jump (f : FtSt) (n : Nat) : FtSt :=
  { f with masters := f.masters.map fun x => { x with last := x.last + ((n / 65536 : Nat) : Int) } }

/-- The counter has been moved forward: pulse outputs, then the turns passed over (R113, R143). -/
def State.forward (s : State) (t : TimeSt) : State :=
  let (t, d) := tpoJumps (t, { s.dev with ft := s.dev.ft.jump (t.count - (s.time.advance 1).count) })
  (({ s with dev := d } : State).setTime t).jumped

/-- A forward offset of `n` units of the counter: set against the remaining offset first (R83); the excess is applied in the
next cycle of the time clock, after its addition (R82, R86).  An offset of zero moves nothing and is a servo update all the same
(R91). [log 4: DESIGN CHOICE] [log 209: DEDUCED] -/
def State.stepUp (s : State) (n : Nat) : State :=
  let t := s.time
  let back := min n t.remain
  let u : TimeSt := ({ t with remain := t.remain - back } : TimeSt).update
  if n = back then s.setTime u
  else
    let u := u.advance 1
    s.forward { u with count := u.count + (n - back) }

/-- The value of a TIM_STEP write. -/
def stepValue (v : Nat) : Int := (w64 v).toInt

/-- A write of TIM_STEP (R82, R83). -/
def State.stepW (s : State) (t : Tgt) : State :=
  s.servoW t fun s =>
    let v := stepValue t.acc.data
    if v < -(2 ^ 40 : Int) ∨ (2 ^ 40 : Int) < v then s.refused t 0x0001
    else if v < 0 then s.setTime ({ s.time with remain := s.time.remain + v.natAbs * nsUnit } : TimeSt).update
    else s.stepUp (v.natAbs * nsUnit)

/-- A write of TIM_LOAD0 (R84). -/
def State.load0W (s : State) (t : Tgt) : State :=
  s.servoW t fun s => s.setTime ({ s.time with load0 := w64 (t.data &&& t.row.rw) } : TimeSt).update

/-- The counter a load stands for, with FRAC zero; an NS above 999,999,999 carries into the seconds.
[log 175: DESIGN CHOICE] -/
def loadCount (load0 hi : Nat) : Nat :=
  (((hi % 65536) * p32 + load0 / p32) * secNs + load0 % 2 ^ 30) * nsUnit

/-- The counter as the next cycle of the time clock leaves it before a load of that cycle (R86). -/
def State.nextCount (s : State) : Nat := (s.time.advance 1).count

/-- The counter loaded with a time that is not earlier, in the next cycle after its addition (R84, R86). -/
def State.loadTo (s : State) (c : Nat) : State :=
  s.forward ({ s.time.advance 1 with count := c, remain := 0 } : TimeSt).update

/-- A write of TIM_LOAD1 (R84). [log 4: DESIGN CHOICE] -/
def State.load1W (s : State) (t : Tgt) : State :=
  s.servoW t fun s =>
    let c := loadCount s.time.load0.toNat t.acc.data
    if c < s.nextCount then s.refused t 0x0102 else s.loadTo c

/-- A write of TIM_SLEW_CYCLES (R85). -/
def State.slewCyclesW (s : State) (t : Tgt) : State :=
  s.servoW t fun s => s.setTime ({ s.time with slewLeft := t.acc.data % p32 } : TimeSt).update

/-- A write of TIM_SERVO_KICK (R88). -/
def State.kickW (s : State) (t : Tgt) : State := s.servoW t fun s => s.setTime s.time.update

/-- TIM_INCR_WRITE (R79): `o` is 0, or 4 for the high half. -/
def execTimIncrWrite (pt : Party) (o width : Nat) (v : BitVec 64) (s : State) : Host.Outcome State Fault Refusal :=
  s.run fun s => s.ownWrite pt (reg .tim 0 (0x120 + o % 8)) width v.toNat State.incrW

/-- TIM_SLEW_INCR_WRITE (R79). -/
def execTimSlewIncrWrite (pt : Party) (o width : Nat) (v : BitVec 64) (s : State) : Host.Outcome State Fault Refusal :=
  s.run fun s => s.ownWrite pt (reg .tim 0 (0x138 + o % 8)) width v.toNat State.slewIncrW

/-- TIM_STEP (R82, R83). -/
def execTimStep (pt : Party) (o width : Nat) (v : BitVec 64) (s : State) : Host.Outcome State Fault Refusal :=
  s.run fun s => s.ownWrite pt (reg .tim 0 (0x128 + o % 8)) width v.toNat State.stepW

/-- TIM_LOAD (R84). -/
def execTimLoad (pt : Party) (v : BitVec 32) (s : State) : Host.Outcome State Fault Refusal :=
  s.run fun s => s.ownWrite pt (reg .tim 0 0x150) 4 v.toNat State.load1W

/-- TIM_SLEW_START (R85). -/
def execTimSlewStart (pt : Party) (v : BitVec 32) (s : State) : Host.Outcome State Fault Refusal :=
  s.run fun s => s.ownWrite pt (reg .tim 0 0x140) 4 v.toNat State.slewCyclesW

/-- SERVO_KICK (R88). -/
def execServoKick (pt : Party) (v : BitVec 32) (s : State) : Host.Outcome State Fault Refusal :=
  s.run fun s => s.ownWrite pt (reg .tim 0 0x154) 4 v.toNat State.kickW

/-- SLEW_DONE (R85, R86, R90): the time clock has run until the slew has run down. [log 47: DESIGN CHOICE] -/
def execSlewDone (s : State) : Host.Outcome State Fault Refusal :=
  s.run fun s => if s.time.slewLeft = 0 then s else s.setTime (s.time.advance s.time.slewCycles)

/-- ABSORB_DONE (R83, R86, R90): the time clock has run until the remaining offset is absorbed. -/
def execAbsorbDone (s : State) : Host.Outcome State Fault Refusal :=
  s.run fun s => if s.time.remain = 0 then s else s.setTime (s.time.advance s.time.absorbCycles)

/-! ### Ownership, holdover, suspicion (R89 to R95) -/

/-- A write of TIM_CTRL: VALID_SET judged on OWNER before the write, then OWNER (R89, R92, R95). -/
def State.timCtrlW (s : State) (t : Tgt) : State :=
  let old := s.dev.hostOwner
  let s := if old && bitOf t.data 1 then
      let s := s.setTime s.time.lock
      { s with dev := s.dev.raise .tim 0 0 10 }
    else s
  let s := { s with dev := s.dev.store t }
  let new := s.dev.hostOwner
  if old = new then s
  else
    let s := { s with dev := { s.dev with ft := {} } }
    s.setTime { s.time with servo := cond new Servo.host (cond s.time.valid Servo.acquiring Servo.unset), inLock := 0, outLock := 0 }

/-- TIM_OWNER_CHANGE (R92, R95): a write of TIM_CTRL. -/
def execTimOwnerChange (pt : Party) (v : BitVec 32) (s : State) : Host.Outcome State Fault Refusal :=
  s.run fun s => s.ownWrite pt (reg .tim 0 0x100) 4 v.toNat State.timCtrlW

/-- VALID_SET (R89, R93): a write of TIM_CTRL with VALID_SET. [log 33: DEDUCED] -/
def execValidSet (pt : Party) (v : BitVec 32) (s : State) : Host.Outcome State Fault Refusal :=
  s.run fun s => s.ownWrite pt (reg .tim 0 0x100) 4 (putBits v.toNat 1 1 1) State.timCtrlW

/-- HOLDOVER_TIMEOUT (R91, R95): no servo update has come within TIM_HOLD_TIMEOUT. -/
def execHoldoverTimeout (s : State) : Host.Outcome State Fault Refusal :=
  s.run fun s =>
    let t := s.time
    if t.holdover then s
    else s.setTime { t with holdover := true, holdLong := false, slewLeft := 0, servo := match t.servo with
      | .unset | .acquiring | .locked => .holdover
      | x => x }

/-- HOLD_LIMIT_EXPIRE (R93): holdover has lasted TIM_HOLD_LIMIT seconds. -/
def execHoldLimitExpire (s : State) : Host.Outcome State Fault Refusal :=
  s.run fun s => if s.time.holdover then s.setTime { s.time with holdLong := true } else s

/-! ### Pulse outputs (R110 to R113) -/

/-- TIM_TPO_WIDTH of an output. -/
def Dev.tpoWidth (d : Dev) (n : Nat) : Nat := d.rdN (tpoReg n + 4)

/-- START of an output as a value of the counter. -/
def Dev.tpoStart (d : Dev) (n : Nat) : Nat := loadCount (d.rd64 (tpoReg n + 8)) (d.fld (tpoReg n) 16 16)

/-- The configuration of an output lies within the limits of R111. -/
def Dev.tpoOk (d : Dev) (n : Nat) : Bool :=
  let w := d.tpoWidth n
  let p := d.rd64 (tpoReg n + 0x10) / p32
  decide (4 ≤ w) && (if d.bit (tpoReg n) 1 then decide (16 ≤ p ∧ w + 4 ≤ p) else decide (w ≤ 1000000000))

/-- The first edge of an output enabled now; none for a one-shot in the past (R112). -/
def firstEdge (start period now : Nat) (periodic : Bool) : Option Nat :=
  if now ≤ start then some start
  else if periodic then some (start + ceilDiv (now - start) period * period)
  else none

/-- The output number of a TIM register. -/
def tpoNum (x : Nat) : Nat := (x - 0x200) / 0x20

/-- A write of TIM_TPO_CTRL (R111, R112). [log 38: DEDUCED] -/
def State.tpoCtrlW (s : State) (t : Tgt) : State :=
  let n := tpoNum t.x
  let was := s.dev.bit (tpoReg n) 0
  let d := s.dev.store t
  if d.bit (tpoReg n) 0 = was then { s with dev := d }
  else if was then { s with dev := d, time := s.time.setTpo n {} }
  else if !d.tpoOk n then { s with dev := (d.setFld (tpoReg n) 0 1 0).refuse t 0x0103 }
  else match firstEdge (d.tpoStart n) (d.tpoPeriod n) s.time.count (d.bit (tpoReg n) 1) with
    | some e => { s with dev := d, time := s.time.setTpo n { next := some e } }
    | none => { s with dev := (d.setFld (tpoReg n + 0x18) 2 1 1).raise .tim 0 0 (24 + n) }

/-- A write of WIDTH, START or PERIOD of an output (R111). -/
def tpoTimingW (d : Dev) (t : Tgt) : Dev := if d.bit (tpoReg (tpoNum t.x)) 0 then d.refuse t 0x0104 else d.store t

/-- A write of TIM_TPO_STATUS: SKIPPED is cleared with LATE and MISSED (R110). -/
def tpoStatusW (d : Dev) (t : Tgt) : Dev := if t.data &&& 6 ≠ 0 then (d.store t).setFld t.key 16 16 0 else d.store t

/-- TPO_ENABLE (R111, R112): a write of TIM_TPO_CTRL of output `n`. -/
def execTpoEnable (pt : Party) (n : Nat) (v : BitVec 32) (s : State) : Host.Outcome State Fault Refusal :=
  s.run fun s => s.ownWrite pt (tpoReg (n % 8)) 4 v.toNat State.tpoCtrlW

/-- Passes of R86 until the counter has reached `c`. -/
def TimeSt.passesTo (t : TimeSt) (c : Nat) : Nat :=
  let need := c - t.count
  let k1 := ceilDiv t.remain t.takeMax
  let g1 := k1 * t.incr - t.remain
  if need ≤ g1 then min (ceilDiv need (t.incr - t.takeMax)) k1
  else if need - g1 ≤ t.slewLeft * t.slewIncr then k1 + ceilDiv (need - g1) t.slewIncr
  else k1 + t.slewLeft + ceilDiv (need - g1 - t.slewLeft * t.slewIncr) t.incr

/-- The time clock runs until the counter has reached `c`. [log 37: DEDUCED] -/
def TimeSt.reach (t : TimeSt) (c : Nat) : TimeSt := t.advance (ceilDiv (t.passesTo c) t.perCycle)

/-- TPO_EDGE (R112): device time reaches the scheduled time of output `n`, and its active edge is driven. -/
def execTpoEdge (n : Nat) (s : State) : Host.Outcome State Fault Refusal :=
  s.run fun s =>
    match (s.time.tpoAt n).next with
    | some e =>
      let t := s.time.reach e
      s.setTime (t.setTpo n { next := if s.dev.bit (tpoReg n) 1 then some (e + s.dev.tpoPeriod n) else none, pulse := some e })
    | none => s

/-- TPO_PULSE_END (R90, R112): device time reaches the edge time plus WIDTH; a one-shot clears EN. -/
def execTpoPulseEnd (n : Nat) (s : State) : Host.Outcome State Fault Refusal :=
  s.run fun s =>
    match (s.time.tpoAt n).pulse with
    | some e =>
      let t := s.time.reach (e + s.dev.tpoWidth n * nsUnit)
      let s := s.setTime (t.setTpo n { t.tpoAt n with pulse := none })
      if s.dev.bit (tpoReg n) 1 then s
      else { s with dev := (s.dev.setFld (tpoReg n) 0 1 0).raise .tim 0 0 (24 + n) }
    | none => s

/-- TIM_TPO_STATUS with ACTIVE. [log 39: DEDUCED] -/
def State.tpoStatus (s : State) (n : Nat) : Nat :=
  putBits (s.dev.rdN (tpoReg n + 0x18)) 0 1 (b2n (s.time.tpoAt n).pulse.isSome)

/-- The level ball TPOn drives: active while the pulse is driven, high or low by POLARITY (R110 to R112). -/
def State.tpoLevel (s : State) (n : Nat) : Bool := (s.time.tpoAt n).pulse.isSome ^^ s.dev.bit (tpoReg n) 2

/-! ### Capture inputs (R114 to R116) -/

/-- TIM_TCI_CTRL of an input. -/
def tciReg (n : Nat) : Nat := reg .tim 0 (0x300 + 0x20 * n)

/-- The FIFO of an input. -/
def TimeSt.fifo (t : TimeSt) (n : Nat) : List TciEntry := t.tciFifo.getD n []

/-- The entry of an edge now: the exact count, of the times within 4 ns that R115 allows. [log 176: DESIGN CHOICE] -/
def State.tciEntry (s : State) (rising : Bool) : TciEntry :=
  let c := tsOf s.time.count
  { sec := c.sec, ns := c.ns, frac16 := c.frac, rising := rising, suspect := s.suspect }

/-- TCI_EDGE (R90, R114, R115): an edge at input `n`; one less than 8 ns after the last is not lost.
[log 176: DESIGN CHOICE] -/
def execTciEdge (n : Nat) (rising : Bool) (s : State) : Host.Outcome State Fault Refusal :=
  s.run fun s =>
    if !s.dev.bit (tciReg n) (if rising then 0 else 1) then s
    else
      let q := s.time.fifo n
      if q.length < 16 then
        let d := if q = [] then s.dev.raise .tim 0 0 (16 + n) else s.dev
        { s with dev := d, time := { s.time with tciFifo := s.time.tciFifo.set n (q ++ [s.tciEntry rising]) [] } }
      else
        let k := tciReg n + 4
        let d := s.dev.setFld k 8 1 1
        let d := d.setFld k 16 16 (min 65535 (d.fld k 16 16 + 1))
        { s with dev := d.raise .tim 0 0 (20 + n) }

/-- TIM_TCI_DATA0 of an entry. -/
def TciEntry.data0 (e : TciEntry) : Nat :=
  e.ns + p32 * e.frac16 + 2 ^ 48 * b2n e.rising + 2 ^ 49 * b2n e.suspect + 2 ^ 63

/-- A read of TIM_TCI_DATA0 of an input (R116).  An empty FIFO shows VALID = 0, beside it zero until the first capture has
been read (R114) and then a value that is left open in the fields of the entry. -/
def State.tciPop (s : State) (n : Nat) : State × Nat :=
  match s.time.fifo n with
  | e :: q =>
    ({ s with time := { s.time with tciFifo := s.time.tciFifo.set n q [], tciHold := s.time.tciHold.put n e } }, e.data0)
  | [] =>
    if (s.time.tciHold.find n).isNone then (s, 0)
    else let (d, x) := s.dev.drawFree; ({ s with dev := d }, x % 2 ^ 50)

/-- TIM_TCI_DATA1 of an input. -/
def State.tciData1 (s : State) (n : Nat) : Nat :=
  match s.time.tciHold.find n with
  | some e => e.sec
  | none => 0

/-- TIM_TCI_STATUS with COUNT. -/
def State.tciStatus (s : State) (n : Nat) : Nat := putBits (s.dev.rdN (tciReg n + 4)) 0 5 (s.time.fifo n).length

/-- A write of TIM_TCI_STATUS: DISCARDED is cleared with OVERFLOW (R114). -/
def tciStatusW (d : Dev) (t : Tgt) : Dev := if bitOf t.data 8 then (d.store t).setFld t.key 16 16 0 else d.store t

/-- A read of a party with an effect on time and device: the value read, or zero where the read has an error. -/
def State.ownRead (s : State) (pt : Party) (off width : Nat) (f : State → Tgt → State × Nat) : State :=
  match s.dev.readCheck pt off width with
  | (d, some t) =>
    let (s, v) := f { s with dev := d } t
    { s with dev := s.dev.emit (.readData pt (w64 (t.view v))) }
  | (d, none) => { s with dev := d.emit (.readData pt 0) }

/-- TCI_READ (R47, R116): a read of TIM_TCI_DATA0 of input `n` mod 4; `n` from 4 on names the high half of the register.
[log 40: DEDUCED] -/
def execTciRead (pt : Party) (n width : Nat) (s : State) : Host.Outcome State Fault Refusal :=
  s.run fun s => s.ownRead pt (tciReg (n % 4) + 8 + n / 4 % 2 * 4) width fun s t => s.tciPop ((t.x - 0x300) / 0x20)

/-! ### The latches (R78) -/

/-- A read of TIM_NOW0: one that includes the low word captures the counter into the party's latch. -/
def State.now0Read (s : State) (t : Tgt) : State × Nat :=
  let k := partyOrder t.acc.pt
  let s := if t.half = 4 then s else { s with time := { s.time with latches := s.time.latches.set k s.time.count 0 } }
  (s, now0 (s.time.latch t.acc.pt))

/-- TIM_NOW_CAPTURE (R78): a read of the low word of TIM_NOW0. -/
def execTimNowCapture (pt : Party) (width : Nat) (s : State) : Host.Outcome State Fault Refusal :=
  s.run fun s => s.ownRead pt (reg .tim 0 0x110) width State.now0Read

end Sys2Proof.Machine
end

