-- ==== Sys2Proof/Machine/Fantail.lean ====
section
/-! DEFINITION. The fantail as commands (R95 to R99): the corrections it makes from a Sync message, and the messages it sends
(IEEE 1588-2019 with its annexes for Ethernet, UDP/IPv4 and UDP/IPv6). -/

namespace Sys2Proof.Machine

/-! ### Corrections (R91, R95, R99) -/

/-- A rate the fantail chooses, within the range of R79. -/
def rateOf (x : Nat) : Nat := 0x80000000 + x % 0x100000001

/-- A correction by rate and slew (R91, R99): TIM_INCR, a slew that departs from it by at most TIM_FT_SLEW_MAX ppm and its
length are the fantail's choice. [log 34: DESIGN CHOICE] -/
def State.ftCorrect (s : State) : State :=
  let (d, a) := s.dev.drawFree
  let incr := rateOf a
  let (d, b) := d.near incr (incr * d.fld (reg .tim 0 0x168) 0 10 / 1000000)
  let (d, c) := d.drawFree
  ({ s with dev := d } : State).setTime
    ({ s.time with incr := incr, slewIncr := min (max b 0x80000000) 0x180000000, slewLeft := c % p32 } : TimeSt).update

/-- The first offset in UNSET (R95): the master's time loaded when it is ahead, a backward step otherwise. -/
def State.ftFirst (s : State) (offset : Int) : State :=
  if offset < 0 then
    let c := (s.time.count + offset.natAbs * 65536) / nsUnit * nsUnit
    if c < s.nextCount then s.setTime s.time.update else s.loadTo c
  else s.setTime ({ s.time with remain := s.time.remain + min (offset.natAbs / 65536) (2 ^ 40) * nsUnit } : TimeSt).update

/-- Sync messages in a row within the lock threshold, and out of ten times it. -/
def lockCounts (t : TimeSt) (lim : Nat) (offset : Int) : TimeSt :=
  { t with inLock := if offset.natAbs ≤ lim then t.inLock + 1 else 0,
           outLock := if 10 * lim < offset.natAbs then t.outLock + 1 else 0 }

/-- The Sync of a selected master taken with the offset measured (R90, R91, R93, R95). The Sync that selects a master or
starts ACQUIRING is not one of the consecutive ones. [log 178: DESIGN CHOICE] -/
def State.ftTakeSync (s : State) (port : Nat) (master : DWord) (offset : Int) : State :=
  let t := s.time
  let other := decide (t.ftPort.isSome ∧ (t.ftMaster ≠ master ∨ t.ftPort ≠ some port))
  let s := s.setTime { t with ftOffset := offset, ftMaster := master, ftPort := some port }
  let s := if other then { s with dev := s.dev.raise .tim 0 0 11 } else s
  let lim := s.dev.fld (reg .tim 0 0x164) 0 16 * 65536
  match t.servo with
  | .unset =>
    let s := s.ftFirst offset
    s.setTime { s.time with servo := .acquiring, inLock := 0, outLock := 0 }
  | .acquiring =>
    let s := s.ftCorrect
    if other then s.setTime { s.time with inLock := 0, outLock := 0 }
    else
      let u := lockCounts s.time lim offset
      if 16 ≤ u.inLock then
        let s := s.setTime ({ u with servo := .locked, inLock := 0, outLock := 0 } : TimeSt).lock
        { s with dev := s.dev.raise .tim 0 0 10 }
      else s.setTime u
  | .locked =>
    let s := s.ftCorrect
    if other then s.setTime { s.time with servo := .acquiring, inLock := 0, outLock := 0 }
    else
      let u := lockCounts s.time lim offset
      if 4 ≤ u.outLock then s.setTime { u with servo := .acquiring, inLock := 0, outLock := 0 } else s.setTime u
  | .holdover =>
    let s := s.ftCorrect
    s.setTime { s.time with inLock := 0, outLock := 0 }
  | .coast | .host => s

/-- The offset of a Sync against its master in 2^-16 ns, with the path delay of its port (R88, R96). -/
def FtSt.offset (f : FtSt) (y : FtSync) : Int := y.came - y.origin - f.delay.getD y.port 0

/-- The master a Sync message comes from, when it is the one selected, on a port of PORTS (R96, R97). -/
def Dev.ftFrom (d : Dev) (y : FtSync) : Option FtMaster :=
  match d.ft.best with
  | some m => if m.port = y.port ∧ m.sender = y.sender ∧ d.ftPortOn y.port then some m else none
  | none => none

/-- A complete Sync message of those received, by port, sender and sequence number. -/
def FtSt.readySync (f : FtSt) (port sender seq : Nat) : Option (FtSync × List FtSync) :=
  takeFirst (fun y : FtSync => decide (y.port = port ∧ beNat y.sender = sender ∧ y.seq = seq)) f.ready

/-- FANTAIL_SYNC (R95 to R97): a Sync message that is complete is used, if it is of the master selected. -/
def execFantailSync (port : Nat) (sender : BitVec 80) (seq : BitVec 16) (s : State) : Host.Outcome State Fault Refusal :=
  s.run fun s =>
    let f := s.dev.ft
    match f.readySync port sender.toNat seq.toNat with
    | some (y, rest) =>
      if !s.dev.fantailRuns then s
      else match s.dev.ftFrom y with
        | some m =>
          ({ s with dev := { s.dev with ft := { f with ready := rest, last := some y } } } : State).ftTakeSync y.port
            (w64 (beNat m.gm)) (f.offset y)
        | none => { s with dev := { s.dev with ft := { f with ready := rest } } }
    | none => s

/-! ### Messages sent (R96, R97) -/

/-- A PTP message of the fantail: type, flags, correction, sequence number, control, body. [log 177: DEDUCED] -/
def Dev.ftHead (d : Dev) (n type flags corr seq ctl : Nat) (body : List Byte) : List Byte :=
  [byteN type, 0x12] ++ toBE 2 (34 + body.length) ++ [byteN (d.fld ftCtrl 8 7), 0] ++ toBE 2 flags ++ toBE 8 corr ++ zeros 4 ++
    ftIdentity n ++ toBE 2 seq ++ [byteN ctl, 0x7F] ++ body

/-- A timestamp as a field of a message. -/
def ptpStamp (t : Ts) : List Byte := toBE 6 t.sec ++ toBE 4 t.ns

/-- A UDP datagram between two addresses, with its checksum over the pseudo header `ph`. -/
def ptpUdp (ph : List Byte) (port : Nat) (m : List Byte) : List Byte :=
  let head (c : Nat) : List Byte := toBE 2 port ++ toBE 2 port ++ toBE 2 (8 + m.length) ++ toBE 2 c
  let c := checksum (ph ++ head 0 ++ m)
  head (if c = 0 then 0xFFFF else c) ++ m

/-- The frame of a message on network port `n`, by TRANSPORT: to the peer group or the general one, on the event port or the
general one.  The manual gives the fantail no IP address. [log 179: DESIGN CHOICE] -/
def Dev.ftFrame (d : Dev) (n : Nat) (peer event : Bool) (m : List Byte) : List Byte :=
  let port := if event then 319 else 320
  match d.ftTransport with
  | 0 => (if peer then [0x01, 0x80, 0xC2, 0x00, 0x00, 0x0E] else [0x01, 0x1B, 0x19, 0x00, 0x00, 0x00]) ++ macAddr n ++ [0x88, 0xF7] ++ m
  | 1 =>
    let src := toBE 4 (Config.ftIp4 n).toNat
    let dst : List Byte := if peer then [224, 0, 0, 107] else [224, 0, 1, 129]
    let udp := ptpUdp (src ++ dst ++ [0, 17] ++ toBE 2 (8 + m.length)) port m
    let ip (c : Nat) : List Byte :=
      [0x45, 0] ++ toBE 2 (20 + udp.length) ++ [0, 0, 0, 0, 1, 17] ++ toBE 2 c ++ src ++ dst
    [0x01, 0x00, 0x5E, 0x00] ++ (if peer then [0x00, 0x6B] else [0x01, 0x81]) ++ macAddr n ++ [0x08, 0x00] ++ ip (checksum (ip 0)) ++ udp
  | _ =>
    let src := toBE 16 (Config.ftIp6 n).toNat
    let dst : List Byte := if peer then [0xFF, 0x02] ++ zeros 13 ++ [0x6B] else [0xFF, 0x0E] ++ zeros 12 ++ [0x01, 0x81]
    let udp := ptpUdp (src ++ dst ++ toBE 4 (8 + m.length) ++ [0, 0, 0, 17]) port m
    [0x33, 0x33, 0x00, 0x00] ++ (if peer then [0x00, 0x6B] else [0x01, 0x81]) ++ macAddr n ++ [0x86, 0xDD] ++
      [0x60, 0, 0, 0] ++ toBE 2 udp.length ++ [17, 1] ++ src ++ dst ++ udp

/-- The next sequence number of a port and kind of request. -/
def Dev.ftSeq (d : Dev) (n : Nat) (peer : Bool) : Dev × Nat :=
  let k := 2 * n + b2n peer
  let q := d.ft.seqs.getD k 0
  ({ d with ft := { d.ft with seqs := d.ft.seqs.set k ((q + 1) % 65536) 0 } }, q)

/-- A request under way takes the place of the last one of its port and kind. -/
def FtSt.ask (f : FtSt) (q : FtReq) : FtSt :=
  { f with reqs := (f.reqs.filter fun x => !decide (x.port = q.port ∧ x.peer = q.peer)) ++ [q] }

/-- A message of the fantail sent: host traffic of the primary manager's PF0 with the address of port `n`, which waits for
cells (R37, R97, R358, R360). -/
def Dev.ftSend (d : Dev) (frame : List Byte) : Dev :=
  let (d, id) := d.fresh
  d.sendLater { id := id, data := frame, src := 8, cells := cellsFor frame.length, ingress := funcPort (pf0 d.primary), fantail := true }

/-- The oldest peer request of a port that satisfies `p`, and the others. -/
def FtSt.peerOf (f : FtSt) (n : Nat) (p : FtPeer → Bool) : Option (FtPeer × List FtPeer) :=
  takeFirst (fun x : FtPeer => decide (x.port = n) && p x) f.peers

/-- A delay request on the port of the master selected. -/
def Dev.ftDelayReq (d : Dev) (n : Nat) : Dev :=
  let (d, q) := d.ftSeq n false
  let d : Dev := { d with ft := d.ft.ask { port := n, peer := false, seq := q } }
  d.ftSend (d.ftFrame n false true (d.ftHead n 1 0 0 q 1 (zeros 10)))

/-- A peer delay request. -/
def Dev.ftPeerReq (d : Dev) (n : Nat) : Dev :=
  let (d, q) := d.ftSeq n true
  let d : Dev := { d with ft := d.ft.ask { port := n, peer := true, seq := q } }
  d.ftSend (d.ftFrame n true true (d.ftHead n 2 0 0 q 5 (zeros 20)))

/-- The two-step answer to a peer request, with the fraction of its ingress time in the correction. -/
def Dev.ftPeerResp (d : Dev) (n : Nat) (x : FtPeer) (rest : List FtPeer) : Dev :=
  let d : Dev := { d with ft := { d.ft with peers := rest ++ [{ x with sent := true }] } }
  d.ftSend (d.ftFrame n true true (d.ftHead n 3 0x200 ((p64 - x.came.frac) % p64) x.seq 5 (ptpStamp x.came ++ x.who)))

/-- The follow-up of an answer that left at `t`. -/
def Dev.ftPeerFollowUp (d : Dev) (n : Nat) (x : FtPeer) (t : Ts) (rest : List FtPeer) : Dev :=
  let d : Dev := { d with ft := { d.ft with peers := rest } }
  d.ftSend (d.ftFrame n true false (d.ftHead n 0xA 0 ((x.corr + t.frac) % p64) x.seq 5 (ptpStamp t ++ x.who)))

/-- FANTAIL_SEND (R37, R96, R97): a delay request toward the master selected, a peer delay request, or the answer to the oldest
peer request of a port. -/
def execFantailSend (m : PtpSend) (s : State) : Host.Outcome State Fault Refusal :=
  s.act fun d =>
    let on (n : Nat) : Bool := d.fantailRuns && d.ftPortOn n
    match m with
    | .delayReq n =>
      if on n && !d.ftPeerDelay && (match d.ft.best with | some m => decide (m.port = n) | none => false) then d.ftDelayReq n else d
    | .peerReq n => if on n && d.ftPeerDelay then d.ftPeerReq n else d
    | .peerResp n =>
      match d.ft.peerOf n fun x => !x.sent with
      | some (x, rest) => if on n then d.ftPeerResp n x rest else d
      | none => d
    | .peerFollowUp n =>
      match d.ft.peerOf n fun x => x.left.isSome with
      | some (x, rest) =>
        match x.left with
        | some t => if on n then d.ftPeerFollowUp n x t rest else d
        | none => d
      | none => d

end Sys2Proof.Machine
end

