-- ==== Sys2Proof/Machine/Images.lean ====
section
/-! DEFINITION. The image access registers of the rule set (R206 to R208, R240 to R242, R278, R279, R308, R309) and of
the indirection tables (R245). -/

namespace Sys2Proof.Machine

/-- The first image of a block, the words of its data registers, its IMG_BAD code (IMG_RO is the next). -/
structure ImgBlk where
  blk : Blk
  first : Nat
  words : Nat
  bad : Nat
deriving DecidableEq, Repr

/-- The parser's images. -/
def prsImg : ImgBlk := { blk := .prs, first := 0, words := 16, bad := 0x0401 }
/-- The classifier's images. -/
def clsImg : ImgBlk := { blk := .cls, first := 3, words := 48, bad := 0x0501 }
/-- The action unit's images. -/
def actImg : ImgBlk := { blk := .act, first := 9, words := 20, bad := 0x0601 }
/-- The pattern engine's images. -/
def patImg : ImgBlk := { blk := .pat, first := 12, words := 4, bad := 0x0701 }

/-- An index names an entry of an image; the port records are named by the port indices of R200. -/
def imgIndexOk (image i : Nat) : Bool :=
  if image = 2 then decide (i < 5 ∨ (0x1000 ≤ i ∧ i ≤ 0x1800) ∨ (0x2000 ≤ i ∧ i ≤ 0x2800))
  else decide (i < ([256, 4096, 0, 32, 12, 128, 16384, 16, 65536, 4096, 256, 256, 64, 256][image]?).getD 0)

/-- A parser state holds a reserved encoding (R208). -/
def badState (e : List Byte) : Bool :=
  let k := leAt e 24 4
  ((extractsOf e).any fun w => decide (bitsOf w 6 2 = 3 ∨ 111 < bitsOf w 8 7)) ||
    decide (bitsOf (byteAt e 30) 2 2 = 3) || decide (32 < bitsOf k 9 6) || decide (64 < byteAt e 28 % 128) ||
    decide (4096 < bitsOf k 16 12 + byteAt e 28 % 128)

/-- A port record holds a reserved encoding (R201, R208). -/
def badPort (e : List Byte) : Bool :=
  let dd := leAt e 4 4
  (bitOf dd 31 && decide (4 < bitsOf dd 0 3)) ||
    ((rangeFrom 0 12).any fun c => decide (6 ≤ bitsOf (leAt e (16 + 4 * c) 4) 0 3 ∧ bitsOf (leAt e (16 + 4 * c) 4) 0 3 ≤ 7))

/-- A key layout holds a reserved encoding (R242). -/
def badLayout (e : List Byte) : Bool :=
  let n := byteAt e 48
  let srcs := (rangeFrom 0 (min n 24)).map fun j => byteAt e (2 * j)
  decide (24 < n) || (srcs.any fun s => decide (147 < s)) || decide (20 < (srcs.filter fun s => decide (s < 128)).length)

/-- A stage configuration holds a reserved encoding (R242). -/
def badStage (e : List Byte) : Bool :=
  decide (2 < byteAt e 0) || decide (2 < byteAt e 8) || decide (15 < byteAt e 1) || decide (31 < byteAt e 2) ||
    decide (31 < byteAt e 3) || decide (16384 < leAt e 6 2)

/-- A partition descriptor holds a reserved encoding (R242). -/
def badPart (e : List Byte) : Bool :=
  let base := leAt e 0 2
  let kl := byteAt e 3
  bitOf (byteAt e 8) 0 &&
    (decide (base % 4 ≠ 0) || decide (14 < byteAt e 2) || decide (kl < 4 ∨ 32 < kl ∨ kl % 4 ≠ 0) ||
      decide (65536 < base + 4 * 2 ^ byteAt e 2))

/-- The operands of an instruction word hold a reserved encoding that needs no packet to see (R253, R279). -/
def badWord (w : Nat) : Bool :=
  match iw w 0 8 with
  | 0x01 => badSetField w
  | 0x02 => badAddField w
  | 0x03 => badCopyField w
  | 0x04 => badPush w
  | 0x06 => badSetPort w
  | 0x08 => badToRing w
  | 0x09 => badMirror w
  | 0x0B => badGovern w
  | 0x0D => badInspect w
  | op => decide (0x12 < op)

/-- The words of a record up to its first END hold a reserved encoding (R279). -/
def badWords : List Nat → Bool
  | [] => false
  | w :: ws => if iw w 0 8 = 0 then false else badWord w || badWords ws

/-- A header template holds a reserved encoding (R279). -/
def badTemplate (e : List Byte) : Bool :=
  decide (64 < templateLen e) ||
    ((descsOf e).any fun q => decide (5 < q.1) || decide (templateLen e < q.2 + leastSize q.1))

/-- A binding entry holds a reserved encoding (R298, R309). -/
def badBinding (e : List Byte) : Bool :=
  decide (16384 < leAt e 8 2 % 32768) || decide (111 < byteAt e 11 % 128) || decide (111 < byteAt e 12 % 128) ||
    (bitOf (byteAt e 0) 1 && !bitOf (byteAt e 0) 2)

/-- The contents of an entry hold a reserved encoding. -/
def Dev.badEntry (d : Dev) (image : Nat) (e : List Byte) : Bool :=
  match image with
  | 0 => badState e
  | 2 => badPort e
  | 3 => badLayout e
  | 4 => badStage e
  | 5 => decide (127 < byteAt e 8)
  | 7 => badPart e
  | 9 => badWords ((rangeFrom 0 6).map fun i => leAt e (8 * i) 8)
  | 10 => badTemplate e
  | 11 => decide (5 ≤ byteAt e 0 % 16)
  | 12 => decide (leAt e 0 2 ≠ 0) && (d.images.find (leAt e 0 2)).isNone
  | 13 => badBinding e
  | _ => false

/-- A write of an image command register (R207, R208); an INDEX that names no entry is IMG_BAD for a copy that is absent too.
[log 212: DESIGN CHOICE] -/
def imgW (k : ImgBlk) (d : Dev) (t : Tgt) : Dev :=
  let b := t.loc.instBase
  let v := t.acc.data % 4
  let image := k.first + d.fld (b + 0x100) 0 (if k.blk = .cls then 3 else 2)
  let copy := d.fld (b + 0x100) 4 2
  let i := d.fld (b + 0x104) 0 16
  if v = 3 then d.refuse t 0x0001
  else if v = 2 then
    let set := if copy = 0 then d.staged else if copy = 1 then some d.active else d.retained
    if imgIndexOk image i then
      let e := match set with | some rs => rs.entry image i | none => []
      d.wrWords (b + 0x140) (slice e 0 (4 * k.words)) k.words
    else (d.wrWords (b + 0x140) (zeros (4 * k.words)) k.words).refuse t k.bad
  else if v = 1 then
    if copy ≠ 0 then d.refuse t (k.bad + 1)
    else if !imgIndexOk image i then d.refuse t k.bad
    else match d.staged with
      | none => d.refuse t 0x0202
      | some rs =>
        let e := slice ((rangeFrom 0 k.words).flatMap fun j => toLE 4 (d.rdN (b + 0x140 + 4 * j))) 0 (imgBytes image)
        if d.badEntry image e then d.refuse t k.bad else { d with staged := some (rs.setEntry image i e) }
  else d

/-- A write of a party to the command register of an image block of pipeline `p`, with one of its bits set. -/
def Dev.imgCmd (d : Dev) (k : ImgBlk) (pt : Party) (p bit : Nat) (v : BitVec 32) : Dev :=
  d.ownWrite pt (reg k.blk p 0x108) 4 (putBits v.toNat bit 1 1) (imgW k)

/-- PRS_IMG_READ (R207). -/
def execPrsImgRead (pt : Party) (p : Nat) (v : BitVec 32) (s : State) : Host.Outcome State Fault Refusal :=
  s.onDev fun d => d.imgCmd prsImg pt p 1 v

/-- PRS_IMG_WRITE (R208). -/
def execPrsImgWrite (pt : Party) (p : Nat) (v : BitVec 32) (s : State) : Host.Outcome State Fault Refusal :=
  s.onDev fun d => d.imgCmd prsImg pt p 0 v

/-- CLS_IMG_READ (R242). -/
def execClsImgRead (pt : Party) (p : Nat) (v : BitVec 32) (s : State) : Host.Outcome State Fault Refusal :=
  s.onDev fun d => d.imgCmd clsImg pt p 1 v

/-- CLS_IMG_WRITE (R242). -/
def execClsImgWrite (pt : Party) (p : Nat) (v : BitVec 32) (s : State) : Host.Outcome State Fault Refusal :=
  s.onDev fun d => d.imgCmd clsImg pt p 0 v

/-- ACT_IMG_READ (R279). -/
def execActImgRead (pt : Party) (p : Nat) (v : BitVec 32) (s : State) : Host.Outcome State Fault Refusal :=
  s.onDev fun d => d.imgCmd actImg pt p 1 v

/-- ACT_IMG_WRITE (R279). -/
def execActImgWrite (pt : Party) (p : Nat) (v : BitVec 32) (s : State) : Host.Outcome State Fault Refusal :=
  s.onDev fun d => d.imgCmd actImg pt p 0 v

/-- PAT_IMG_READ (R309). -/
def execPatImgRead (pt : Party) (p : Nat) (v : BitVec 32) (s : State) : Host.Outcome State Fault Refusal :=
  s.onDev fun d => d.imgCmd patImg pt p 1 v

/-- PAT_IMG_WRITE (R309). -/
def execPatImgWrite (pt : Party) (p : Nat) (v : BitVec 32) (s : State) : Host.Outcome State Fault Refusal :=
  s.onDev fun d => d.imgCmd patImg pt p 0 v

/-! ### Indirection tables (R245) -/

/-- A write of HSH_IND_CMD. [log 65: DEDUCED] -/
def hshIndW (d : Dev) (t : Tgt) : Dev :=
  let b := t.loc.instBase
  let v := t.acc.data % 4
  let sel := d.rdN (b + 0x100)
  let i := d.fld (b + 0x104) 0 12
  let core := bitOf sel 16
  let key := if core then coreInd + i else fkey ⟨bitsOf sel 12 1, bitsOf sel 0 12⟩ * 4096 + i
  if v = 3 then d.refuse t 0x0511
  else if v = 2 then d.wrN (b + 0x10C) (d.indLast key)
  else if v = 1 then d.indWrite key (if core then d.fld (b + 0x10C) 0 5 else d.fld (b + 0x10C) 0 16)
  else d

/-- HSH_IND_SEL.CORE = 1: bits 15 to 5 of HSH_IND_DATA are reserved (R245). -/
def Dev.hshCore (d : Dev) (t : Tgt) : Bool := d.bit (t.loc.instBase + 0x100) 16

/-- A write of HSH_IND_DATA (R15, R245). -/
def hshDataW (d : Dev) (t : Tgt) : Dev :=
  if d.hshCore t then d.wrN t.key (putBits (d.rdN t.key) 0 5 (t.merge (d.old t))) else d.store t

/-- HSH_IND_READ (R245). -/
def execHshIndRead (pt : Party) (p : Nat) (v : BitVec 32) (s : State) : Host.Outcome State Fault Refusal :=
  s.onDev fun d => d.ownWrite pt (reg .hsh p 0x108) 4 (putBits v.toNat 1 1 1) hshIndW

/-- HSH_IND_WRITE (R245). -/
def execHshIndWrite (pt : Party) (p : Nat) (v : BitVec 32) (s : State) : Host.Outcome State Fault Refusal :=
  s.onDev fun d => d.ownWrite pt (reg .hsh p 0x108) 4 (putBits v.toNat 0 1 1) hshIndW

end Sys2Proof.Machine
end

