-- ==== Sys2Proof/Machine/Learning.lean ====
section
/-! DEFINITION. Learn tokens and learning messages between devices (R337, R341 to R349). -/

namespace Sys2Proof.Machine

/-- LEARN_TOKEN_REFILL (R337): RATE tokens every 256 turns, at most BURST. [log 61: DESIGN CHOICE] -/
def execLearnTokenRefill (t : Nat) (s : State) : Host.Outcome State Fault Refusal :=
  s.onDev fun d =>
    let x := d.table t
    if x.refill + 256 ≤ d.bounds then
      d.setTable t { x with tokens := min (d.fld (tabReg t 0x30) 16 16) (x.tokens + d.fld (tabReg t 0x30) 0 16),
                            refill := d.bounds }
    else d

/-! ### Sending (R341, R342) -/

/-- An LRN counter. -/
def lrnCount (k : Nat) : Nat := reg .lrn 0 (0x10200 + 8 * k)

/-- Some TABLES group stands by: learning frames are neither sent nor applied (R580). -/
def Dev.lrnStandby (d : Dev) : Bool :=
  (rangeFrom 0 8).any fun g => decide (bitsOf (d.groupCfg g) 0 3 = 4) && d.standsBy (some g)

/-- The ports learning frames are sent on. -/
def Dev.lrnPorts (d : Dev) : List Nat := (rangeFrom 0 4).filter fun n => d.bit (reg .lrn 0 0x110) n

/-- A learning frame from its EtherType on (R342). -/
def Dev.lrnTail (d : Dev) (flags seq count : Nat) (body : List Byte) : List Byte :=
  toBE 2 (d.fld (reg .lrn 0 0x104) 0 16) ++ [1, byteN (b2n d.localOnly + 2 * b2n (decide (seq = 0)) + flags)] ++
    toBE 2 d.deviceId ++ toBE 4 seq ++ [byteN count, byteN (d.fld (reg .lrn 0 0x100) 8 8)] ++ toBE 4 d.turn ++ body

/-- The cells a learning frame takes on all of its ports are there (R360). -/
def Dev.lrnCells (d : Dev) (n : Nat) : Bool := (d.cellAlloc 9 (cellsFor n * d.lrnPorts.length)).isSome

/-- A learning frame for the queue of one port, once its cells can be had (R360); `frame` is its destination and what follows
its source. -/
def Dev.lrnPut (frame : List Byte) (d : Dev) (port : Nat) : Dev :=
  let data := frame.take 6 ++ macAddr port ++ frame.drop 6
  let (d, id) := d.fresh
  d.sendLater { id := id, data := data, src := 9, ingress := port, cells := cellsFor data.length }

/-- A learning frame sent on every enabled port. -/
def Dev.lrnEmit (d : Dev) (frame : List Byte) : Dev := (d.lrnPorts.foldl (Dev.lrnPut frame) d).bump (lrnCount 0)

/-- A new learning frame numbered, kept among the last 256, and sent (R341, R342). -/
def Dev.lrnNew (d : Dev) (flags count : Nat) (body : List Byte) : Dev :=
  let n := d.lrn.seq
  let frame := toBE 6 (d.rd64 (reg .lrn 0 0x108)) ++ d.lrnTail flags n count body
  let kept := d.lrn.sent ++ [(n, frame)]
  let d : Dev := { d with lrn := { d.lrn with seq := n + 1, sent := kept.drop (kept.length - 256) } }
  (d.wrN (reg .lrn 0 0x128) ((n + 1) % p32)).lrnEmit frame

/-- The queued records of the next frame: at most 32, within the MTU. -/
def lrnTake (mtu : Nat) : List LrnRec → Nat → Nat → List LrnRec
  | [], _, _ => []
  | r :: rs, n, size => if n < 32 ∧ size + r.bytes.length ≤ mtu then r :: lrnTake mtu rs (n + 1) (size + r.bytes.length) else []

/-- The group that covers the table of a queued record is ACTIVE. -/
def Dev.recMirrored (d : Dev) (r : LrnRec) : Bool := r.mirrored && d.groupActive (d.groupOf 4 (byteAt r.bytes 1))

/-- LRN_FRAME_SEND (R341, R342, R360). -/
def execLrnFrameSend (s : State) : Host.Outcome State Fault Refusal :=
  s.act fun d =>
    match d.lrn.queue with
    | [] => d
    | q0 :: _ =>
      let take := lrnTake (d.fld (reg .lrn 0 0x124) 0 14) d.lrn.queue 0 28
      let full := take.length < d.lrn.queue.length || decide (32 ≤ take.length)
      let held := decide (q0.turn + d.fld (reg .lrn 0 0x118) 0 8 ≤ d.bounds)
      let body := take.flatMap (·.bytes)
      if !(full || held) || take = [] || !d.accepts .lrn 0 || d.lrnStandby || !d.lrnCells (28 + body.length) then d
      else if take.any d.recMirrored && d.pairFull then d.mirrorStall
      else
        let m := (take.filter d.recMirrored).length
        let d : Dev := { d with lrn := { d.lrn with queue := d.lrn.queue.drop take.length } }
        let d := (d.lrnNew 0 take.length body).bump (lrnCount 1) take.length
        if m = 0 then d else d.mirror 0 6 (toBE 4 m)

/-! ### Records received (R343, R344) -/

/-- A record of a received frame. -/
structure RxRec where
  op : Nat
  table : Nat
  keyLen : Nat
  pinned : Bool
  at_ : Nat
  valUntil : Nat
  action : Nat
  chain : Nat
  ref : Nat
  key : List Byte
deriving DecidableEq, Repr

/-- The records of a frame body; none where one runs past it or has a reserved OP. -/
def lrnRecords (bs : List Byte) : Nat → Option (List RxRec)
  | 0 => some []
  | n + 1 =>
    let kl := byteAt bs 2
    let len := 28 + roundUp kl 4
    let op := byteAt bs 0 % 4
    if bs.length < len ∨ op = 0 then none
    else
      (lrnRecords (bs.drop len) n).map fun rs =>
        { op := op, table := byteAt bs 1 % 16, keyLen := kl, pinned := byteAt bs 3 % 2 = 1, at_ := beAt bs 4 4,
          valUntil := beAt bs 8 4, action := beAt bs 12 3, chain := beAt bs 16 4, ref := beAt bs 20 8,
          key := slice bs 28 kl } :: rs

/-- A record with its fields in host byte order (R349). -/
def RxRec.host (r : RxRec) : List Byte :=
  [byteN r.op, byteN r.table, byteN r.keyLen, byteN (b2n r.pinned)] ++ toLE 4 r.at_ ++ toLE 4 r.valUntil ++
    toLE 3 r.action ++ [0] ++ toLE 4 r.chain ++ toLE 8 r.ref ++ r.key ++ zeros (roundUp r.keyLen 4 - r.keyLen)

/-- A received frame beside its addresses. -/
structure RxFrame where
  sender : Nat
  seq : Nat
  flags : Nat
  recs : List RxRec
deriving DecidableEq, Repr

/-- A received frame read, when nothing of R344 discards it. -/
def Dev.lrnRead (d : Dev) (ingress : Nat) (f : List Byte) : Option RxFrame :=
  let c := d.rdN (reg .lrn 0 0x100)
  let sender := beAt f 16 2 % 16384
  if bitOf c 1 ∧ ingress < 4 ∧ d.bit (reg .lrn 0 0x110) (8 + ingress) ∧ 28 ≤ f.length ∧ byteAt f 14 = 1 ∧
      byteAt f 23 = bitsOf c 8 8 ∧ sender ≠ d.deviceId ∧ d.accepts .lrn 0 ∧ d.lrnStandby = false then
    (lrnRecords (f.drop 28) (byteAt f 22)).map fun rs =>
      { sender := sender, seq := beAt f 18 4, flags := byteAt f 15, recs := rs }
  else none

/-! ### Events (R349) -/

/-- An LRN event: `b3` is byte 3. -/
def Dev.lrnEvent (d : Dev) (kind table b3 sender seq detail op : Nat) (entry : List Byte) : Dev :=
  let e := entry ++ zeros (roundUp entry.length 16 - entry.length)
  (d.evtVia (reg .lrn 0 0x11C) (d.tblEvtBytes kind table b3 0 sender seq detail op e)).1

/-! ### Application (R346, R347) -/

/-- The change a record asks for at turn `a`, with its status. -/
def Dev.recChange (d : Dev) (r : RxRec) (a : Nat) : Dev × TblRes :=
  let t := r.table
  let c := d.tabCfg t
  let own := pf0 d.primary
  let n : NewEntry := { key := r.key, action := r.action, flags := 11 + 4 * b2n r.pinned, valFrom := a,
                        valUntil := r.valUntil, owner := own, chain := r.chain, ref := r.ref }
  if (d.table t).state ≠ .ready ∨ ¬ d.accepts .tbl 0 then (d, { st := 0x05 })
  else if r.keyLen ≠ c.keyLen then (d, { st := 0x01 })
  else if r.op = 3 then d.tblRefresh t own r.key
  else
    let old := (d.entryOf c r.key (turnOf d.turn a)).isSome
    if a = 0 || !d.turnOk a || (a = 0xFFFFFFFF && (r.op = 2 || old)) || (r.op = 1 && !d.untilOk r.valUntil) then (d, { st := 0x35 })
    else if r.op = 2 then d.tblDelete t own r.key a
    else if old then d.tblReplaceAt t own n a
    else d.tblInsert t n none

/-- A record applied in TRUSTED mode (R346). -/
def Dev.recApply (f : RxFrame) (d : Dev) (r : RxRec) : Dev :=
  let late := !decide (turnOf d.turn r.at_ > (d.turn : Int))
  let a := if late then (d.turn + 1) % p32 else r.at_
  let d := if late then d.bump (lrnCount 5) else d
  match d.recChange r a with
  | (d, x) =>
    if x.st ≠ 0 then
      ((d.bump (lrnCount 6)).lrnEvent 0x59 r.table x.st f.sender f.seq r.at_ r.op r.host).raise .lrn 0 0 10
    else
      let d := d.bump (lrnCount 4)
      if d.bit (tabReg r.table 0xC) 3 then
        d.tblEvent r.table (d.tblEvtBytes 0x56 r.table (2 * b2n late + 4 * (f.flags % 2)) x.loc f.sender f.seq a r.op
          ((d.tabCfg r.table).shown (d.entryAt (d.tabCfg r.table) x.loc)))
      else d

/-- A frame processed: its records applied in order, or raised for review (R346, R347). -/
def Dev.lrnProcess (d : Dev) (f : RxFrame) : Dev :=
  let c := d.rdN (reg .lrn 0 0x100)
  if bitOf c 2 ∨ (bitOf c 3 ∧ f.flags % 2 = 1) then
    f.recs.foldl (fun d r => d.lrnEvent 0x58 r.table (4 * (f.flags % 2)) f.sender f.seq r.at_ r.op r.host) d
  else f.recs.foldl (Dev.recApply f) d

/-! ### Sequence (R345, R348) -/

/-- What is kept for a sender. -/
def Dev.peer (d : Dev) (s : Nat) : LrnPeer := d.lrn.peers.getD s {}

/-- What is kept for a sender changed. -/
def Dev.setPeer (d : Dev) (s : Nat) (p : LrnPeer) : Dev := { d with lrn := { d.lrn with peers := d.lrn.peers.set s p {} } }

/-- The body of a resync request or a GONE frame (R348). -/
def resyncBody (target first last : Nat) : List Byte := toBE 2 (target % 16384) ++ zeros 2 ++ toBE 4 first ++ toBE 4 last

/-- A resync request sent. -/
def Dev.askResync (d : Dev) (s first last : Nat) : Dev := d.lrnNew 4 0 (resyncBody s first last)

/-- A held frame, kept as received, read again. -/
def rereadFrame (sender seq : Nat) (f : List Byte) : RxFrame :=
  { sender := sender, seq := seq, flags := byteAt f 15, recs := (lrnRecords (f.drop 28) (byteAt f 22)).getD [] }

/-- Held frames of a sender processed as far as they follow in order. -/
def Dev.drainHeld (d : Dev) (s : Nat) : Nat → Dev
  | 0 => d
  | n + 1 =>
    let p := d.peer s
    match p.next with
    | some e =>
      match takeFirst (fun h => h.1 = e) p.held with
      | some (h, rest) =>
        ((d.setPeer s { p with held := rest, next := some ((e + 1) % p32) }).lrnProcess (rereadFrame s h.1 h.2)).drainHeld s n
      | none => d
    | none => d

/-- A request is no longer open once everything it named has been passed. -/
def Dev.askClose (d : Dev) (s : Nat) : Dev :=
  let p := d.peer s
  match p.next, p.asked with
  | some e, some (_, l) => if sub32 l e < 2147483648 then d else d.setPeer s { p with asked := none, tries := 0 }
  | _, _ => d

/-- Frames held across all senders. -/
def Dev.heldCount (d : Dev) : Nat := d.lrn.peers.values.foldl (fun a p => a + p.held.length) 0

/-- An accepted frame sequenced (R345), and whether it was processed or held, not discarded. -/
def Dev.lrnSequence (d : Dev) (f : RxFrame) (raw : List Byte) : Dev × Bool :=
  let s := f.sender
  let p := d.peer s
  match p.next, bitOf f.flags 1 with
  | some e, false =>
    if f.seq = e then
      ((((d.setPeer s { p with next := some ((e + 1) % p32) }).lrnProcess f).drainHeld s 32).askClose s, true)
    else if sub32 f.seq e < 2147483648 then
      let room := decide (d.heldCount < 32)
      let d := if room then d.setPeer s { p with held := p.held ++ [(f.seq, raw)] } else d.bump (lrnCount 12)
      let last := sub32 f.seq 1
      let known := match p.asked with
        | some (a, l) => decide (sub32 e a < 2147483648) && decide (sub32 l last < 2147483648)
        | none => false
      if known then (d, room)
      else
        let p := d.peer s
        let d := d.setPeer s { p with asked := some (e, last), tries := 0, turn := d.bounds }
        (((d.askResync s e last).bump (lrnCount 8)).raise .lrn 0 0 8, room)
    else (d.bump (lrnCount 7), false)
  | _, _ =>
    ((d.setPeer s { p with next := some ((f.seq + 1) % p32), held := [], asked := none, tries := 0 }).lrnProcess f, true)

/-- The first number at or after `n` that no held frame has, `k` numbers tried at most. -/
def lostFirst (held : List Nat) (n : Nat) : Nat → Nat
  | 0 => n
  | k + 1 => if n ∈ held then lostFirst held ((n + 1) % p32) k else n

/-- The last number at or before `n` that no held frame has, `k` numbers tried at most. -/
def lostLast (held : List Nat) (n : Nat) : Nat → Nat
  | 0 => n
  | k + 1 => if n ∈ held then lostLast held (sub32 n 1) k else n

/-- A range of a sender given up (R348, R349), from the first to the last of its numbers that did not come: the event names
these, held frames between them go with it, and those behind are processed. [log 190: DEDUCED] -/
def Dev.giveUp (d : Dev) (s first last : Nat) : Dev :=
  let p := d.peer s
  let first := match p.next with | some e => if sub32 e first < 2147483648 then e else first | none => first
  let seqs := p.held.map (·.1)
  let first := lostFirst seqs first 33
  let last := lostLast seqs last 33
  let held := p.held.filter fun h => !decide (sub32 last h.1 < 2147483648)
  let d := d.setPeer s { p with next := some ((last + 1) % p32), held := held, asked := none, tries := 0 }
  let d := ((d.lrnEvent 0x5A 0 0 s first last 0 []).bump (lrnCount 9)).raise .lrn 0 0 9
  d.drainHeld s 32

/-- A request or a GONE frame that names this device (R348). [log 74: DEDUCED] -/
def Dev.lrnControl (d : Dev) (f : RxFrame) (raw : List Byte) : Dev :=
  let first := beAt raw 32 4
  let last := beAt raw 36 4
  if raw.length < 40 ∨ beAt raw 28 2 % 16384 ≠ d.deviceId then d
  else if bitOf f.flags 2 then if f.recs ≠ [] then d else { d with lrn := { d.lrn with resync := d.lrn.resync ++ [(f.sender, first, last)] } }
  else if bitOf f.flags 4 then
    match (d.peer f.sender).next with
    | some e => if sub32 last e < 2147483648 then d.giveUp f.sender first last else d
    | none => d
  else d

/-- LRN_FRAME_RECEIVE (R344 to R347): the oldest frame that has reached LRN. -/
def execLrnFrameReceive (s : State) : Host.Outcome State Fault Refusal :=
  s.act fun d =>
    match d.lrn.rx with
    | [] => d
    | (ingress, raw) :: rest =>
      let d0 := d
      let d : Dev := { d with lrn := { d.lrn with rx := rest } }
      match d.lrnRead ingress raw with
      | none => d.bump (lrnCount 10)
      | some f =>
        if !d.accepts .tbl 0 && !f.recs.isEmpty && !d.bit (reg .lrn 0 0x100) 2 then d0
        else if f.recs.any fun r => d.tabStalled r.table then d0.mirrorStall else
        let d := (d.bump (lrnCount 2)).bump (lrnCount 3) f.recs.length
        let (e, kept) := d.lrnSequence f raw
        let e := if kept then e.lrnControl f raw else e
        -- an eviction by chance waits while the generator of the caddy is stopped (R424)
        if e.draws ≠ d.draws && !d.entRuns 3 then d0 else e

/-- A kept frame sent again with RETRANS. -/
def Dev.lrnAgain (d : Dev) (f : Nat × List Byte) : Dev :=
  (d.lrnEmit (splice f.2 9 [byteN (byteAt f.2 9 / 16 * 16 + 8 + byteAt f.2 9 % 8)])).bump (lrnCount 11)

/-- The part of a requested range that no kept frame has, as GONE names it: the numbers before the kept ones, else those
after them. [log 190: DEDUCED] -/
def goneRange (first last : Nat) (kept : List Nat) : Option (Nat × Nat) :=
  match kept.head?, kept.getLast? with
  | some a, some b =>
    if a ≠ first then some (first, sub32 a 1) else if b ≠ last then some ((b + 1) % p32, last) else none
  | _, _ => some (first, last)

/-- LRN_RESYNC_REQUEST (R348): the oldest request received is answered. -/
def execLrnResyncRequest (s : State) : Host.Outcome State Fault Refusal :=
  s.act fun d =>
    match d.lrn.resync with
    | [] => d
    | (sender, first, last) :: rest =>
      if !d.accepts .lrn 0 || d.lrnStandby then d
      else
        let d : Dev := { d with lrn := { d.lrn with resync := rest } }
        let again := d.lrn.sent.filter fun f => decide (sub32 f.1 first ≤ sub32 last first)
        let d := again.foldl Dev.lrnAgain d
        match goneRange first last (again.map fun f => f.1 % p32) with
        | some (a, b) => d.lrnNew 16 0 (resyncBody sender a b)
        | none => d

/-- LRN_RESYNC_RETRY (R348): an unanswered request of a sender is repeated, or its range given up. -/
def execLrnResyncRetry (sender : Nat) (s : State) : Host.Outcome State Fault Refusal :=
  s.act fun d =>
    let p := d.peer sender
    match p.asked with
    | some (a, l) =>
      if d.bounds < p.turn + d.fld (reg .lrn 0 0x120) 0 16 then d
      else if p.tries < d.fld (reg .lrn 0 0x120) 16 4 then
        (d.setPeer sender { p with tries := p.tries + 1, turn := d.bounds }).askResync sender a l
      else
        -- an eviction by chance waits while the generator of the caddy is stopped (R424)
        let e := d.giveUp sender a l
        if e.draws ≠ d.draws && !d.entRuns 3 then d else e
    | none => d

end Sys2Proof.Machine
end

