-- ==== Sys2Proof/Machine/PatCompile.lean ====
section
/-! DEFINITION. The pattern compiler (R292, R293, R295, R296, R673, R674). -/

namespace Sys2Proof.Machine

/-- What the check of a line has found so far: a breach of syntax ends the line, a breach of a limit is remembered. -/
structure Brk where
  syn : Bool := false
  lim : Bool := false
deriving DecidableEq, Repr

/-- A term of a pattern expression. -/
inductive Term where
  | anchor (n : Nat)
  | gap
  | run (ts : List PTerm) (bad : Bool)
deriving DecidableEq, Repr

/-- The value of a decimal digit. -/
def digit? (b : Byte) : Option Nat := if 0x30 ≤ b.toNat ∧ b.toNat ≤ 0x39 then some (b.toNat - 0x30) else none

/-- The decimal number at the head of a string, if one is there, and what follows. -/
def decimal (bs : List Byte) : Option (Nat × List Byte) :=
  let ds := bs.takeWhile fun b => (digit? b).isSome
  if ds = [] then none
  else some (ds.foldl (fun a b => a * 10 + (b.toNat - 0x30)) 0, bs.drop ds.length)

/-- The value of an upper-case hexadecimal digit. -/
def hexDigit? (b : Byte) : Option Nat :=
  let n := b.toNat
  if 0x30 ≤ n ∧ n ≤ 0x39 then some (n - 0x30) else if 0x41 ≤ n ∧ n ≤ 0x46 then some (n - 0x37) else none

/-- `\xHH` without its backslash. -/
def hexEscape : List Byte → Option (Nat × List Byte)
  | x :: h :: l :: r =>
    if x.toNat = 0x78 then
      match hexDigit? h, hexDigit? l with
      | some a, some b => some (a * 16 + b, r)
      | _, _ => none
    else none
  | _ => none

/-- The bytes of a literal after its opening quote, with what follows the closing quote. -/
def literalBody : Nat → List Byte → List Nat → Option (List Nat × List Byte)
  | 0, _, _ => none
  | _, [], _ => none
  | n + 1, b :: r, acc =>
    let c := b.toNat
    if c = 0x22 then some (acc, r)
    else if c = 0x5C then
      match r with
      | e :: r' =>
        if e.toNat = 0x5C ∨ e.toNat = 0x22 then literalBody n r' (acc ++ [e.toNat])
        else match hexEscape r with
          | some (v, r'') => literalBody n r'' (acc ++ [v])
          | none => none
      | [] => none
    else if 0x20 ≤ c ∧ c ≤ 0x7E then literalBody n r (acc ++ [c])
    else none

/-- One member byte of a class; `]` and `-` stand only escaped. -/
def classMember : List Byte → Option (Nat × List Byte)
  | [] => none
  | b :: r =>
    let c := b.toNat
    if c = 0x5C then
      match r with
      | e :: r' =>
        if e.toNat = 0x5C ∨ e.toNat = 0x5D ∨ e.toNat = 0x2D then some (e.toNat, r')
        else hexEscape r
      | [] => none
    else if c = 0x5D ∨ c = 0x2D ∨ 0x80 ≤ c then none
    else some (c, r)

/-- The bytes from `a` to `b` as a set. -/
def byteRange (a b : Nat) : Nat := (rangeFrom a (b + 1 - a)).foldl (fun s i => s ||| 2 ^ i) 0

/-- The members of a class up to its closing bracket, as a set, with what follows. -/
def classBody : Nat → List Byte → Nat → Option (Nat × List Byte)
  | 0, _, _ => none
  | n + 1, bs, set =>
    match bs with
    | [] => none
    | b :: r =>
      if b.toNat = 0x5D then some (set, r)
      else match classMember bs with
        | none => none
        | some (a, rest) =>
          match rest with
          | m :: rest' =>
            if m.toNat = 0x2D then
              match classMember rest' with
              | some (z, rest'') => if a ≤ z then classBody n rest'' (set ||| byteRange a z) else none
              | none => none
            else classBody n rest (set ||| 2 ^ a)
          | [] => none

/-- All 256 bytes. -/
abbrev allBytes : Nat := 2 ^ 256 - 1

/-- A repetition after a byte term: the term with its counts, whether they break a limit, and what follows. -/
def repetition (set : Nat) (bs : List Byte) : Option (Term × List Byte) :=
  match bs with
  | b :: r =>
    if b.toNat = 0x7B then
      match decimal r with
      | none => none
      | some (m, r1) =>
        match r1 with
        | c :: r2 =>
          if c.toNat = 0x7D then some (.run [⟨set, m, m⟩] (decide (m = 0 ∨ 32 < m)), r2)
          else if c.toNat = 0x2C then
            match decimal r2 with
            | some (n, e :: r3) =>
              if e.toNat = 0x7D then some (.run [⟨set, m, n⟩] (decide (n < m ∨ 32 < n ∨ n = 0)), r3) else none
            | _ => none
          else none
        | [] => none
    else some (.run [⟨set, 1, 1⟩] false, bs)
  | [] => some (.run [⟨set, 1, 1⟩] false, bs)

/-- The set of the other case of a letter beside it. -/
def caseSet (c : Nat) (fold : Bool) : Nat :=
  if fold ∧ 0x41 ≤ c ∧ c ≤ 0x5A then 2 ^ c ||| 2 ^ (c + 32)
  else if fold ∧ 0x61 ≤ c ∧ c ≤ 0x7A then 2 ^ c ||| 2 ^ (c - 32)
  else 2 ^ c

/-- One term, with what follows it. -/
def term (bs : List Byte) : Option (Term × List Byte) :=
  match bs with
  | [] => none
  | b :: r =>
    let c := b.toNat
    if c = 0x40 then (decimal r).map fun q => (.anchor q.1, q.2)
    else if c = 0x2A then some (.gap, r)
    else if c = 0x2E then repetition allBytes r
    else if c = 0x22 then
      match literalBody (r.length + 1) r [] with
      | some (cs, r1) =>
        let (fold, r2) := match r1 with
          | i :: r2 => if i.toNat = 0x69 then (true, r2) else (false, r1)
          | [] => (false, r1)
        if cs = [] then none
        else some (.run (cs.map fun c => ⟨caseSet c fold, 1, 1⟩) (decide (64 < cs.length)), r2)
      | none => none
    else if c = 0x5B then
      let (neg, r1) := match r with
        | h :: r1 => if h.toNat = 0x5E then (true, r1) else (false, r)
        | [] => (false, r)
      match classBody (r1.length + 1) r1 0 with
      | some (set, r2) =>
        let set := if neg then allBytes ^^^ set else set
        if set = 0 then none else repetition set r2
      | none => none
    else none

/-- The terms of an expression, separated by single spaces. -/
def terms : Nat → List Byte → Option (List Term)
  | 0, _ => none
  | n + 1, bs =>
    match term bs with
    | none => none
    | some (t, r) =>
      match r with
      | [] => some [t]
      | s :: r' => if s.toNat = 0x20 then (terms n r').map (t :: ·) else none

/-- The runs of byte terms between gaps. -/
def runsOf : List Term → List PTerm → List (List PTerm)
  | [], cur => [cur]
  | .gap :: ts, cur => cur :: runsOf ts []
  | .run r _ :: ts, cur => runsOf ts (cur ++ r)
  | .anchor _ :: ts, cur => runsOf ts cur

/-- The shortest and the longest string of a run. -/
def runSpan (r : List PTerm) : Nat × Nat := r.foldl (fun q t => (q.1 + t.lo, q.2 + t.hi)) (0, 0)

/-- The order of anchor and gaps is as R292 has it; `first` at the head, `prev` after an anchor. -/
def gapsOk : List Term → Bool → Bool → Bool
  | [], _, _ => true
  | .anchor _ :: ts, first, _ => first && gapsOk ts false true
  | .gap :: ts, first, prev => !first && !prev && decide (ts ≠ []) && gapsOk ts false false
  | .run _ _ :: ts, _, _ => gapsOk ts false false

/-- A limit of an expression is broken (R293, R673). -/
def termsOver (ts : List Term) : Bool :=
  (ts.any fun t => match t with
    | .anchor n => decide (16383 < n)
    | .run _ bad => bad
    | .gap => false) ||
  decide (4 < (ts.filter fun t => t = .gap).length) ||
  ((runsOf ts []).any fun r => let s := runSpan r; decide (s.1 < 1 ∨ 256 < s.2))

/-- A line that is a pattern: the pattern, whether a limit is broken; none for a breach of syntax. -/
def patLine (ln : List Byte) : Option (Pattern × Bool) :=
  if ln.take 4 ≠ [0x70, 0x61, 0x74, 0x20] then none
  else match decimal (ln.drop 4) with
    | none => none
    | some (id, r) =>
      match r with
      | s :: e =>
        if s.toNat ≠ 0x20 then none
        else match terms (e.length + 1) e with
          | none => none
          | some ts =>
            if gapsOk ts true false then
              let a := match ts with | .anchor n :: _ => some n | _ => none
              some ({ id := id, anchor := a, runs := runsOf ts [] }, decide (65535 < id) || termsOver ts)
            else none
      | [] => none

/-- The lines of a source. -/
def linesOf (src : List Byte) : List (List Byte) :=
  (src.foldr (fun b q => if b.toNat = 0x0A then [] :: q else match q with | l :: ls => (b :: l) :: ls | [] => [[b]]) [[]])

/-- The lines checked in order: the patterns, or the status and the number of the first line that fails (R673). -/
def compileLines : Nat → List (List Byte) → List Pattern → Except (Nat × Nat) (List Pattern)
  | _, [], acc => .ok acc
  | n, ln :: ls, acc =>
    let long := decide (4096 < ln.length)
    let skip := match ln with | [] => true | b :: _ => decide (b.toNat = 0x23)
    if skip then (if long then .error (0x35, n) else compileLines (n + 1) ls acc)
    else match patLine ln with
      | none => .error (0x01, n)
      | some (p, excess) =>
        if acc.any fun q => decide (q.id = p.id) then .error (0x01, n)
        else if excess || long then .error (0x35, n)
        else compileLines (n + 1) ls (acc ++ [p])

/-- The compiled image of a source. -/
def compileSource (src : List Byte) : Except (Nat × Nat) (List Pattern) := compileLines 1 (linesOf src) []

/-! ### The commands (R295) -/

/-- The lowest handle that names no held image (R674). -/
def Dev.freeHandle (d : Dev) : Nat :=
  ((rangeFrom 1 1023).find? fun h => (d.images.find h).isNone).getD 0

/-- Patterns of all held images. -/
def Dev.patternsHeld (d : Dev) : Nat := d.images.values.foldl (fun a i => a + i.length) 0

/-- PAT_COMPILE (R295, R296, R673, R674). -/
def execPatCompile (r : Nat) (s : State) : Host.Outcome State Fault Refusal :=
  s.act fun d => d.mbx r 0x40 fun d w =>
    if mbxLen w = 0 ∨ 4194304 < mbxLen w then d.finish r w.id 0x35
    else d.mbxBlock r 0x40 mbxLen fun d w src =>
      match compileSource src with
      | .error (st, ln) => d.finish r w.id st (toLE 4 ln)
      | .ok ps =>
        if 256 ≤ d.images.cells.length ∨ 65536 < d.patternsHeld + ps.length then d.finish r w.id 0x20
        else
          let h := d.freeHandle
          let d : Dev := { d with images := d.images.put h ps }
          d.finish r w.id 0 (toLE 2 h ++ toLE 4 ps.length)

/-- A rule set refers to an image (R295, R297). -/
def RuleSet.names (rs : RuleSet) (h : Nat) : Bool :=
  rs.img.cells.any fun q => decide (786432 ≤ q.1 ∧ q.1 < 786496) && decide (leAt q.2 0 2 = h)

/-- PAT_RELEASE (R295). -/
def execPatRelease (r : Nat) (s : State) : Host.Outcome State Fault Refusal :=
  s.act fun d => d.mbx r 0x41 fun d w =>
    let h := mbxArg w % 1024
    if (d.images.find h).isNone then d.finish r w.id 0x22
    else if d.active.names h || (match d.staged with | some x => x.names h | none => false) ||
        (match d.retained with | some x => x.names h | none => false) then d.finish r w.id 0x05
    else ({ d with images := d.images.erase h } : Dev).finish r w.id 0

end Sys2Proof.Machine
end

