-- ==== Sys2Proof/Machine/Bus.lean ====
section
/-! DEFINITION. What a permitted write to each register does, and what a read of each register returns: the registers with
an effect of their own, and those whose value follows from the state of their block. -/

namespace Sys2Proof.Machine

/-! ### The page header (R49 to R66) -/

/-- A write to PG_INT_STATUS, PG_INT_ENABLE or PG_INT_ROUTE: one message when it leaves the condition true, also where the write
itself has made it true (R61). [log 206: DESIGN CHOICE] -/
def intW (d : Dev) (t : Tgt) : Dev :=
  let d := d.store t
  if d.intCond t.loc.pageBase then d.pageMsg t.loc.pageBase else d

/-- The interrupt bits a page has: the common ones, and those its block defines (R60, R90, R150, R180, R209, R246, R282, R311,
R353, R355, R383, R435, R476, R511, R538, R560, R572, R594, R616, R645, R647); the others are reserved (R15). -/
def intBits (b : Blk) (page : Nat) : Nat :=
  3 + match b, page with
    | .sys, 0 | .gov, 0 | .cls, 0 | .act, 1 | .act, 2 | .key, 1 | .egr, _ => 0x100
    | .clk, 0 | .lrn, 0 | .cip, 0 | .key, 0 => 0x700
    | .pwr, 0 | .prl, 0 => 0x1F00
    | .tim, 0 => 0xFFFF3F00
    | .trn, 0 => 0xFF00
    | .ent, 0 | .fwc, 0 | .pat, 1 | .mpd, 0 => 0x300
    | .hif, 0 | .mac, 0 => 0x3F00
    | .vfm, 0 | .tbl, 0 | .blkg, 0 | .qrn, 0 | .rng, _ => 0xF00
    | _, _ => 0

/-- PG_INT_STATUS of every page of an instance cleared. -/
def Dev.intsClear (d : Dev) (b : Blk) (i : Nat) : Dev :=
  (rangeFrom 0 (blkPages b)).foldl (fun d p => d.wrN (pageOf b i p + 0x20) 0) d

/-- A RESET of an instance that acts (R54).  The time counter goes on: only POR and device reset zero it (R75, R77). -/
def State.instReset (s : State) (b : Blk) (i : Nat) : State :=
  let s := { s with dev := s.dev.instReset b i false }
  let t := s.time
  let s := if b = .tim then
      s.setTime { count := t.count, coast := t.coast, servo := if t.coast then .coast else .unset }
    else s
  { s with dev := (s.dev.intsClear b i).setFld (statusReg b i) 4 1 0 }

/-- What follows a change of ENABLE or QUIESCE of the instance of `t`: its links go down, and KEY, BLK and the fetch of
rings take up what waited (R671). -/
def Dev.ctrlActs (d : Dev) (t : Tgt) : Dev := ((d.linksCease t.loc.blk t.loc.inst).keyResume.blkPump).fetchKick

/-- A write of PG_CTRL (R52 to R54): RESET judged on QUIESCED as it stands, then ENABLE and QUIESCE. [log 20: DEDUCED] -/
def State.ctrlW (s : State) (t : Tgt) : State :=
  let b := t.loc.blk
  let i := t.loc.inst
  let v := t.acc.data
  let st := statusReg b i
  let quiet := s.dev.bit st 2
  let s := if bitOf v 2 && quiet then s.instReset b i else s
  let bad := !bitOf v 0 && blkAlwaysEnabled b
  let d := s.dev.wrN (ctrlReg b i) (b2n (bitOf v 0 || bad) + 2 * b2n (bitOf v 1))
  let d := if bitOf v 1 then d else d.setFld st 2 1 0
  let d := if bad then d.refuse t 0x0001 else if bitOf v 2 && !quiet then d.refuse t 0x0007 else d
  { s with dev := d.ctrlActs t }

/-- The words of the first-error log of a page cleared (R65). -/
def Dev.errClear (d : Dev) (page : Nat) : Dev := (rangeFrom 0 8).foldl (fun d i => d.wrN (page + 0x40 + 4 * i) 0) d

/-- A write to a register of the page header. -/
def State.headerW (s : State) (t : Tgt) : State :=
  let d := s.dev
  let page := t.loc.pageBase
  if t.x = 0x10 then s.ctrlW t
  else { s with dev :=
    if t.x = 0x24 then intW d { t with acc := { t.acc with data := t.acc.data &&& intBits t.loc.blk t.loc.page } }
    else if t.x = 0x20 ∨ t.x = 0x2C then intW d t
    else if t.x = 0x28 then d.setInt page (t.acc.data &&& intBits t.loc.blk t.loc.page)
    else if t.x = 0x40 then (if bitOf t.acc.data 31 then d.errClear page else d)
    else if t.x = 0x60 ∧ t.loc.blk = .trn ∧ bitsOf t.acc.data 0 4 ≠ 0 then d.refuse t 0x0001
    else if t.x = 0x60 then d.store t
    else d }

/-! ### Registers of the blocks with an effect of their own -/

/-- A write to a register of TIM. -/
def State.timW (s : State) (t : Tgt) : State :=
  let x := t.x
  if x = 0x100 then s.timCtrlW t
  else if x = 0x120 then s.incrW t
  else if x = 0x128 then s.stepW t
  else if x = 0x138 then s.slewIncrW t
  else if x = 0x140 then s.slewCyclesW t
  else if x = 0x148 then s.load0W t
  else if x = 0x150 then s.load1W t
  else if x = 0x154 then s.kickW t
  else if x = 0x10C then
    let s' := { s with dev := s.dev.store t }
    { s' with dev := if !s.suspect && s'.suspect then
        { (s'.dev.raise .tim 0 0 9).raise .trn 0 0 15 with localOnly := true }
      else { s'.dev with localOnly := s'.suspect } }
  else if 0x200 ≤ x ∧ x < 0x300 then
    if x % 0x20 = 0 then s.tpoCtrlW t
    else { s with dev := if x % 0x20 = 0x18 then tpoStatusW s.dev t else tpoTimingW s.dev t }
  else if 0x300 ≤ x ∧ x % 0x20 = 4 then { s with dev := tciStatusW s.dev t }
  else { s with dev := s.dev.store t }

/-- A write to a register of TRN: TRN_PERIOD; a schedule written here is this device's own (R586). -/
def State.trnW (s : State) (t : Tgt) : State :=
  if t.x = 0x100 then s.periodW t
  else
    let d := s.dev.store t
    { s with dev := if 0x200 ≤ t.x ∧ t.x < 0x300 then
        { d with pair := { d.pair with commitFrom := d.pair.commitFrom.erase ((t.x - 0x200) / 0x10) } } else d }

/-- A write of MAC_CFG: MODE and AN keep their values while the link is not DISABLED (R568). [log 85: DEDUCED] -/
def macCfgW (d : Dev) (t : Tgt) : Dev :=
  let old := d.rdN t.key
  let (v, bad) := d.settled t
  if (d.port t.loc.inst).link ≠ .disabled ∧ (bitsOf v 0 3 ≠ bitsOf old 0 3 ∨ bitOf v 4 ≠ bitOf old 4) then
    (d.wrN t.key (putBits (putBits v 0 3 (bitsOf old 0 3)) 4 1 (b2n (bitOf old 4)))).refuse t (if bad then 0x0001 else 0x1001)
  else d.store t

/-- A write to a register of PRL (R573, R582, R590, R592). -/
def prlW (d : Dev) (t : Tgt) : Dev :=
  let x := t.x
  if x = 0x100 then (if (rangeFrom 0 8).any fun g => decide (d.role g ≠ .off) then d.refuse t 0x1101 else d.store t)
  else if x = 0x128 then roleCmdW d t
  else if 0x140 ≤ x ∧ x < 0x160 then groupCfgW d t ((x - 0x140) / 4)
  else if 0x320 ≤ x ∧ x < 0x330 then laneCtrlW 8 ((x - 0x320) / 4) d t
  else d.store t

/-- A write to a per-table register (R313 to R315). [log 72: DEDUCED] -/
def tabW (d : Dev) (t : Tgt) (tab sub : Nat) : Dev :=
  let host := hostParty t.acc.pt
  if sub = 0x38 then tabCmdW tab d t
  else if host && d.tabFw tab then d.refuse t 0x0802
  else if (sub = 0 ∨ sub = 8 ∨ sub = 0x10 ∨ sub = 0x14) ∧ (d.table tab).state ≠ .off then d.refuse t 0x0802
  else
    let d := d.store t
    if sub = 8 ∧ host = true then d.setFld t.key 20 1 0
    else if sub = 0x30 then
      let x := d.table tab
      d.setTable tab { x with tokens := min x.tokens (d.fld (tabReg tab 0x30) 16 16) }
    else d

/-- A write to a register of TBL. [log 73: DEDUCED] -/
def tblW (d : Dev) (t : Tgt) : Dev :=
  if 0x1000 ≤ t.x ∧ t.x < 0x1400 then tabW d t ((t.x - 0x1000) / 0x40) (t.x % 0x40) else d.store t

/-- A write of MPD_SRC_CFG (R380). -/
def srcCfgW (d : Dev) (t : Tgt) : Dev :=
  let s := (t.x - 0x200) / 8
  let old := d.old t
  let new := t.merge old
  let cap := bitsOf new 32 21
  let bad := decide (cap = 0 ∨ 1048576 < cap) && decide (bitsOf t.mask 32 21 ≠ 0)
  let cap := if bad then bitsOf old 32 21 else cap
  let rsv := bitsOf new 0 21
  let sum := (rangeFrom 0 10).foldl (fun a i => a + if i = s then rsv else d.cellsRsv i) 0
  if 1048576 < sum ∨ cap < rsv then d.refuse t 0x0901
  else
    let d := (d.put t (rsv + p32 * cap)).poolNote d
    if bad then d.refuse t 0x0001 else d

/-- A write of XOFF or XON of a port (R380). [log 87: DEDUCED] -/
def pfcW (d : Dev) (t : Tgt) : Dev :=
  let base := t.key - (t.x % 0x10)
  let v := t.merge (d.old t) % 2097152
  let off := if t.x % 0x10 = 4 then v else d.fld (base + 4) 0 21
  let on := if t.x % 0x10 = 8 then v else d.fld (base + 8) 0 21
  if off < on then d.refuse t 0x0001 else d.store t

/-- A write to a register of MPD. -/
def mpdW (d : Dev) (t : Tgt) : Dev :=
  if 0x200 ≤ t.x ∧ t.x < 0x280 then srcCfgW d t
  else if 0x400 ≤ t.x ∧ t.x < 0x440 ∧ (t.x % 0x10 = 4 ∨ t.x % 0x10 = 8) then pfcW d t
  else d.store t

/-- A write to a register of KEY (R428, R432, R433). -/
def keyW (d : Dev) (t : Tgt) : Dev :=
  let x := t.x
  if x = 0x188 then keyCmdW d t
  else if 0x140 ≤ x ∧ x < 0x188 then keyLoadW d t
  else if x = 0x100 then keyCfgW d t
  else if x = 0x108 ∨ x = 0x10100 ∨ x = 0x10108 ∨ x = 0x10110 then keyBaseW d t
  else d.store t

/-- A write to a register of BLK global: the regions may not move while volumes exist (R473). -/
def blkW (d : Dev) (t : Tgt) : Dev :=
  if t.x < 0x120 ∧ d.vols.cells ≠ [] then d.refuse t 0x0D01 else d.store t

/-- A write of HIF_APT_BASE (R537). -/
def aptW (d : Dev) (t : Tgt) : Dev :=
  if t.data % max 1 (d.aptSize t.loc.inst) ≠ 0 then d.refuse t 0x0001 else d.store t

/-- A write to a block-specific register that acts on the device only. -/
def blockW (d : Dev) (t : Tgt) : Dev :=
  let x := t.x
  match t.loc.blk with
  | .pwr => if x = 0x120 then switchW d t else if x = 0x114 then (d.store t).tjCheck else d.store t
  | .fwc => if x = 0x10104 then flashCmdW d t else d.store t
  | .hif => if x = 0x108 then aptW d t else d.store t
  | .vfm => if x = 0x304 then vfmMbxCmdW d t t.loc.inst else d.store t
  | .mac => if x = 0x100 then macCfgW d t else d.store t
  | .sds => if 0x120 ≤ x % 0x10000 then laneCtrlW (x / 0x10000) ((x % 0x10000 - 0x120) / 4) d t else d.store t
  | .prl => prlW d t
  | .prs => if x = 0x108 then imgW prsImg d t else d.store t
  | .cls => if x = 0x108 then imgW clsImg d t else d.store t
  | .act => if x = 0x108 then imgW actImg d t else d.store t
  | .pat => if x = 0x108 then imgW patImg d t else d.store t
  | .hsh => if x = 0x108 then hshIndW d t else if x = 0x10C then hshDataW d t else d.store t
  | .tbl => tblW d t
  | .lrn => if x = 0x108 ∧ ¬ bitOf (t.merge (d.old t)) 40 then d.refuse t 0x0001 else d.store t
  | .mpd => mpdW d t
  | .gov => if x = 0x114 then govAccW d t else d.store t
  | .key => keyW d t
  | .blkg => blkW d t
  | _ => d.store t

/-- A write that R670 permits. -/
def State.busW (s : State) (t : Tgt) : State :=
  match t.space with
  | .header => s.headerW t
  | .block =>
    match t.loc.blk with
    | .tim => s.timW t
    | .trn => s.trnW t
    | .fwc => if t.x = 0x10C then s.fwcCtrl t.acc.data else { s with dev := blockW s.dev t }
    | _ => { s with dev := blockW s.dev t }
  | .sel => { s with dev := s.dev.store t }
  | .ring r => { s with dev := ringW s.dev t r }
  | .queue q => { s with dev := queueW s.dev t q }
  | .fctx f => { s with dev := fctxW s.dev t f }
  | .vfPage f => { s with dev := if t.x = 0x2080 then vfMbxCtrlW s.dev t f else s.dev.store t }

/-- A write to the MSI-X structures of a function (R63, R519): a dword, or an aligned pair; a vector it unmasks sends its pending
message. -/
def Dev.msixWrite (d : Dev) (f : Func) (x width v : Nat) : Dev :=
  if !d.fnExists f || (width ≠ 4 && width ≠ 8) || decide (x % width ≠ 0) then d
  else
    let d := d.msixPut f x (v % p32)
    (if width = 8 then d.msixPut f (x + 4) (v / p32 % p32) else d).msixFlush f

/-- A write of a party to a register of BAR0 or to its MSI-X structures there, or of a VF to its control page (R46 to R74, R519,
R548, R549). -/
def State.busWrite (s : State) (pt : Party) (off width v : Nat) : State :=
  match msixPlace pt off with
  | some (f, x) => { s with dev := s.dev.msixWrite f x width v }
  | none => s.ownWrite pt off width v State.busW

/-! ### What a read returns -/

/-- Pages of a block in the order of their ordinals (R64). -/
def blockPages (code : Nat) : List Nat :=
  (pageMap.filter fun r => r.code = code).flatMap fun r =>
    (rangeFrom 0 r.insts).flatMap fun i => (rangeFrom 0 r.pages).map fun p => r.base + i * r.stride + p * 0x10000

/-- SYS_INT_BLOCK of a block code. -/
def Dev.intBlock (d : Dev) (code : Nat) : Nat :=
  ((blockPages code).foldl (fun (q : Nat × Nat) p => (q.1 + 2 ^ q.2 * b2n (d.rdN (p + 0x20) ≠ 0), q.2 + 1)) (0, 0)).1

/-- SYS_INT_SUMMARY. -/
def Dev.intSummary (d : Dev) : Nat := (rangeFrom 0 32).foldl (fun a c => a + 2 ^ c * b2n (d.intBlock (c + 1) ≠ 0)) 0

/-- The power domain of a SerDes quad (R73, R622). -/
def quadDomain (q : Nat) : Nat := if q < 8 then 27 + q / 2 else if q < 16 then 0 else if q < 20 then 32 else 31

/-- CLK_STATUS with SDS_LOCK. -/
def Dev.clkWord (d : Dev) : Nat :=
  putBits (d.rdN clkStatus) 8 21 (if d.refUp then
    (rangeFrom 0 21).foldl (fun a q => a + 2 ^ q * b2n (d.domainOn (quadDomain q))) 0 else 0)

/-- PWR_DOMAIN_FENCED. [log 161: DEDUCED] -/
def Dev.domainsFenced (d : Dev) : Nat :=
  (rangeFrom 1 32).foldl (fun a m => a + 2 ^ m * b2n (((domainInsts m).any fun q => d.bit (statusReg q.1 q.2) 3) ||
    (decide (24 ≤ m ∧ m ≤ 26) && d.coresFenced.getD (m - 23) false))) 0

/-- A register of TIM as it reads. -/
def State.timView (s : State) (t : Tgt) : Nat :=
  let u := s.time
  let n := t.x / 0x20 % 8
  if t.x = 0x104 then u.status s.dev.holdLimit
  else if t.x = 0x110 then now0 (u.latch t.acc.pt)
  else if t.x = 0x118 then now1 (u.latch t.acc.pt)
  else if t.x = 0x120 then u.incr
  else if t.x = 0x130 then ceilDiv u.remain nsUnit % p64
  else if t.x = 0x138 then u.slewIncr
  else if t.x = 0x140 then u.slewLeft
  else if t.x = 0x170 then (BitVec.ofInt 64 u.ftOffset).toNat
  else if t.x = 0x178 then u.ftMaster.toNat
  else if 0x200 ≤ t.x ∧ t.x < 0x300 ∧ t.x % 0x20 = 0x18 then s.tpoStatus n
  else if 0x300 ≤ t.x ∧ t.x % 0x20 = 4 then s.tciStatus n
  else if 0x300 ≤ t.x ∧ t.x % 0x20 = 0x10 then s.tciData1 n
  else s.dev.old t

/-- TRN_STATUS (R149). -/
def State.trnStatus (s : State) : Nat :=
  b2n s.suspect + 2 * b2n s.time.coast + 4 * b2n (s.time.remain ≠ 0) + 8 * b2n s.dev.retained.isSome + 16 * b2n s.dev.staged.isSome

/-- A register of TRN as it reads. -/
def State.trnView (s : State) (t : Tgt) : Nat :=
  if t.x = 0x104 then s.trnStatus
  else if t.x = 0x108 then s.dev.budget
  else if t.x = 0x110 then s.dev.turn % p64
  else s.dev.old t

/-- FWC_STATUS with the clusters in service. [log 155: DEDUCED] -/
def Dev.fwcStatus (d : Dev) : Nat :=
  putBits (d.rdN (reg .fwc 0 0x100)) 4 4 (if d.fwState = 1 ∨ d.fwState = 3 then
    (rangeFrom 0 4).foldl (fun a c => a + 2 ^ c * b2n (!d.clusterGone c && d.handing ≠ some c)) 0 else 0)

/-- HIF_STATUS. -/
def Dev.hifStatus (d : Dev) (k : Nat) : Nat :=
  let l := d.link k
  b2n l.up + 2 * l.rate + 16 * l.width + 512 * b2n l.flit + 1024 * b2n l.inReset

/-- A register of VFM instance `k` as it reads. -/
def Dev.vfmView (d : Dev) (t : Tgt) (k : Nat) : Nat :=
  let x := t.x
  let l := d.link k
  let f : Func := ⟨k, d.fld (reg .vfm k 0x110) 0 12⟩
  let m : Func := ⟨k, d.fld (reg .vfm k 0x300) 0 12⟩
  if x = 0x100 then l.numVfs + 4096 * b2n l.vfEnable + 65536 * d.loggers
  else if 0x140 ≤ x ∧ x < 0x180 then leAt (d.grantRecord f) (x - 0x140) 4
  else if x = 0x180 then d.vfStateWord f
  else if x = 0x184 then d.flowsOwned f
  else if x = 0x188 then d.keysOwned f
  else if 0x200 ≤ x ∧ x < 0x300 then
    (rangeFrom 0 32).foldl (fun a i => a + 2 ^ i * b2n (d.vf ⟨k, (x - 0x200) / 4 * 32 + i + 1⟩).outFull) 0
  else if 0x340 ≤ x ∧ x < 0x380 then leAt (d.vf m).outMsg (x - 0x340) 4
  else d.old t

/-- The code of a link state (R570). -/
def LState.code : LState → Nat
  | .disabled => 0
  | .training => 1
  | .up => 2
  | .fault => 3

/-- MAC_STATUS of a port. -/
def Dev.macStatus (d : Dev) (n : Nat) : Nat :=
  let p := d.port n
  p.link.code + 4 * b2n p.localFault + 8 * b2n p.remoteFault + 16 * b2n p.modPresent + 32 * b2n p.modInt + 64 * b2n (d.portStandby n)

/-- PRL_STATUS. [log 145: DEDUCED] -/
def Dev.prlStatus (d : Dev) : Nat :=
  (d.port 4).link.code + 4 * b2n (d.pair.heard.isSome && !d.silent d.pair.heard) +
    8 * b2n (d.pair.heardAlt.isSome && !d.silent d.pair.heardAlt) + 16 * b2n d.pair.lost

/-- The code of a table state (R313). -/
def TabState.code : TabState → Nat
  | .off => 0
  | .init => 1
  | .ready => 2
  | .draining => 3

/-- A register of TBL as it reads. -/
def Dev.tblView (d : Dev) (t : Tgt) : Nat :=
  let tab := (t.x - 0x1000) / 0x40
  if t.x = 0x10C then d.tblCapUsed
  else if 0x1000 ≤ t.x ∧ t.x < 0x1400 ∧ t.x % 0x40 = 0x34 then (d.table tab).state.code
  else if 0x1000 ≤ t.x ∧ t.x < 0x1400 ∧ t.x % 0x40 = 0x3C then (d.table tab).entries
  else d.old t

/-- BLK_STORE_STATUS of a store (R474). [log 163: DEDUCED] -/
def Dev.storeStatus (d : Dev) (i : Nat) : Nat :=
  let s := d.store? i
  if s.state = 0 then 0
  else
    let cap := (d.mediumOf i).cap
    let free := (cap - extFirst cap - s.usedLbas) * 100 / max 1 cap
    s.state + 4 * b2n s.remote + 256 * min 100 free + p32 * (cap / 262144 % p32)

/-- SDS_LANE_STATUS of a lane: SIGNAL and LOCK are set in UP and 0 in DISABLED, where lanes are powered down; between them they are
what the lane finds, a free value. [log 84: DEDUCED] -/
def Dev.laneStatus (d : Dev) (quad lane : Nat) (v : Nat) : Nat :=
  let port := if quad < 8 then quad / 2 else 4
  putBits v 0 2 (if !d.laneUsed quad lane then 0 else match (d.port port).link with
    | .up => 3
    | .disabled => 0
    | _ => (Config.laneFound d.bounds quad lane).toNat)

/-- A block-specific register of the device as it reads. [log 105: DEDUCED] -/
def Dev.blockView (d : Dev) (t : Tgt) : Nat :=
  let x := t.x
  match t.loc.blk with
  | .sys =>
    if x = 0x108 then Config.serial.toNat
    else if x = 0x110 then Config.macBase.toNat
    else if x = 0x200 then d.intSummary
    else if 0x300 ≤ x then d.intBlock ((x - 0x300) / 8 + 1) % p64
    else d.old t
  | .clk => if x = 0x100 then d.clkWord else d.old t
  | .pwr => if x = 0x130 then d.domainsFenced else d.old t
  | .obs => if x = 0x108 then b2n (d.bit (reg .obs 0 0x100) 0 && d.unlocked && d.bit (reg .sec 0 0x100) 4) else d.old t
  | .fwc => if x = 0x100 then d.fwcStatus else d.old t
  | .hif => if x = 0x104 then d.hifStatus t.loc.inst else d.old t
  | .vfm => d.vfmView t t.loc.inst
  | .mac => if x = 0x104 then d.macStatus t.loc.inst else d.old t
  | .prl =>
    if x = 0x104 then d.prlStatus
    else if 0x160 ≤ x ∧ x < 0x180 then (d.role ((x - 0x160) / 4)).code
    else if 0x300 ≤ x ∧ x < 0x310 then d.laneStatus 8 ((x - 0x300) / 4) (d.old t)
    else d.old t
  | .sds => if x % 0x10000 < 0x110 then d.laneStatus (x / 0x10000) ((x % 0x10000 - 0x100) / 4) (d.old t) else d.old t
  | .tbl => d.tblView t
  | .mpd =>
    if x = 0x100 then 1048576 - (rangeFrom 0 10).foldl (fun a s => a + d.cellsUsed s) 0
    else if 0x280 ≤ x ∧ x < 0x2A8 then d.cellsUsed ((x - 0x280) / 4)
    else d.old t
  | .egr => if 0x6000 ≤ x % 0x10000 then d.queueCells (x / 0x10000) ((x % 0x10000 - 0x6000) / 4) else d.old t
  | .hsh => if x = 0x10C ∧ d.hshCore t = true then d.old t % 32 else d.old t
  | .cip => if x = 0x104 then d.holdUsed t.loc.inst else d.old t
  | .key =>
    if x = 0x18C then d.old t / 2 * 2 + b2n d.keyIsBusy
    else if x = 0x190 then d.keys.cells.length
    else if x = 0x194 then (rangeFrom 0 16).foldl (fun a k => a + 2 ^ k * b2n (d.keks.find k).isSome) 0
    else d.old t
  | .blkg =>
    if x = 0x134 then d.vols.cells.length
    else if 0x10100 ≤ x ∧ x < 0x10400 then d.storeStatus ((x - 0x10100) / 8)
    else d.old t
  | .blke => if x = 0x100 then d.inFlight t.loc.inst else d.old t
  | _ => d.old t

/-- A ring ID as a VF's window shows it (R549). -/
def Dev.vfLocal (d : Dev) (pt : Party) (v : Nat) : Nat :=
  match pt with
  | .vf f => (v + 65536 - d.grantAt f 4 2) % 65536
  | _ => v

/-- A register of the context of a ring as it reads (R153, R549). -/
def Dev.ringView (d : Dev) (t : Tgt) (r : Nat) : Nat :=
  if t.x = 0xC then d.ringOwnerWord r
  else if t.x = 0x24 then d.ringStatus r
  else if t.x = 0x34 then d.vfLocal t.acc.pt (d.old t)
  else d.old t

/-- A register of the context of a Quern queue as it reads (R508, R549). -/
def Dev.queueView (d : Dev) (t : Tgt) (q : Nat) : Nat :=
  if t.x = 8 then d.queueOwnerWord q
  else if t.x = 0xC then d.queueStatus q
  else if t.x = 4 then d.vfLocal t.acc.pt (d.old t)
  else d.old t

/-- A register of the control page of a VF as it reads (R548). -/
def Dev.vfPageView (d : Dev) (t : Tgt) (f : Func) : Nat :=
  let x := t.x
  let v := d.vf f
  if x = 0x1000 then f.num + 4096 * f.link + 65536 * d.grantAt f 3 1
  else if x = 0x1004 then d.vfStateWord f % 32
  else if x = 0x1008 then d.grantAt f 6 2 + 65536 * d.grantAt f 10 2 + 0x1000000 * d.grantAt f 12 1
  else if x = 0x100C then d.grantAt f 16 2
  else if x = 0x1010 then d.grantAt f 20 4
  else if x = 0x1014 then d.flowsOwned f
  else if x = 0x1018 then d.grantAt f 24 4
  else if x = 0x101C then d.keysOwned f
  else if 0x2040 ≤ x ∧ x < 0x2080 then leAt v.inMsg (x - 0x2040) 4
  else if x = 0x2084 then b2n v.outFull + 2 * b2n v.inFull
  else d.old t

/-- The value of a register. -/
def State.view (s : State) (t : Tgt) : Nat :=
  let d := s.dev
  match t.space with
  | .header => if t.x = 0x14 then putBits (d.old t) 1 1 (b2n !d.busy t.loc.blk t.loc.inst) else d.old t
  | .block =>
    match t.loc.blk with
    | .tim => s.timView t
    | .trn => s.trnView t
    | _ => d.blockView t
  | .sel => d.old t
  | .ring r => d.ringView t r
  | .queue q => d.queueView t q
  | .fctx _ => d.old t
  | .vfPage f => d.vfPageView t f

/-- A read of a register: its value, and what the read itself does (R78, R116, R425). -/
def State.busR (s : State) (t : Tgt) : State × Nat :=
  if t.space ≠ .block then (s, s.view t)
  else if t.loc.blk = .tim ∧ t.x = 0x110 then s.now0Read t
  else if t.loc.blk = .tim ∧ 0x300 ≤ t.x ∧ t.x % 0x20 = 8 then s.tciPop (t.x / 0x20 % 8)
  else if t.loc.blk = .ent ∧ t.x = 0x108 then
    let (d, v) := s.dev.entRand
    ({ s with dev := d }, v)
  else (s, s.view t)

/-- A read of a party: zero where it has an error (R47, R48, R55); of the MSI-X structures of its function too (R519). -/
def State.busRead (s : State) (pt : Party) (off width : Nat) : State × Nat :=
  match msixPlace pt off with
  | some (f, x) => (s, s.dev.msixRead f x width)
  | none =>
    match s.dev.readCheck pt off width with
    | (d, some t) =>
      let (s, v) := ({ s with dev := d } : State).busR t
      (s, t.view v)
    | (d, none) => ({ s with dev := d }, 0)

/-! ### ALERT_N and the observation port (R630, R646, R666, R667) -/

/-- ALERT_N is driven low (R630, R646): bits [5:4] of PWR_STATUS are one condition, enabled together. [log 235: DEDUCED] -/
def Dev.alert (d : Dev) : Bool :=
  let en := d.rdN (reg .pwr 0 0x110)
  (d.rdN pwrStatus &&& (if bitsOf en 4 2 = 0 then en else en ||| 0x30)) ≠ 0

/-- The value of an observation group (R667). [log 164: DEDUCED] -/
def State.obsGroup (s : State) (g : Nat) : Nat :=
  let insts := (pageMap.filter fun r => r.code = g / 128 % 32 + 1).flatMap fun r => (rangeFrom 0 r.insts).map fun i => (r.blk, i)
  match insts[g / 16 % 8]? with
  | none => 0
  | some (b, i) =>
    let k := g % 16
    let off := reg b i (if k = 0 then 0x14 else if k = 1 then 0x20 else 0x100 + 4 * (k - 2))
    match locate off with
    | none => 0
    | some l =>
      let sp := if k < 2 then Space.header else if b = .rng then .ring (l.off / 0x40) else .block
      if 2 ≤ k ∧ s.dev.fencedAt b i 0 then 0
      else match rowOf (.core 0) l sp with
        | none => 0
        | some q => if q.1.wo then 0 else (mkTgt { pt := .core 0, off := off, page := l.pageBase } 4 l sp q).view
            (s.view (mkTgt { pt := .core 0, off := off, page := l.pageBase } 4 l sp q)) % 65536

/-- The word the observation port drives: low while it is not active (R666). -/
def State.obsPort (s : State) : Nat :=
  if s.dev.bit (reg .obs 0 0x100) 0 && s.dev.unlocked && s.dev.bit (reg .sec 0 0x100) 4 then s.obsGroup (s.dev.fld (reg .obs 0 0x104) 0 12) else 0

end Sys2Proof.Machine
end

