-- ==== Sys2Proof/Machine/ConfigSpace.lean ====
section
/-! DEFINITION. The configuration space of the functions as the host reads it (R513 to R519, R527).  Offsets and values are the
manual's; the forms of the registers are those of the PCI Express Base Specification. [log 202: PRESUMED] -/

namespace Sys2Proof.Machine

/-- A capability: offset, ID, version, in PF0, in a VF (R517). -/
structure CfgCap where
  off : Nat
  id : Nat
  ver : Nat
  pf : Bool := true
  vf : Bool := false
deriving DecidableEq, Repr

/-- The extended capabilities (R517); Address Translation Services only with HIF_CFG.ATS_EN. -/
def extCaps (ats : Bool) : List CfgCap :=
  [⟨0x100, 0x01, 2, true, true⟩, ⟨0x148, 0x0E, 1, true, true⟩, ⟨0x150, 0x03, 1, true, false⟩, ⟨0x160, 0x10, 1, true, false⟩,
    ⟨0x1A0, 0x17, 1, true, true⟩] ++ (if ats then [⟨0x1C0, 0x0F, 1, true, true⟩] else []) ++
  [⟨0x1D0, 0x19, 1, true, false⟩, ⟨0x200, 0x25, 1, true, false⟩, ⟨0x210, 0x26, 1, true, false⟩, ⟨0x240, 0x2A, 1, true, false⟩,
    ⟨0x270, 0x31, 1, true, false⟩, ⟨0x290, 0x27, 1, true, false⟩]

/-- The header of the extended capability at an offset, with the offset of the next one in the list of a function. -/
def capHeader (off : Nat) : List CfgCap → Option Nat
  | [] => none
  | c :: cs =>
    if c.off = off then some (c.id + 0x10000 * c.ver + 0x100000 * (match cs with | n :: _ => n.off | [] => 0)) else capHeader off cs

/-- The identity registers, the BARs and the capabilities below 0x100. -/
def Dev.cfgLow (d : Dev) (f : Func) (off : Nat) : Nat :=
  let pf := decide (f.num = 0)
  let l := d.link f.link
  let cfg := d.rdN (reg .hif f.link 0x100)
  let barType (i : Nat) : Nat := if i = 0 then 0x4 else 0xC
  match off with
  | 0x00 => if pf then 0x09401F6B else 0xFFFFFFFF
  | 0x04 => 0x100000 + 4 * b2n (d.master f) + 2 * b2n (pf && l.memOn)
  | 0x08 => 0x12000001
  | 0x2C => d.subsystem.1 + 0x10000 * d.subsystem.2
  | 0x34 => 0x40
  | 0x40 => 0x00035001
  | 0x44 => d.capWord f 0x44
  | 0x50 => 0x7011 + 0x10000 * (if pf then 2047 else 63) + d.capWord f 0x50
  | 0x54 => if pf then 0x0FF00000 else 0
  | 0x58 => if pf then 0x0FF08000 else 0x800
  | 0x70 => 0x00020010
  | 0x74 => 0x10008022
  | 0x78 => (if pf then d.devControl f.link else 0) + d.capWord f 0x78 + 0x200000 * b2n (d.reads.any fun h => decide (h.func = f))
  | 0x7C => bitsOf cfg 3 3 + 0x10 * laneCap cfg + 0x400800
  | 0x80 => d.capWord f 0x80 + 0x10000 * (l.rate + 16 * l.width)
  | 0x94 => 0x3000F
  | 0x98 => d.devCtl2.getD (fkey f) 0
  | 0x9C => 0x3F7E7E
  | _ =>
    if pf ∧ 0x10 ≤ off ∧ off < 0x28 then
      let i := (off - 0x10) / 4
      l.bar.getD i 0 + if i % 2 = 0 ∧ d.barSize f.link (i / 2) ≠ 0 then barType (i / 2) else 0
    else 0

/-- The contents of the extended capabilities. -/
def Dev.cfgExt (d : Dev) (f : Func) (off : Nat) : Nat :=
  let pf := decide (f.num = 0)
  let l := d.link f.link
  match off with
  | 0x104 | 0x110 | 0x118 | 0x11C | 0x120 | 0x124 | 0x128 | 0x1A8 => d.capWord f off
  | 0x108 | 0x10C | 0x114 => if pf then d.capWord f off else 0
  | 0x1C4 => if d.bit (reg .hif f.link 0x100) 8 then d.capWord f off + 0x20 else 0
  | 0x204 => if pf then 0x80000001 else 0
  | 0x154 => if pf then Config.serial.toNat % p32 else 0
  | 0x158 => if pf then Config.serial.toNat / p32 else 0
  | 0x168 => if pf then b2n l.vfEnable + 8 * b2n l.vfMemOn else 0
  | 0x16C => if pf then 0x08000800 else 0
  | 0x170 => if pf then l.numVfs else 0
  | 0x174 => if pf then 0x00010001 else 0
  | 0x178 => if pf then 0x09410000 else 0
  | 0x17C => if pf then 0x1F else 0
  | 0x180 => if pf then l.pageSize else 0
  | 0x1A4 => 0x403 + 0x10000 * if pf then 2047 else 63
  | _ =>
    if pf ∧ 0x184 ≤ off ∧ off < 0x19C then
      let i := (off - 0x184) / 4
      l.vfBar.getD i 0 + if i = 0 then 0x4 else if i = 2 then 0xC else 0
    else 0

/-- A dword of the configuration space of a function. -/
def Dev.configRead (d : Dev) (f : Func) (off : Nat) : Nat :=
  if off < 0x100 then d.cfgLow f off
  else
    match capHeader off ((extCaps (d.bit (reg .hif f.link 0x100) 8)).filter fun c => if f.num = 0 then c.pf else c.vf) with
    | some h => h
    | none => d.cfgExt f off

end Sys2Proof.Machine
end

