-- ==== Sys2Proof/Machine/Registers.lean ====
section
/-! DEFINITION. Writes to registers without a row of their own, and to the page header (R46 to R66, R669 to R672). -/

namespace Sys2Proof.Machine

/-- REGISTER_WRITE (R670). -/
def execRegisterWrite (pt : Party) (off width : Nat) (v : BitVec 64) (s : State) : Host.Outcome State Fault Refusal :=
  s.run fun s => s.busWrite pt off width v.toNat

/-- A 4 B write to a register of a page header, committed as a step. -/
def State.headerWrite (s : State) (pt : Party) (page x v : Nat) : Host.Outcome State Fault Refusal :=
  s.run fun s => s.busWrite pt (page + x) 4 v

/-- PG_ENABLE_WRITE (R52, R53, R671): a write of PG_CTRL without RESET. [log 21: DEDUCED] -/
def execPgEnableWrite (pt : Party) (page : Nat) (v : BitVec 32) (s : State) : Host.Outcome State Fault Refusal :=
  s.headerWrite pt page 0x10 (putBits v.toNat 2 1 0)

/-- PG_QUIESCE_WRITE (R52, R669, R671): a write of PG_CTRL without RESET. -/
def execPgQuiesceWrite (pt : Party) (page : Nat) (v : BitVec 32) (s : State) : Host.Outcome State Fault Refusal :=
  s.headerWrite pt page 0x10 (putBits v.toNat 2 1 0)

/-- PG_RESET (R54): a write of PG_CTRL with RESET. -/
def execPgReset (pt : Party) (page : Nat) (v : BitVec 32) (s : State) : Host.Outcome State Fault Refusal :=
  s.headerWrite pt page 0x10 (putBits v.toNat 2 1 1)

/-- PG_INT_FORCE (R49, R61). [log 25: DEDUCED] -/
def execPgIntForce (pt : Party) (page : Nat) (v : BitVec 32) (s : State) : Host.Outcome State Fault Refusal :=
  s.headerWrite pt page 0x28 v.toNat

/-- PG_INT_STATUS_CLEAR (R61). -/
def execPgIntStatusClear (pt : Party) (page : Nat) (v : BitVec 32) (s : State) : Host.Outcome State Fault Refusal :=
  s.headerWrite pt page 0x20 v.toNat

/-- PG_INT_ENABLE_WRITE (R61). -/
def execPgIntEnableWrite (pt : Party) (page : Nat) (v : BitVec 32) (s : State) : Host.Outcome State Fault Refusal :=
  s.headerWrite pt page 0x24 v.toNat

/-- PG_INT_ROUTE_WRITE (R61, R62). -/
def execPgIntRouteWrite (pt : Party) (page : Nat) (v : BitVec 32) (s : State) : Host.Outcome State Fault Refusal :=
  s.headerWrite pt page 0x2C v.toNat

/-- ERR_LOG_CLEAR (R65). -/
def execErrLogClear (pt : Party) (page : Nat) (v : BitVec 32) (s : State) : Host.Outcome State Fault Refusal :=
  s.headerWrite pt page 0x40 v.toNat

/-- MSIX_UNMASK (R63): the mask of a vector of a function is cleared, or its function mask. [log 31: DEDUCED] -/
def execMsixUnmask (f : Func) (vec : Option Nat) (s : State) : Host.Outcome State Fault Refusal :=
  s.onDev fun d =>
    if !d.fnExists f then d
    else
      let d : Dev := match vec with
        | some v =>
          if v < d.msixSize f then
            { d with msix := d.msix.set (vecKey f v) { d.msix.getD (vecKey f v) {} with unmasked := true } {} }
          else d
        | none => { d.setCap f 0x50 0x80000000 with msixFn := d.msixFn.set (fkey f) true false }
      d.msixFlush f

end Sys2Proof.Machine
end

