-- ==== Sys2Proof/Machine/Pins.lean ====
section
/-! DEFINITION. The balls that carry signals (R649), the levels the device drives on them (R563, R569, R630, R640, R652, R655,
R666), and the boundary-scan cells behind them (R664). -/

namespace Sys2Proof.Machine

/-! ### Signals and levels -/

/-- A signal of R649; SerDes lanes and differential pairs count as one. -/
inductive Ball where
  | netLane (i : Nat)
  | hostLane (link i : Nat)
  | drpLane (i : Nat)
  | drpRefclk (j : Nat)
  | drpPerst (j : Nat)
  | drpPrsnt (j : Nat)
  | pairLane (i : Nat)
  | tref
  | tpo (n : Nat)
  | tci (n : Nat)
  | xspiD (i : Nat)
  | xspiClk
  | xspiCs
  | xspiDs
  | mbScl (bus : Nat)
  | mbSda (bus : Nat)
  | uartTx
  | uartRx
  | tdo
  | obs (i : Nat)
  | obsClk
  | sysRst
  | hostPerst (link : Nat)
  | pgOut
  | alert
  | thermTrip
  | modPrs (n : Nat)
  | modRst (n : Nat)
  | modInt (n : Nat)
deriving DecidableEq, Repr

/-- What the device does with a ball: a level, nothing (high-impedance, or released where open-drain), a running clock, or what
the unit behind it sends at the moment. -/
inductive Level where
  | low
  | high
  | off
  | clock
  | unit
deriving DecidableEq, Repr

/-- A logic level. -/
def levelOf (b : Bool) : Level := if b then .high else .low

/-- An open-drain output: driven low or released. -/
def pullLow (b : Bool) : Level := if b then .low else .off

/-- The balls of class A (R651), which drive both levels. -/
def Ball.classA : Ball → Bool
  | .tpo _ => true
  | .xspiD _ => true
  | .xspiClk => true
  | .xspiCs => true
  | .uartTx => true
  | .tdo => true
  | .obs _ => true
  | .obsClk => true
  | .netLane _ => false
  | .hostLane _ _ => false
  | .drpLane _ => false
  | .drpRefclk _ => false
  | .drpPerst _ => false
  | .drpPrsnt _ => false
  | .pairLane _ => false
  | .tref => false
  | .tci _ => false
  | .xspiDs => false
  | .mbScl _ => false
  | .mbSda _ => false
  | .uartRx => false
  | .sysRst => false
  | .hostPerst _ => false
  | .pgOut => false
  | .alert => false
  | .thermTrip => false
  | .modPrs _ => false
  | .modRst _ => false
  | .modInt _ => false

/-! ### Levels the device drives -/

/-- Before internal power-good and after a trip (R630, R652): class A high-impedance, class C released, but for PG_OUT held low
and THERM_TRIP_N as the trip left it; the reference outputs low (R655). -/
def Dev.levelDown (d : Dev) (b : Ball) : Level :=
  if b = .pgOut then .low
  else if b = .thermTrip then pullLow d.tripped
  else match b with
    | .drpRefclk _ => .low
    | _ => .off

/-- While SYS_RST_N is low (R640, R652): class A low but for XSPI_CS_N and UART_TX; every DRP PERST and Nn_MODRST_N low; the other
outputs released, the reference not accepted (R655). -/
def levelReset (b : Ball) : Level :=
  if b = .xspiCs ∨ b = .uartTx then .high
  else if b.classA then .low
  else match b with
    | .drpPerst _ => .low
    | .modRst _ => .low
    | .drpRefclk _ => .low
    | _ => .off

/-- The observation port is active (R666, R668). -/
def Dev.obsActive (d : Dev) : Bool := d.bit (reg .obs 0 0x100) 0 && d.unlocked && d.bit (reg .sec 0 0x100) 4

/-- While the device runs: pulse outputs (R110), module resets (R569), the PERST of a drive that is there, released (R477), PG_OUT, ALERT_N and THERM_TRIP_N (R630), the reference
outputs of DRP (R655), the observation port (R666). -/
def State.levelRun (s : State) (b : Ball) : Level :=
  let d := s.dev
  match b with
  | .tpo n => levelOf (s.tpoLevel n)
  | .obs i => levelOf (bitOf s.obsPort i)
  | .obsClk => if d.obsActive then .clock else .low
  | .drpRefclk _ => if d.domainOn 32 && d.refUp then .clock else .low
  | .modRst n => pullLow (d.bit (reg .mac n 0x10C) 0)
  | .alert => pullLow d.alert
  | .pgOut => .off
  | .thermTrip => .off
  | .netLane _ => .unit
  | .hostLane _ _ => .unit
  | .drpLane _ => .unit
  | .pairLane _ => .unit
  | .drpPerst j => pullLow (!(d.domainOn 32 && decide (d.drives.getD j 0 ≠ 0)))
  | .xspiD _ => .unit
  | .xspiClk => .unit
  | .xspiCs => .unit
  | .mbScl _ => .unit
  | .mbSda _ => .unit
  | .uartTx => .unit
  | .tdo => .unit
  | .drpPrsnt _ => .off
  | .tref => .off
  | .tci _ => .off
  | .xspiDs => .off
  | .uartRx => .off
  | .sysRst => .off
  | .hostPerst _ => .off
  | .modPrs _ => .off
  | .modInt _ => .off

/-- What the device itself does with a ball (R652, R655) [log 173: DEDUCED]. -/
def State.level (s : State) (b : Ball) : Level :=
  if s.dev.dead then s.dev.levelDown b else if s.dev.resetHeld then levelReset b else s.levelRun b

/-! ### Boundary scan (R664) -/

/-- The kinds of cell. -/
inductive CellKind where
  | input
  | output
  | control
  | lane
deriving DecidableEq, Repr

/-- The cells of an output, an input, a bidirectional signal, a SerDes lane. -/
def cellsOut (b : Ball) : List (Ball × CellKind) := [(b, .output), (b, .control)]
def cellsIn (b : Ball) : List (Ball × CellKind) := [(b, .input)]
def cellsBi (b : Ball) : List (Ball × CellKind) := (b, .input) :: cellsOut b
def cellsLane (b : Ball) : List (Ball × CellKind) := [(b, .lane), (b, .input)]

/-- The boundary-scan register, cell 0 first (R649, R664).  Signals of DRP's sideband go by name, those of a module by port.
[log 204: DESIGN CHOICE] -/
def scanCells : List (Ball × CellKind) :=
  (rangeFrom 0 32).flatMap (fun i => cellsLane (.netLane i)) ++
  (rangeFrom 0 32).flatMap (fun i => cellsLane (.hostLane (i / 16) (i % 16))) ++
  (rangeFrom 0 16).flatMap (fun i => cellsLane (.drpLane i)) ++
  (rangeFrom 0 4).flatMap (fun j => cellsOut (.drpRefclk j)) ++
  (rangeFrom 0 4).flatMap (fun j => cellsOut (.drpPerst j)) ++
  (rangeFrom 0 4).flatMap (fun j => cellsIn (.drpPrsnt j)) ++
  (rangeFrom 0 4).flatMap (fun i => cellsLane (.pairLane i)) ++
  cellsIn .tref ++
  (rangeFrom 0 8).flatMap (fun n => cellsOut (.tpo n)) ++
  (rangeFrom 0 4).flatMap (fun n => cellsIn (.tci n)) ++
  (rangeFrom 0 8).flatMap (fun i => cellsBi (.xspiD i)) ++ cellsOut .xspiClk ++ cellsOut .xspiCs ++ cellsIn .xspiDs ++
  (rangeFrom 0 2).flatMap (fun k => cellsBi (.mbScl k) ++ cellsBi (.mbSda k)) ++
  cellsOut .uartTx ++ cellsIn .uartRx ++
  (rangeFrom 0 16).flatMap (fun i => cellsOut (.obs i)) ++ cellsOut .obsClk ++
  cellsIn .sysRst ++ cellsIn (.hostPerst 0) ++ cellsIn (.hostPerst 1) ++
  cellsOut .pgOut ++ cellsOut .alert ++
  (rangeFrom 0 4).flatMap (fun n => cellsIn (.modPrs n) ++ cellsOut (.modRst n) ++ cellsIn (.modInt n))

/-- What a preloaded cell holds; a cell never loaded holds 0. -/
def Dev.cellOf (d : Dev) (b : Ball) (k : CellKind) : Bool :=
  match scanCells.findIdx? fun c => decide (c = (b, k)) with
  | some i => (d.tap.cells[i]?).getD false
  | none => false

/-- What a cell samples at its ball: the levels of outputs, and of the inputs the state knows; none where it is left open
(R663). -/
def State.sample (s : State) (c : Ball × CellKind) : Option Bool :=
  match c.2 with
  | .output => match s.level c.1 with
    | .low => some false
    | .high => some true
    | _ => none
  | .input => match c.1 with
    | .sysRst => some (!s.dev.resetHeld)
    | .hostPerst k => some (!(s.dev.link k).inReset)
    | .modPrs n => some (!(s.dev.port n).modPresent)
    | .modInt n => some (!(s.dev.port n).modInt)
    | .drpPrsnt j => some (decide (s.dev.drives.getD j 0 = 0))
    | _ => none
  | _ => none

/-- The level an output cell and a control cell put on a ball; an open-drain ball is only pulled low. -/
def Dev.cellLevel (d : Dev) (b : Ball) : Level :=
  if !d.cellOf b .control then .off
  else if b.classA then levelOf (d.cellOf b .output)
  else pullLow (!d.cellOf b .output)

/-- A ball under the TAP (R663, R664): HIGHZ releases every ball that has cells; EXTEST and CLAMP put the output cell on a ball
whose control cell holds 1, and the transmitter cell on a lane, which EXTEST_PULSE and EXTEST_TRAIN send as 1149.6 has it.
THERM_TRIP_N and TDO stay as they are. [log 204: DESIGN CHOICE] -/
def State.ball (s : State) (b : Ball) : Level :=
  let d := s.dev
  let ir := d.tap.ir
  if d.dead ∨ b = .thermTrip ∨ b = .tdo ∨ ¬ (3 ≤ ir ∧ ir ≤ 7) then s.level b
  else if ir = 6 then .off
  else if (b, CellKind.lane) ∈ scanCells then (if ir = 4 ∨ ir = 5 then .unit else levelOf (d.cellOf b .lane))
  else d.cellLevel b

end Sys2Proof.Machine
end

