-- ==== Sys2Proof/Machine/TestAccess.lean ====
section
/-! DEFINITION. The TAP, the management buses and the console (R608, R656, R657, R663 to R665). -/

namespace Sys2Proof.Machine

/-- The next state of a step that needs power only. [log 165: DEDUCED] -/
def State.powered (s : State) (f : Dev → Dev) : Host.Outcome State Fault Refusal :=
  .next (if s.dev.dead then s else { s with dev := f s.dev })

/-- A scope of the debug state: 0 OBS, 1 JTAG, 2 CORE (R609, R617). -/
def Dev.scope (d : Dev) (i : Nat) : Bool := d.unlocked && d.bit (reg .sec 0 0x100) (4 + i)

/-- `n` bits of a number, the lowest first. -/
def bitList (v n : Nat) : List Bool := (rangeFrom 0 n).map (bitOf v)

/-- The instruction register loaded, while what it captured shifts out (R663). -/
def Dev.tapLoad (d : Dev) (code : Nat) : Dev := ({ d with tap := { d.tap with ir := code } } : Dev).emit (.tdo (bitList 1 8))

/-- A test instruction that takes over the balls: every SerDes link goes down as at a loss of signal (R664). -/
def Dev.tapTest (d : Dev) (code : Nat) : Dev := (d.tapLoad code).serdesLost

/-- The IDCODE (R663). -/
def Dev.idcode (d : Dev) : Nat := d.fld (reg .sys 0 0x104) 0 4 * 0x10000000 + 0x0940 * 4096 + 0x56B * 2 + 1

/-- IDCODE (R663): the register is selected and shifts out. -/
def execIdcode (s : State) : Host.Outcome State Fault Refusal :=
  s.powered fun d => (d.tapLoad 0x01).emit (.tdo (bitList d.idcode 32))

/-- SAMPLE_PRELOAD (R663, R664): the 310 cells take what is shifted in, while what they sampled at the balls shifts out; a cell
whose ball the state does not know samples what is left open. [log 166: DESIGN CHOICE] -/
def execSamplePreload (cells : List Bool) (s : State) : Host.Outcome State Fault Refusal :=
  s.powered fun d =>
    let (d, x) := (d.tapLoad 0x02).drawFree
    ({ d with tap := { d.tap with cells := cells.take 310 } } : Dev).emit
      (.tdo ((rangeFrom 0 310).map fun i => match scanCells[i]? with
        | some c => (s.sample c).getD (bitOf x i)
        | none => false))

/-- EXTEST (R664). -/
def execExtest (s : State) : Host.Outcome State Fault Refusal := s.powered fun d => d.tapTest 0x03

/-- EXTEST_PULSE (R664). -/
def execExtestPulse (s : State) : Host.Outcome State Fault Refusal := s.powered fun d => d.tapTest 0x04

/-- EXTEST_TRAIN (R664). -/
def execExtestTrain (s : State) : Host.Outcome State Fault Refusal := s.powered fun d => d.tapTest 0x05

/-- HIGHZ (R663, R664). -/
def execHighz (s : State) : Host.Outcome State Fault Refusal := s.powered fun d => d.tapTest 0x06

/-- CLAMP (R663, R664). -/
def execClamp (s : State) : Host.Outcome State Fault Refusal := s.powered fun d => d.tapTest 0x07

/-- BYPASS (R663): the bypass register captures 0. -/
def execBypass (s : State) : Host.Outcome State Fault Refusal := s.powered fun d => (d.tapLoad 0xFF).emit (.tdo [false])

/-- What Capture-DR of REG_ACCESS returns (R665): DONE, and DATA of a read; the rest is left open. [log 167: DESIGN CHOICE] -/
def Dev.tapCapture (d : Dev) : Dev :=
  let (d, x) := d.drawFree
  let data := if d.tap.read then d.tap.data else x % p32
  d.emit (.tdo (bitList (data + p32 * (x / p32 % 0x20000000) + 0x2000000000000000 * b2n d.tap.done) 62))

/-- REG_ACCESS (R608, R665): Capture-DR returns the access before; Update-DR starts one 4 B access with the rights of
control-core cluster 0; without the scope the instruction acts as BYPASS. [log 167: DESIGN CHOICE] -/
def execRegAccess (dr : BitVec 62) (s : State) : Host.Outcome State Fault Refusal :=
  if !s.dev.scope 1 then s.powered fun d => (d.tapLoad 0xFF).emit (.tdo [false])
  else s.run fun s =>
    let v := dr.toNat
    let off := bitsOf v 32 28
    let s := { s with dev := (s.dev.tapLoad 0x20).tapCapture }
    if bitOf v 60 then
      let s := s.busWrite (.core 0) off 4 (v % p32)
      { s with dev := { s.dev with tap := { s.dev.tap with done := true, read := false } } }
    else
      let (s, x) := s.busRead (.core 0) off 4
      { s with dev := { s.dev with tap := { s.dev.tap with done := true, read := true, data := x % p32 } } }

/-- The bytes a management bus shows, from offset 0 on (R656). [log 168: DEDUCED] -/
def Dev.mbBytes (d : Dev) : List Byte :=
  [d.rdN (reg .sys 0 0x100), d.rdN (reg .sys 0 0x104), d.rdN pwrStatus, d.rdN (reg .pwr 0 0x104), d.rdN (reg .pwr 0 0x108),
    d.rdN (reg .pwr 0 0x10C), d.clkWord, d.fwcStatus].flatMap (toLE 4) ++ toLE 8 Config.serial.toNat

/-- The name of a management bus. -/
def mbName (bus : Nat) : String := if bus = 0 then "MB0" else "MB1"

/-- MB_TRANSFER (R656): the offset byte, then `len` bytes read; a data byte written after it is refused. -/
def execMbTransfer (bus : Nat) (offset : BitVec 8) (len : Nat) (extra : Bool) (s : State) : Host.Outcome State Fault Refusal :=
  s.powered fun d =>
    let d := if extra then d.emit (.bytes (mbName bus ++ " NACK") []) else d
    d.emit (.bytes (mbName bus) ((rangeFrom offset.toNat len).map fun i => (d.mbBytes[i]?).getD 0))

/-- DYNAMIC_ADDRESS_ASSIGN (R656). -/
def execDynamicAddressAssign (bus : Nat) (addr : BitVec 7) (s : State) : Host.Outcome State Fault Refusal :=
  s.powered fun d => { d with mbus := d.mbus.put bus { dyn := some addr.toNat } }

/-- UART_RX (R657): ignored unless UNLOCKED with scope CORE. [log 169: DESIGN CHOICE] -/
def execUartRx (b : Byte) (s : State) : Host.Outcome State Fault Refusal :=
  s.onDev fun d => if d.scope 2 then { d with console := d.console ++ [b] } else d

end Sys2Proof.Machine
end

