-- ==== Sys2Proof/Machine/Dispatch.lean ====
section
/-! DEFINITION. The meaning of each command: one arm for each constructor of `Instr`. -/

namespace Sys2Proof.Machine

def exec (i : Instr) (s : State) : Host.Outcome State Fault Refusal :=
  match i with
  | .registerWrite pt off width v => Sys2Proof.Machine.execRegisterWrite pt off width v s
  | .pgEnableWrite pt page v => Sys2Proof.Machine.execPgEnableWrite pt page v s
  | .pgQuiesceWrite pt page v => Sys2Proof.Machine.execPgQuiesceWrite pt page v s
  | .pgReset pt page v => Sys2Proof.Machine.execPgReset pt page v s
  | .pgIntForce pt page v => Sys2Proof.Machine.execPgIntForce pt page v s
  | .pgIntStatusClear pt page v => Sys2Proof.Machine.execPgIntStatusClear pt page v s
  | .pgIntEnableWrite pt page v => Sys2Proof.Machine.execPgIntEnableWrite pt page v s
  | .pgIntRouteWrite pt page v => Sys2Proof.Machine.execPgIntRouteWrite pt page v s
  | .errLogClear pt page v => Sys2Proof.Machine.execErrLogClear pt page v s
  | .msixUnmask f vec => Sys2Proof.Machine.execMsixUnmask f vec s
  | .timNowCapture pt width => Sys2Proof.Machine.execTimNowCapture pt width s
  | .timIncrWrite pt o width v => Sys2Proof.Machine.execTimIncrWrite pt o width v s
  | .timSlewIncrWrite pt o width v => Sys2Proof.Machine.execTimSlewIncrWrite pt o width v s
  | .timStep pt o width v => Sys2Proof.Machine.execTimStep pt o width v s
  | .timLoad pt v => Sys2Proof.Machine.execTimLoad pt v s
  | .timSlewStart pt v => Sys2Proof.Machine.execTimSlewStart pt v s
  | .slewDone => Sys2Proof.Machine.execSlewDone s
  | .absorbDone => Sys2Proof.Machine.execAbsorbDone s
  | .servoKick pt v => Sys2Proof.Machine.execServoKick pt v s
  | .timOwnerChange pt v => Sys2Proof.Machine.execTimOwnerChange pt v s
  | .validSet pt v => Sys2Proof.Machine.execValidSet pt v s
  | .holdoverTimeout => Sys2Proof.Machine.execHoldoverTimeout s
  | .holdLimitExpire => Sys2Proof.Machine.execHoldLimitExpire s
  | .fantailSync port sender seq => Sys2Proof.Machine.execFantailSync port sender seq s
  | .fantailSend m => Sys2Proof.Machine.execFantailSend m s
  | .tpoEnable pt n v => Sys2Proof.Machine.execTpoEnable pt n v s
  | .tpoEdge n => Sys2Proof.Machine.execTpoEdge n s
  | .tpoPulseEnd n => Sys2Proof.Machine.execTpoPulseEnd n s
  | .tciEdge n rising => Sys2Proof.Machine.execTciEdge n rising s
  | .tciRead pt n width => Sys2Proof.Machine.execTciRead pt n width s
  | .turnBoundary cycles => Sys2Proof.Machine.execTurnBoundary cycles s
  | .stageOpen => Sys2Proof.Machine.execStageOpen s
  | .periodChange pt v => Sys2Proof.Machine.execPeriodChange pt v s
  | .ringEnable pt r v => Sys2Proof.Machine.execRingEnable pt r v s
  | .ringDisable pt r v => Sys2Proof.Machine.execRingDisable pt r v s
  | .ringReset pt r v => Sys2Proof.Machine.execRingReset pt r v s
  | .ringDrainDone r => Sys2Proof.Machine.execRingDrainDone r s
  | .doorbell f off width v => Sys2Proof.Machine.execDoorbell f off width v s
  | .entryFetch r data => Sys2Proof.Machine.execEntryFetch r data s
  | .sendGather r => Sys2Proof.Machine.execSendGather r s
  | .sendInline r => Sys2Proof.Machine.execSendInline r s
  | .txFrameReadDone r => Sys2Proof.Machine.execTxFrameReadDone r s
  | .hostReadComplete id data => Sys2Proof.Machine.execHostReadComplete id data s
  | .rxDeliver r => Sys2Proof.Machine.execRxDeliver r s
  | .rxHoldExpire r => Sys2Proof.Machine.execRxHoldExpire r s
  | .ringIrqTimer r => Sys2Proof.Machine.execRingIrqTimer r s
  | .distribute => Sys2Proof.Machine.execDistribute s
  | .sluiceWaitExpire id => Sys2Proof.Machine.execSluiceWaitExpire id s
  | .sluiceAdmit p => Sys2Proof.Machine.execSluiceAdmit p s
  | .patternScan p => Sys2Proof.Machine.execPatternScan p s
  | .scanCut p scanned => Sys2Proof.Machine.execScanCut p scanned s
  | .stage7Start p => Sys2Proof.Machine.execStage7Start p s
  | .endRecord p w => Sys2Proof.Machine.execEndRecord p w s
  | .setField p w => Sys2Proof.Machine.execSetField p w s
  | .addField p w => Sys2Proof.Machine.execAddField p w s
  | .copyField p w => Sys2Proof.Machine.execCopyField p w s
  | .pushHdr p w => Sys2Proof.Machine.execPushHdr p w s
  | .popHdr p w => Sys2Proof.Machine.execPopHdr p w s
  | .setPort p w => Sys2Proof.Machine.execSetPort p w s
  | .setQueue p w => Sys2Proof.Machine.execSetQueue p w s
  | .toRing p w => Sys2Proof.Machine.execToRing p w s
  | .mirror p w => Sys2Proof.Machine.execMirror p w s
  | .count p w => Sys2Proof.Machine.execCount p w s
  | .govern p w => Sys2Proof.Machine.execGovern p w s
  | .cipher p w => Sys2Proof.Machine.execCipher p w s
  | .inspect p w => Sys2Proof.Machine.execInspect p w s
  | .learn p w => Sys2Proof.Machine.execLearn p w s
  | .leat p w => Sys2Proof.Machine.execLeat p w s
  | .toCore p w => Sys2Proof.Machine.execToCore p w s
  | .drop p w => Sys2Proof.Machine.execDrop p w s
  | .timestampOneStep p w => Sys2Proof.Machine.execTimestampOneStep p w s
  | .prsImgRead pt p v => Sys2Proof.Machine.execPrsImgRead pt p v s
  | .prsImgWrite pt p v => Sys2Proof.Machine.execPrsImgWrite pt p v s
  | .clsImgRead pt p v => Sys2Proof.Machine.execClsImgRead pt p v s
  | .clsImgWrite pt p v => Sys2Proof.Machine.execClsImgWrite pt p v s
  | .actImgRead pt p v => Sys2Proof.Machine.execActImgRead pt p v s
  | .actImgWrite pt p v => Sys2Proof.Machine.execActImgWrite pt p v s
  | .patImgRead pt p v => Sys2Proof.Machine.execPatImgRead pt p v s
  | .patImgWrite pt p v => Sys2Proof.Machine.execPatImgWrite pt p v s
  | .hshIndRead pt p v => Sys2Proof.Machine.execHshIndRead pt p v s
  | .hshIndWrite pt p v => Sys2Proof.Machine.execHshIndWrite pt p v s
  | .patCompile r => Sys2Proof.Machine.execPatCompile r s
  | .patRelease r => Sys2Proof.Machine.execPatRelease r s
  | .tableCreate pt t v => Sys2Proof.Machine.execTableCreate pt t v s
  | .initDone t => Sys2Proof.Machine.execInitDone t s
  | .tableDestroy pt t v => Sys2Proof.Machine.execTableDestroy pt t v s
  | .tableDrainDone t => Sys2Proof.Machine.execTableDrainDone t s
  | .insert r => Sys2Proof.Machine.execInsert r s
  | .replace r => Sys2Proof.Machine.execReplace r s
  | .delete r => Sys2Proof.Machine.execDelete r s
  | .refresh r => Sys2Proof.Machine.execRefresh r s
  | .tblcRead r => Sys2Proof.Machine.execTblcRead r s
  | .writeBucket r => Sys2Proof.Machine.execWriteBucket r s
  | .learnKey r => Sys2Proof.Machine.execLearnKey r s
  | .sweepVisit t => Sys2Proof.Machine.execSweepVisit t s
  | .sweepDelete t => Sys2Proof.Machine.execSweepDelete t s
  | .scrubVisit t shadow => Sys2Proof.Machine.execScrubVisit t shadow s
  | .scrubRecheck t bucket shadow => Sys2Proof.Machine.execScrubRecheck t bucket shadow s
  | .faultRepair t bucket shadow => Sys2Proof.Machine.execFaultRepair t bucket shadow s
  | .learnTokenRefill t => Sys2Proof.Machine.execLearnTokenRefill t s
  | .lrnFrameSend => Sys2Proof.Machine.execLrnFrameSend s
  | .lrnFrameReceive => Sys2Proof.Machine.execLrnFrameReceive s
  | .lrnResyncRequest => Sys2Proof.Machine.execLrnResyncRequest s
  | .lrnResyncRetry sender => Sys2Proof.Machine.execLrnResyncRetry sender s
  | .frameReceive port frame chk => Sys2Proof.Machine.execFrameReceive port frame chk s
  | .frameTransmit port => Sys2Proof.Machine.execFrameTransmit port s
  | .pfcReceive port enables quanta => Sys2Proof.Machine.execPfcReceive port enables quanta s
  | .pfcPauseExpire port pri => Sys2Proof.Machine.execPfcPauseExpire port pri s
  | .pfcRefresh port pri => Sys2Proof.Machine.execPfcRefresh port pri s
  | .govAccRead pt v => Sys2Proof.Machine.execGovAccRead pt v s
  | .govAccWrite pt v => Sys2Proof.Machine.execGovAccWrite pt v s
  | .inlineStart lane => Sys2Proof.Machine.execInlineStart lane s
  | .inlineComplete lane => Sys2Proof.Machine.execInlineComplete lane s
  | .saWrite r => Sys2Proof.Machine.execSaWrite r s
  | .saRead r => Sys2Proof.Machine.execSaRead r s
  | .saInvalidate r => Sys2Proof.Machine.execSaInvalidate r s
  | .keyUnwrap r => Sys2Proof.Machine.execKeyUnwrap r s
  | .keyZeroise r => Sys2Proof.Machine.execKeyZeroise r s
  | .keyInfo r => Sys2Proof.Machine.execKeyInfo r s
  | .keyLoad pt v => Sys2Proof.Machine.execKeyLoad pt v s
  | .zeroiseSlot pt v => Sys2Proof.Machine.execZeroiseSlot pt v s
  | .zeroiseFunc pt v => Sys2Proof.Machine.execZeroiseFunc pt v s
  | .zeroiseAll pt v => Sys2Proof.Machine.execZeroiseAll pt v s
  | .zeroiseDone => Sys2Proof.Machine.execZeroiseDone s
  | .keyLoadDataExpire => Sys2Proof.Machine.execKeyLoadDataExpire s
  | .keyEnable pt v => Sys2Proof.Machine.execKeyEnable pt v s
  | .keyDisable pt v => Sys2Proof.Machine.execKeyDisable pt v s
  | .saRegionDisable pt v => Sys2Proof.Machine.execSaRegionDisable pt v s
  | .encrypt r => Sys2Proof.Machine.execEncrypt r s
  | .decrypt r => Sys2Proof.Machine.execDecrypt r s
  | .macJob r => Sys2Proof.Machine.execMacJob r s
  | .lookVerify r => Sys2Proof.Machine.execLookVerify r s
  | .hashJob r => Sys2Proof.Machine.execHashJob r s
  | .lookJobComplete r => Sys2Proof.Machine.execLookJobComplete r s
  | .storeJobComplete id => Sys2Proof.Machine.execStoreJobComplete id s
  | .entHealthFail apt => Sys2Proof.Machine.execEntHealthFail apt s
  | .entRecovered => Sys2Proof.Machine.execEntRecovered s
  | .entRandRead pt width => Sys2Proof.Machine.execEntRandRead pt width s
  | .push f off data whole => Sys2Proof.Machine.execPush f off data whole s
  | .refusalCompletion q => Sys2Proof.Machine.execRefusalCompletion q s
  | .commandStart q => Sys2Proof.Machine.execCommandStart q s
  | .read id => Sys2Proof.Machine.execRead id s
  | .write id => Sys2Proof.Machine.execWrite id s
  | .flush id => Sys2Proof.Machine.execFlush id s
  | .deallocate id => Sys2Proof.Machine.execDeallocate id s
  | .writeZeroes id => Sys2Proof.Machine.execWriteZeroes id s
  | .verify id => Sys2Proof.Machine.execVerify id s
  | .compareAndWrite id => Sys2Proof.Machine.execCompareAndWrite id s
  | .storeAck store id => Sys2Proof.Machine.execStoreAck store id s
  | .storeReadComplete id ok data => Sys2Proof.Machine.execStoreReadComplete id ok data s
  | .quernComplete id => Sys2Proof.Machine.execQuernComplete id s
  | .storeFail store => Sys2Proof.Machine.execStoreFail store s
  | .substituteTimeout id => Sys2Proof.Machine.execSubstituteTimeout id s
  | .noExtentTimeout id => Sys2Proof.Machine.execNoExtentTimeout id s
  | .blkScrub vol grain copies => Sys2Proof.Machine.execBlkScrub vol grain copies s
  | .rebuild store => Sys2Proof.Machine.execRebuild store s
  | .segmentClean vol seg => Sys2Proof.Machine.execSegmentClean vol seg s
  | .storeAdd r => Sys2Proof.Machine.execStoreAdd r s
  | .storeRemove r => Sys2Proof.Machine.execStoreRemove r s
  | .storeRemoved store => Sys2Proof.Machine.execStoreRemoved store s
  | .volCreate r => Sys2Proof.Machine.execVolCreate r s
  | .volState r => Sys2Proof.Machine.execVolState r s
  | .volumeQuiesced vol => Sys2Proof.Machine.execVolumeQuiesced vol s
  | .volMigrate r => Sys2Proof.Machine.execVolMigrate r s
  | .migrationDone vol => Sys2Proof.Machine.execMigrationDone vol s
  | .volResize r => Sys2Proof.Machine.execVolResize r s
  | .volDelete r => Sys2Proof.Machine.execVolDelete r s
  | .volInfo r => Sys2Proof.Machine.execVolInfo r s
  | .volRecover r => Sys2Proof.Machine.execVolRecover r s
  | .scrubNow r => Sys2Proof.Machine.execScrubNow r s
  | .homeEngineReturn vol => Sys2Proof.Machine.execHomeEngineReturn vol s
  | .queueEnable pt q v => Sys2Proof.Machine.execQueueEnable pt q v s
  | .queueDisable pt q v => Sys2Proof.Machine.execQueueDisable pt q v s
  | .queueDrainDone q => Sys2Proof.Machine.execQueueDrainDone q s
  | .queueReset pt q v => Sys2Proof.Machine.execQueueReset pt q v s
  | .resetTimeout id => Sys2Proof.Machine.execResetTimeout id s
  | .resetDone q => Sys2Proof.Machine.execResetDone q s
  | .qsIdleTimeout f => Sys2Proof.Machine.execQsIdleTimeout f s
  | .psMaxWrite pt f v => Sys2Proof.Machine.execPsMaxWrite pt f v s
  | .linkFundamentalReset link => Sys2Proof.Machine.execLinkFundamentalReset link s
  | .perstDeassert link => Sys2Proof.Machine.execPerstDeassert link s
  | .hotReset link => Sys2Proof.Machine.execHotReset link s
  | .flr f => Sys2Proof.Machine.execFlr f s
  | .flrComplete f => Sys2Proof.Machine.execFlrComplete f s
  | .vfEnableSet link => Sys2Proof.Machine.execVfEnableSet link s
  | .vfEnableClear link => Sys2Proof.Machine.execVfEnableClear link s
  | .linkUp link rate width flit => Sys2Proof.Machine.execLinkUp link rate width flit s
  | .linkDown link => Sys2Proof.Machine.execLinkDown link s
  | .bmeClear f => Sys2Proof.Machine.execBmeClear f s
  | .bmeSet f => Sys2Proof.Machine.execBmeSet f s
  | .completionTimeout id => Sys2Proof.Machine.execCompletionTimeout id s
  | .lateCompletion id => Sys2Proof.Machine.execLateCompletion id s
  | .poisonedCompletion c => Sys2Proof.Machine.execPoisonedCompletion c s
  | .invalidateRequest f itag addr => Sys2Proof.Machine.execInvalidateRequest f itag addr s
  | .unsupportedRequest q => Sys2Proof.Machine.execUnsupportedRequest q s
  | .apertureAccess link off data => Sys2Proof.Machine.execApertureAccess link off data s
  | .configWrite link reg v => Sys2Proof.Machine.execConfigWrite link reg v s
  | .vfmGrant r => Sys2Proof.Machine.execVfmGrant r s
  | .vfmQuiesce r => Sys2Proof.Machine.execVfmQuiesce r s
  | .vfQuiesced f => Sys2Proof.Machine.execVfQuiesced f s
  | .vfmResume r => Sys2Proof.Machine.execVfmResume r s
  | .vfmDirtyStart r => Sys2Proof.Machine.execVfmDirtyStart r s
  | .vfmDirtyHarvest r => Sys2Proof.Machine.execVfmDirtyHarvest r s
  | .harvestDone f => Sys2Proof.Machine.execHarvestDone f s
  | .vfmDirtyStop r => Sys2Proof.Machine.execVfmDirtyStop r s
  | .vfmInfo r => Sys2Proof.Machine.execVfmInfo r s
  | .vfMbxSend f v => Sys2Proof.Machine.execVfMbxSend f v s
  | .vfMbxAck f v => Sys2Proof.Machine.execVfMbxAck f v s
  | .vfmMbxSend pt link v => Sys2Proof.Machine.execVfmMbxSend pt link v s
  | .vfmMbxAck pt link v => Sys2Proof.Machine.execVfmMbxAck pt link v s
  | .portLinkUp port => Sys2Proof.Machine.execPortLinkUp port s
  | .portLinkFault port kind => Sys2Proof.Machine.execPortLinkFault port kind s
  | .trainingTimeout port => Sys2Proof.Machine.execTrainingTimeout port s
  | .portEnable port => Sys2Proof.Machine.execPortEnable port s
  | .portDisable port => Sys2Proof.Machine.execPortDisable port s
  | .modprsChange port present => Sys2Proof.Machine.execModprsChange port present s
  | .modintAssert port => Sys2Proof.Machine.execModintAssert port s
  | .forceRecal pt quad lane v => Sys2Proof.Machine.execForceRecal pt quad lane v s
  | .heartbeat alt => Sys2Proof.Machine.execHeartbeat alt s
  | .mirrorFrame => Sys2Proof.Machine.execMirrorFrame s
  | .ack alt => Sys2Proof.Machine.execAck alt s
  | .role alt => Sys2Proof.Machine.execRole alt s
  | .retransmit stream => Sys2Proof.Machine.execRetransmit stream s
  | .partnerLost => Sys2Proof.Machine.execPartnerLost s
  | .switchRole pt v => Sys2Proof.Machine.execSwitchRole pt v s
  | .forceRole pt v => Sys2Proof.Machine.execForceRole pt v s
  | .groupKindWrite pt g v => Sys2Proof.Machine.execGroupKindWrite pt g v s
  | .fwInfo r => Sys2Proof.Machine.execFwInfo r s
  | .fwStage r => Sys2Proof.Machine.execFwStage r s
  | .fwActivate r => Sys2Proof.Machine.execFwActivate r s
  | .activationComplete => Sys2Proof.Machine.execActivationComplete s
  | .actDeferred => Sys2Proof.Machine.execActDeferred s
  | .fwRollbackCommit r => Sys2Proof.Machine.execFwRollbackCommit r s
  | .debugUnlock r => Sys2Proof.Machine.execDebugUnlock r s
  | .debugLock r => Sys2Proof.Machine.execDebugLock r s
  | .reboot pt v => Sys2Proof.Machine.execReboot pt v s
  | .flashRead pt v => Sys2Proof.Machine.execFlashRead pt v s
  | .flashProgram pt v => Sys2Proof.Machine.execFlashProgram pt v s
  | .flashErase pt v => Sys2Proof.Machine.execFlashErase pt v s
  | .flashDone => Sys2Proof.Machine.execFlashDone s
  | .bootComplete => Sys2Proof.Machine.execBootComplete s
  | .uncorrectableError u => Sys2Proof.Machine.execUncorrectableError u s
  | .transitBoundExceeded p => Sys2Proof.Machine.execTransitBoundExceeded p s
  | .engineNoProgress e => Sys2Proof.Machine.execEngineNoProgress e s
  | .laneBoundExceeded cluster lane => Sys2Proof.Machine.execLaneBoundExceeded cluster lane s
  | .watchdogExpire c => Sys2Proof.Machine.execWatchdogExpire c s
  | .judgeWindow iosc => Sys2Proof.Machine.execJudgeWindow iosc s
  | .refAccepted => Sys2Proof.Machine.execRefAccepted s
  | .refLost => Sys2Proof.Machine.execRefLost s
  | .vinOutOfRange mv => Sys2Proof.Machine.execVinOutOfRange mv s
  | .brownOut => Sys2Proof.Machine.execBrownOut s
  | .iinWindow ma => Sys2Proof.Machine.execIinWindow ma s
  | .vioFault => Sys2Proof.Machine.execVioFault s
  | .tjWarn tj => Sys2Proof.Machine.execTjWarn tj s
  | .thermalTrip tj => Sys2Proof.Machine.execThermalTrip tj s
  | .domainOff pt v => Sys2Proof.Machine.execDomainOff pt v s
  | .domainOffComplete => Sys2Proof.Machine.execDomainOffComplete s
  | .leatWithdrawExpire p => Sys2Proof.Machine.execLeatWithdrawExpire p s
  | .domainOn pt v => Sys2Proof.Machine.execDomainOn pt v s
  | .domainOnComplete => Sys2Proof.Machine.execDomainOnComplete s
  | .por => Sys2Proof.Machine.execPor s
  | .deviceReset => Sys2Proof.Machine.execDeviceReset s
  | .idcode => Sys2Proof.Machine.execIdcode s
  | .samplePreload cells => Sys2Proof.Machine.execSamplePreload cells s
  | .extest => Sys2Proof.Machine.execExtest s
  | .extestPulse => Sys2Proof.Machine.execExtestPulse s
  | .extestTrain => Sys2Proof.Machine.execExtestTrain s
  | .highz => Sys2Proof.Machine.execHighz s
  | .clamp => Sys2Proof.Machine.execClamp s
  | .bypass => Sys2Proof.Machine.execBypass s
  | .regAccess dr => Sys2Proof.Machine.execRegAccess dr s
  | .mbTransfer bus offset len extra => Sys2Proof.Machine.execMbTransfer bus offset len extra s
  | .dynamicAddressAssign bus addr => Sys2Proof.Machine.execDynamicAddressAssign bus addr s
  | .uartRx b => Sys2Proof.Machine.execUartRx b s
  | .pllLockTimeout => Sys2Proof.Machine.execPllLockTimeout s
  | .refEdgesResume => Sys2Proof.Machine.execRefEdgesResume s
  | .drpPresenceChange j present => Sys2Proof.Machine.execDrpPresenceChange j present s
  | .sysRstNRelease => Sys2Proof.Machine.execSysRstNRelease s
  | .activationRetry => Sys2Proof.Machine.execActivationRetry s
  | .vinReturnToRange mv => Sys2Proof.Machine.execVinReturnToRange mv s
  | .pairLinkFramesLost => Sys2Proof.Machine.execPairLinkFramesLost s

end Sys2Proof.Machine
end

