-- ==== Sys2Proof/Machine/Step.lean ====
section
/-! DEFINITION. One step of the block: the command at the front of the queue, or one cycle of the time clock. -/

namespace Sys2Proof.Machine

/-- One cycle of the time clock with no command (R76, R86): device time advances, and nothing else does.
[log 2: DESIGN CHOICE] -/
def State.tick (s : State) : State := if s.live then s.setTime (s.time.advance 1) else s

/-- A step: the command at the front runs on the rest of the queue; with an empty queue a cycle of the time clock passes.
[log 1, 7: DESIGN CHOICE] -/
def step (s : State) : Host.Outcome State Fault Refusal :=
  match s.pending with
  | [] => .next s.tick
  | c :: cs => exec c { s with pending := cs }

/-- A command put at the front of the queue; the table of commands gives no bits, so no word spells one. [log 5: DEDUCED] -/
def State.withFetchWord (s : State) (nbits w : Nat) : State :=
  match decodeTableWord nbits w with
  | some c => { s with pending := c :: s.pending }
  | none => s

end Sys2Proof.Machine
end

