-- ==== Sys2Proof/Safety.lean ====
section
/-! DEFINITION. The terms in which claims speak of a run: how a command ends, runs of several steps and safe ones, the
invariant of the time state, and which commands reach a device that is powered down or held in reset. -/

namespace Sys2Proof.Machine

/-! ### How a command ends -/

/-- The state after a command: QUIESCED, flow control and waiting VFM events brought up to date (R669, R378, R554). -/
def State.ends (s : State) : State := { s with dev := s.dev.settle }

/-- The state with a device of its own, at the end of a command. -/
def State.endsWith (s : State) (d : Dev) : State := { s with dev := d.settle }

/-- The device takes commands and R670 permits the write of `v` by a party, which reaches the register of `t`. -/
abbrev State.permits (s : State) (pt : Party) (off width v : Nat) (t : Tgt) : Prop :=
  s.live = true ∧ s.dev.writeCheck pt off width v = .ok t

/-- A permitted write of RNG_CFG of ring `r` reaches `t` on device `d`: at its place in the RNG page, or through the
window of the page with the party's selector naming the ring (R74), of a VF through its own window (R549). -/
abbrev State.reachesRing (s : State) (pt : Party) (r v : Nat) (d : Dev) (t : Tgt) : Prop :=
  s.live = true ∧ match pt with
    | .vf f => s.dev.ringFunc r = f ∧ d = s.dev.wrN (vfKey f 0x1100) (s.dev.ringOwner r).2 ∧ d.writeCheck pt 0x1148 4 v = .ok t
    | _ =>
      if r % 1024 < 4 then d = s.dev.wrN (selKey (partyOrder pt)) r ∧ d.writeCheck pt (ringPage r + 0xC8) 4 v = .ok t
      else d = s.dev ∧ d.writeCheck pt (ringPage r + r % 1024 * 0x40 + 8) 4 v = .ok t

/-- A command answers a next state. -/
abbrev Completes (c : Instr) (s : State) : Prop := ∃ t, exec c s = .next t

/-! ### Runs -/

/-- The state after `n` steps; none once a step stops. -/
def State.run? (s : State) : Nat → Option State
  | 0 => some s
  | n + 1 => match step s with
    | .next t => t.run? n
    | _ => none

/-- A run of `n` steps is safe: no step of it stops. -/
abbrev State.SafeRun (s : State) (n : Nat) : Prop := (s.run? n).isSome = true

/-! ### The action unit -/

/-- The context of a pipeline's action unit as its next instruction finds it. -/
def Dev.actNow (d : Dev) (p : Nat) : ActCtx := { (d.pipe p).act with words := (d.pipe p).act.words.drop 1 }

/-- The word `w`, of opcode `op`, is the next of the program in the action unit of pipeline `p`. -/
abbrev Dev.actDue (d : Dev) (p op : Nat) (w : BitVec 64) : Prop :=
  (d.pipe p).act.words.head? = some w.toNat ∧ iw w.toNat 0 8 = op

/-- The action unit after the program that left the context `c` has ended. -/
def Dev.actLeft (d : Dev) (p : Nat) (c : ActCtx) : Dev :=
  let e := d.programEnd p c
  e.setPipe p { e.pipe p with act := {} }

/-! ### Table commands -/

/-- The work `w` at the head of TBLC ring `r` is a command of opcode `op` on table `t` that passes the checks common to all
of them (R314 to R318). -/
abbrev Dev.tblReady (d : Dev) (r op : Nat) (w : Work) (t : Nat) : Prop :=
  d.workHead r op = some w ∧ t = byteAt w.entry 2 % 16 ∧ d.ringKind r = 4 ∧ d.accepts .tbl 0 = true ∧
    d.tabGranted (d.ringFunc r) t = true ∧ (op = 6 → (d.ringFunc r).num = 0) ∧
    (op = 5 ∨ d.standsBy (d.groupOf 4 t) = false) ∧ (d.table t).state = .ready ∧
    w.entry.length = 16 * (if 6 ≤ op then 2 else 2 + ceilDiv (d.tabCfg t).keyLen 16)

/-- A change that is neither published nor mirrored, whose result is `x` on device `e`; a change that drew a value needs a
running generator (R424). -/
abbrev Dev.changeLocal (d : Dev) (w : Work) (t : Nat) (e : Dev) : Prop :=
  bitOf (tblFlags w) 0 = false ∧ d.groupActive (d.groupOf 4 t) = false ∧ (e.draws = d.draws ∨ e.entRuns 3 = true)

/-! ### Mailbox commands -/

/-- The work `w` at the head of mailbox ring `r` has opcode `op` and 2 slots (R601), and the firmware takes it now. -/
abbrev Dev.mbxReady (d : Dev) (r op : Nat) (w : Work) : Prop :=
  d.workHead r op = some w ∧ d.ringKind r = 7 ∧ d.coresDead = false ∧ w.entry.length = 32 ∧ (d.activation = none ∨ op = 2 ∨ op = 3)

/-! ### Key and SA commands -/

/-- The work `w` on LOOK ring `r` is a key or SA command of opcode `op` of the right length, and KEY takes it now. -/
abbrev Dev.keyReady (d : Dev) (r op : Nat) (w : Work) : Prop :=
  d.lookHead r op = some w ∧ d.ringKind r = 3 ∧ d.accepts .key 0 = true ∧ w.entry.length = 32

/-- The SA that a command names exists, its function may act on the record, and where the command changes it nothing of R580
and R582 holds the change back; the place of a record that is not valid is anyone's to write (R392). -/
abbrev Dev.saReady (d : Dev) (r op : Nat) (w : Work) : Prop :=
  let x := d.saRead (keyIndex w)
  d.keyReady r op w ∧ d.saExists (keyIndex w) = true ∧
    ((op = 0x20 ∧ saFlag x 0 = false) ∨ d.saMay (d.ringFunc r) (saOwner x) = true) ∧
    (op = 0x21 ∨ ((saFlag x 0 = false ∨ saFlag x 4 = false ∨ d.standsBy (d.groupKind 3) = false) ∧
      (d.saActive = false ∨ d.pairFull = false)))

/-! ### Stores, volumes, VFs and Quern queues -/

/-- Host link `k` serves configuration requests: its reference is accepted, its PERST is high and the device has initialised
(R534, R642). -/
abbrev Dev.linkAnswers (d : Dev) (k : Nat) : Prop :=
  d.refUp = true ∧ (d.link k).inReset = false ∧ (d.link k).ready = true

/-- The work `w` at the head of mailbox ring `r` is a store or volume command of the primary manager, and BLK takes it. -/
abbrev Dev.blkReady (d : Dev) (r op : Nat) (w : Work) : Prop :=
  d.mbxReady r op w ∧ d.fromPrimary r = true ∧ d.accepts .blkg 0 = true

/-- The same for a command that uses stores, where each that has not failed answers (R625). -/
abbrev Dev.mediaReady (d : Dev) (r op : Nat) (w : Work) : Prop := d.blkReady r op w ∧ d.storesAway = false

/-- The same for a command whose parameter block `b` has come. -/
abbrev Dev.blkBlockReady (d : Dev) (r op : Nat) (w : Work) (b : List Byte) : Prop :=
  d.mediaReady r op w ∧ w.started = true ∧ w.waiting = [] ∧ b = slice w.allData 0 64

/-- Volume `v` exists as `x`, no standby group holds it, and what it mirrors has room. -/
abbrev Dev.volReady (d : Dev) (v : Nat) (x : Vol) : Prop :=
  d.vol? v = some x ∧ d.volHeld x = false ∧ (d.volMirrors x && d.pairFull) = false

/-- The work `w` at the head of mailbox ring `r` is a VFM command whose parameter block `b` has come, and VFM takes it. -/
abbrev Dev.vfmReady (d : Dev) (r op : Nat) (w : Work) (b : List Byte) : Prop :=
  d.workHead r op = some w ∧ d.ringKind r = 7 ∧ w.entry.length = 32 ∧ w.started = true ∧ w.waiting = [] ∧
    d.accepts .vfm (d.ringFunc r).link = true ∧ b = slice w.allData 0 64

/-- The same for a VF `f` that exists, from a manager of it. -/
abbrev Dev.vfmFor (d : Dev) (r op : Nat) (w : Work) (b : List Byte) (f : Func) : Prop :=
  d.vfmReady r op w b ∧ f = blockVf b ∧ d.mayManage r f = true ∧ f.num ≠ 0 ∧ d.fnExists f = true

/-- No order of the other manager stands in the way of a new order for VF `f` from ring `r` (R541). -/
abbrev Dev.orderOpen (d : Dev) (f : Func) (r : Nat) : Prop :=
  ((d.vf f).orders.filter fun o => decide ((d.ringFunc o.ring).link ≠ (d.ringFunc r).link)) = []

/-- The device with an order for VF `f` waiting for the next boundary. -/
def Dev.withOrder (d : Dev) (f : Func) (kind r : Nat) (w : Work) (b : List Byte) : Dev :=
  (d.setVf f { d.vf f with
    orders := (d.vf f).orders ++ [{ kind := kind, ring := r, work := w.id, body := b }] }).setWork r w.id fun x => { x with note := [1] }

/-- A permitted write of `v` at offset `off` of the context of queue `q` reaches `t` on device `d`: through the window of
QRN with the selector naming the queue (R507), of a VF through its own window (R549). -/
abbrev State.reachesQueue (s : State) (pt : Party) (q off v : Nat) (d : Dev) (t : Tgt) : Prop :=
  s.live = true ∧ match pt with
    | .vf f => s.dev.queueFunc q = f ∧ d = s.dev.wrN (vfKey f 0x1200) (s.dev.queueOwner q).2 ∧
        d.writeCheck pt (0x1240 + off) 4 v = .ok t
    | _ => d = s.dev.wrN (reg .qrn 0 0x108) q ∧ d.writeCheck pt (reg .qrn 0 (0x140 + off)) 4 v = .ok t

/-! ### Memories in canonical form -/

/-- The canonical form of HBM, where an unlisted byte reads zero. -/
abbrev Memory.wf (m : NMap Byte) : Prop := m.wf fun _ => 0

/-- The canonical form of the flash, where an unlisted byte is erased. -/
abbrev Flash.wf (m : NMap Byte) : Prop := m.wf fun _ => 0xFF

/-! ### The invariant of the time state -/

/-- The rates of the counter lie in the range of R79. -/
abbrev TimeSt.RatesOk (t : TimeSt) : Prop := incrOk t.incr ∧ incrOk t.slewIncr

/-- The invariant that every step keeps. -/
abbrev State.Inv (s : State) : Prop := s.time.RatesOk

/-- The procedure of R86 run `n` times. -/
def TimeSt.repeated (t : TimeSt) : Nat → TimeSt
  | 0 => t
  | n + 1 => t.pass.repeated n

end Sys2Proof.Machine

namespace Sys2Proof

/-! ### Commands that act on a device without power or in reset -/

/-- The commands that have an effect on a device that takes no others: resets, the ball SYS_RST_N, supply events, the
thermal trip, the loss of the reference, the test port and the management buses (R621, R628, R630, R633, R640, R656, R663). -/
def Instr.always : Instr → Bool
  | .por | .deviceReset | .brownOut | .vinOutOfRange _ | .refLost | .thermalTrip _ | .sysRstNRelease | .idcode | .samplePreload _ | .extest | .extestPulse
  | .extestTrain | .highz | .clamp | .bypass | .regAccess _ | .mbTransfer .. | .dynamicAddressAssign .. => true
  | _ => false

end Sys2Proof
end

