-- ==== Sys2Proof/Certificates/Slice0/Obligations.lean ====
section
/-! DEFINITION. The statements about the model. -/

open Sys2Proof Sys2Proof.Machine

/-- A step takes the command at the front and runs it on the rest of the queue (the queue is the model's own, log entry 1). -/
def Obligations.StepRunsFront : Prop :=
  ∀ (c : Instr) (cs : List Instr) (s : State), step { s with pending := c :: cs } = exec c { s with pending := cs }

/-- With an empty queue a step is one cycle of the time clock of a live device, and nothing but time and its interrupts
changes (the tick on an empty queue is the model's choice, log entry 2). -/
def Obligations.IdleStepTicks : Prop :=
  ∀ s : State, s.pending = [] →
    (s.live = true → ∃ t, step s = .next t ∧ t.time = s.time.advance 1 ∧ t.pending = [] ∧ t.dev.turn = s.dev.turn ∧
      t.dev.hbm = s.dev.hbm ∧ t.dev.pipes = s.dev.pipes ∧ t.dev.rings = s.dev.rings ∧ t.dev.ports = s.dev.ports) ∧
    (s.live = false → step s = .next s)

/-- Every command answers a next state in every state: nothing stops the block. -/
def Obligations.EveryCommandCompletes : Prop := ∀ (c : Instr) (s : State), Completes c s

/-- No command changes the queue of waiting commands. -/
def Obligations.CommandsKeepTheQueue : Prop :=
  ∀ (c : Instr) (s t : State), exec c s = .next t → t.pending = s.pending

/-- A device that is powered down or held by SYS_RST_N is changed by no command but a reset, a supply or thermal event, a loss
of the reference, and the test port and management buses (the model's reading, log entry 3). -/
def Obligations.DeadDeviceIgnores : Prop :=
  ∀ (c : Instr) (s : State), s.live = false → c.always = false → exec c s = .next s

/-- At reset device time reads zero, the rates lie in range and no command waits. -/
def Obligations.RatesHoldAtReset : Prop :=
  State.reset.Inv ∧ State.reset.time.count = 0 ∧ State.reset.pending = []

/-- Whatever command is at the front, a step keeps both rates of the counter within R79. -/
def Obligations.StepKeepsRates : Prop := ∀ s t : State, s.Inv → step s = .next t → t.Inv

/-- Device time never decreases: a step leaves the counter at or above its value, or returns the time state to that of
power-on (POR and device reset, R75). -/
def Obligations.TimeNeverDecreases : Prop :=
  ∀ s t : State, step s = .next t → s.time.count ≤ t.time.count ∨ t.time = {}

/-- With the rates in range a pass of R86 adds at least 0.25 ns and at most 1.5 ns. -/
def Obligations.CycleAdvancesAtLeastQuarter : Prop :=
  ∀ t : TimeSt, t.RatesOk → t.count + 1073741824 ≤ t.pass.count ∧ t.pass.count ≤ t.count + 6442450944

/-- The closed form of `n` passes is the procedure of R86 run `n` times. -/
def Obligations.PassesAreIterated : Prop :=
  ∀ (t : TimeSt) (n : Nat), 0 < t.incr → t.passes n = t.repeated n

/-- The servo owner's writes of the rates, of the slew length and of the kick: the time state they leave, with the interrupts
of R90, and nothing else. -/
def Obligations.RateWritesComplete : Prop :=
  (∀ (s : State) (pt : Party) (o width : Nat) (v : BitVec 64) (t : Tgt), s.live = true →
    s.dev.writeCheck pt (reg .tim 0 (0x120 + o % 8)) width v.toNat = .ok t → s.dev.servoOwner t.acc.pt = true →
    incrOk (t.merge s.time.incr) →
    exec (.timIncrWrite pt o width v) s =
      .next (s.setTime ({ s.time with incr := t.merge s.time.incr } : TimeSt).update).ends) ∧
  (∀ (s : State) (pt : Party) (o width : Nat) (v : BitVec 64) (t : Tgt), s.live = true →
    s.dev.writeCheck pt (reg .tim 0 (0x138 + o % 8)) width v.toNat = .ok t → s.dev.servoOwner t.acc.pt = true →
    incrOk (t.merge s.time.slewIncr) →
    exec (.timSlewIncrWrite pt o width v) s =
      .next (s.setTime ({ s.time with slewIncr := t.merge s.time.slewIncr } : TimeSt).update).ends) ∧
  (∀ (s : State) (pt : Party) (v : BitVec 32) (t : Tgt), s.live = true →
    s.dev.writeCheck pt (reg .tim 0 0x140) 4 v.toNat = .ok t → s.dev.servoOwner t.acc.pt = true →
    exec (.timSlewStart pt v) s =
      .next (s.setTime ({ s.time with slewLeft := t.acc.data % p32 } : TimeSt).update).ends) ∧
  (∀ (s : State) (pt : Party) (v : BitVec 32) (t : Tgt), s.live = true →
    s.dev.writeCheck pt (reg .tim 0 0x154) 4 v.toNat = .ok t → s.dev.servoOwner t.acc.pt = true →
    exec (.servoKick pt v) s = .next (s.setTime s.time.update).ends)

/-- Steps and loads of the servo owner: a backward step only adds to the remaining offset, a forward step is set against it
first, a load that is not earlier sets the counter and clears it (the next cycle runs with the command, log entry 4). -/
def Obligations.StepsAndLoadsComplete : Prop :=
  (∀ (s : State) (pt : Party) (o width : Nat) (v : BitVec 64) (t : Tgt), s.live = true →
    s.dev.writeCheck pt (reg .tim 0 (0x128 + o % 8)) width v.toNat = .ok t → s.dev.servoOwner t.acc.pt = true →
    (-(2 ^ 40 : Int) ≤ stepValue t.acc.data → stepValue t.acc.data < 0 →
      exec (.timStep pt o width v) s =
        .next (s.setTime ({ s.time with remain := s.time.remain + (stepValue t.acc.data).natAbs * nsUnit } : TimeSt).update).ends) ∧
    (0 ≤ stepValue t.acc.data → stepValue t.acc.data ≤ (2 ^ 40 : Int) →
      (stepValue t.acc.data).natAbs * nsUnit ≤ s.time.remain →
      exec (.timStep pt o width v) s =
        .next (s.setTime ({ s.time with remain := s.time.remain - (stepValue t.acc.data).natAbs * nsUnit } : TimeSt).update).ends) ∧
    (0 ≤ stepValue t.acc.data → stepValue t.acc.data ≤ (2 ^ 40 : Int) →
      s.time.remain < (stepValue t.acc.data).natAbs * nsUnit →
      exec (.timStep pt o width v) s =
        .next (s.forward { ({ s.time with remain := 0 } : TimeSt).update.advance 1 with
          count := (({ s.time with remain := 0 } : TimeSt).update.advance 1).count +
            ((stepValue t.acc.data).natAbs * nsUnit - s.time.remain) }).ends)) ∧
  (∀ (s : State) (pt : Party) (v : BitVec 32) (t : Tgt), s.live = true →
    s.dev.writeCheck pt (reg .tim 0 0x150) 4 v.toNat = .ok t → s.dev.servoOwner t.acc.pt = true →
    (s.time.advance 1).count ≤ loadCount s.time.load0.toNat t.acc.data →
    exec (.timLoad pt v) s =
      .next (s.forward ({ s.time.advance 1 with count := loadCount s.time.load0.toNat t.acc.data, remain := 0 } : TimeSt).update).ends)

/-- Refused servo writes: the code logged, and no other change. -/
def Obligations.ServoWritesRefused : Prop :=
  (∀ (s : State) (pt : Party) (o width : Nat) (v : BitVec 64) (t : Tgt), s.live = true →
    s.dev.writeCheck pt (reg .tim 0 (0x120 + o % 8)) width v.toNat = .ok t →
    (s.dev.servoOwner t.acc.pt = false →
      exec (.timIncrWrite pt o width v) s = .next (s.endsWith (s.dev.logAcc t.acc 0x0101))) ∧
    (s.dev.servoOwner t.acc.pt = true → ¬ incrOk (t.merge s.time.incr) →
      exec (.timIncrWrite pt o width v) s = .next (s.endsWith (s.dev.logAcc t.acc 0x0001)))) ∧
  (∀ (s : State) (pt : Party) (o width : Nat) (v : BitVec 64) (t : Tgt), s.live = true →
    s.dev.writeCheck pt (reg .tim 0 (0x128 + o % 8)) width v.toNat = .ok t →
    (s.dev.servoOwner t.acc.pt = false →
      exec (.timStep pt o width v) s = .next (s.endsWith (s.dev.logAcc t.acc 0x0101))) ∧
    (s.dev.servoOwner t.acc.pt = true → (2 ^ 40 : Int) < stepValue t.acc.data ∨ stepValue t.acc.data < -(2 ^ 40 : Int) →
      exec (.timStep pt o width v) s = .next (s.endsWith (s.dev.logAcc t.acc 0x0001)))) ∧
  (∀ (s : State) (pt : Party) (v : BitVec 32) (t : Tgt), s.live = true →
    s.dev.writeCheck pt (reg .tim 0 0x150) 4 v.toNat = .ok t →
    (s.dev.servoOwner t.acc.pt = false →
      exec (.timLoad pt v) s = .next (s.endsWith (s.dev.logAcc t.acc 0x0101))) ∧
    (s.dev.servoOwner t.acc.pt = true → loadCount s.time.load0.toNat t.acc.data < (s.time.advance 1).count →
      exec (.timLoad pt v) s = .next (s.endsWith (s.dev.logAcc t.acc 0x0102))))

/-- Events of the servo: what each leaves of the time state. -/
def Obligations.TimeEventsComplete : Prop :=
  (∀ s : State, s.live = true → s.Inv → s.time.slewLeft ≠ 0 →
    ∃ t, exec .slewDone s = .next t ∧ t.time = s.time.advance s.time.slewCycles ∧ t.time.slewLeft = 0) ∧
  (∀ s : State, s.live = true → s.Inv → s.time.remain ≠ 0 →
    ∃ t, exec .absorbDone s = .next t ∧ t.time = s.time.advance s.time.absorbCycles ∧ t.time.remain = 0) ∧
  (∀ s : State, s.live = true → s.time.holdover = false →
    ∃ t, exec .holdoverTimeout s = .next t ∧ t.time.holdover = true ∧ t.time.slewLeft = 0 ∧ t.time.count = s.time.count ∧
      t.time.remain = s.time.remain ∧ (s.time.servo = .host → t.time.servo = .host) ∧
      (s.time.servo = .locked → t.time.servo = .holdover)) ∧
  (∀ s : State, s.live = true → s.time.holdover = true →
    exec .holdLimitExpire s = .next (s.setTime { s.time with holdLong := true }).ends) ∧
  (∀ (s : State) (pt : Party) (v : BitVec 32) (t : Tgt), s.live = true →
    s.dev.writeCheck pt (reg .tim 0 0x100) 4 v.toNat = .ok t → s.dev.hostOwner = false →
    (s.dev.store t).hostOwner = true →
    ∃ u, exec (.timOwnerChange pt v) s = .next u ∧
      u.time = { s.time with servo := .host, inLock := 0, outLock := 0 }) ∧
  (∀ (s : State) (pt : Party) (v : BitVec 32) (t : Tgt), s.live = true →
    s.dev.writeCheck pt (reg .tim 0 0x100) 4 (putBits v.toNat 1 1 1) = .ok t → s.dev.hostOwner = true → bitOf t.data 1 = true →
    ∃ u, exec (.validSet pt v) s = .next u ∧ u.time.valid = true ∧ u.time.count = s.time.count)

/-- Captures and pulses: the latch of a party, the schedule of an output, the FIFO of an input. -/
def Obligations.CaptureAndPulseComplete : Prop :=
  (∀ (s : State) (pt : Party) (width : Nat) (d : Dev) (t : Tgt), s.live = true →
    s.dev.readCheck pt (reg .tim 0 0x110) width = (d, some t) → t.half = 0 → t.acc.pt = pt →
    ∃ u, exec (.timNowCapture pt width) s = .next u ∧
      u.time = { s.time with latches := s.time.latches.set (partyOrder pt) s.time.count 0 }) ∧
  (∀ (s : State) (pt : Party) (n : Nat) (v : BitVec 32) (t : Tgt), s.live = true →
    s.dev.writeCheck pt (tpoReg (n % 8)) 4 v.toNat = .ok t → s.dev.bit (tpoReg (tpoNum t.x)) 0 = false →
    (s.dev.store t).bit (tpoReg (tpoNum t.x)) 0 = true → (s.dev.store t).tpoOk (tpoNum t.x) = true →
    s.time.count ≤ (s.dev.store t).tpoStart (tpoNum t.x) →
    exec (.tpoEnable pt n v) s =
      .next ({ s with dev := s.dev.store t,
                      time := s.time.setTpo (tpoNum t.x) { next := some ((s.dev.store t).tpoStart (tpoNum t.x)) } } : State).ends) ∧
  (∀ (s : State) (n e : Nat), s.live = true → (s.time.tpoAt n).next = some e →
    exec (.tpoEdge n) s =
      .next (s.setTime ((s.time.reach e).setTpo n
        { next := if s.dev.bit (tpoReg n) 1 then some (e + s.dev.tpoPeriod n) else none, pulse := some e })).ends) ∧
  (∀ (s : State) (n e : Nat), s.live = true → (s.time.tpoAt n).pulse = some e →
    ∃ u, exec (.tpoPulseEnd n) s = .next u ∧
      u.time = (s.time.reach (e + s.dev.tpoWidth n * nsUnit)).setTpo n
        { (s.time.reach (e + s.dev.tpoWidth n * nsUnit)).tpoAt n with pulse := none }) ∧
  (∀ (s : State) (n : Nat) (rising : Bool), s.live = true → s.dev.bit (tciReg n) (if rising then 0 else 1) = true →
    (s.time.fifo n).length < 16 →
    ∃ u, exec (.tciEdge n rising) s = .next u ∧
      u.time = { s.time with tciFifo := s.time.tciFifo.set n (s.time.fifo n ++ [s.tciEntry rising]) [] }) ∧
  (∀ (s : State) (pt : Party) (n width : Nat) (d : Dev) (t : Tgt) (e : TciEntry) (q : List TciEntry), s.live = true →
    s.dev.readCheck pt (tciReg (n % 4) + 8 + n / 4 % 2 * 4) width = (d, some t) → s.time.fifo ((t.x - 0x300) / 0x20) = e :: q →
    ∃ u, exec (.tciRead pt n width) s = .next u ∧
      u.time = { s.time with tciFifo := s.time.tciFifo.set ((t.x - 0x300) / 0x20) q [],
                             tciHold := s.time.tciHold.put ((t.x - 0x300) / 0x20) e })

/-- The fantail: what a Sync does in UNSET, ACQUIRING and LOCKED, and each message it sends. -/
def Obligations.FantailCompletes : Prop :=
  (∀ (s : State) (port : Nat) (sender : BitVec 80) (seq : BitVec 16) (y : FtSync) (rest : List FtSync) (m : FtMaster),
    s.live = true → s.dev.fantailRuns = true → s.dev.ft.readySync port sender.toNat seq.toNat = some (y, rest) →
    s.dev.ftFrom y = some m →
    let o := s.dev.ft.offset y
    let lim := s.dev.fld (reg .tim 0 0x164) 0 16 * 65536
    let same := s.time.ftPort = some y.port ∧ s.time.ftMaster = w64 (beNat m.gm)
    (s.time.servo = .unset →
      ∃ t, exec (.fantailSync port sender seq) s = .next t ∧ t.time.servo = .acquiring ∧ t.time.ftOffset = o ∧
        t.time.ftMaster = w64 (beNat m.gm) ∧ t.time.ftPort = some y.port ∧ t.time.incr = s.time.incr ∧ s.time.count ≤ t.time.count) ∧
    (s.time.servo = .acquiring → same → o.natAbs ≤ lim → s.time.inLock = 15 →
      ∃ t, exec (.fantailSync port sender seq) s = .next t ∧ t.time.servo = .locked ∧ t.time.valid = true ∧ t.time.ftOffset = o ∧
        t.time.lossSinceLock = false ∧ t.time.count = s.time.count) ∧
    (s.time.servo = .locked → same → 10 * lim < o.natAbs → s.time.outLock = 3 →
      ∃ t, exec (.fantailSync port sender seq) s = .next t ∧ t.time.servo = .acquiring ∧ t.time.ftOffset = o ∧
        t.time.valid = s.time.valid ∧ t.time.count = s.time.count)) ∧
  (∀ (s : State) (n : Nat), s.live = true → s.dev.fantailRuns = true → s.dev.ftPortOn n = true →
    (∀ m : FtMaster, s.dev.ftPeerDelay = false → s.dev.ft.best = some m → m.port = n →
      exec (.fantailSend (.delayReq n)) s = .next (s.endsWith (s.dev.ftDelayReq n))) ∧
    (s.dev.ftPeerDelay = true → exec (.fantailSend (.peerReq n)) s = .next (s.endsWith (s.dev.ftPeerReq n))) ∧
    (∀ (x : FtPeer) (rest : List FtPeer), s.dev.ft.peerOf n (fun x => !x.sent) = some (x, rest) →
      exec (.fantailSend (.peerResp n)) s = .next (s.endsWith (s.dev.ftPeerResp n x rest))) ∧
    (∀ (x : FtPeer) (rest : List FtPeer) (t : Ts), s.dev.ft.peerOf n (fun x => x.left.isSome) = some (x, rest) → x.left = some t →
      exec (.fantailSend (.peerFollowUp n)) s = .next (s.endsWith (s.dev.ftPeerFollowUp n x t rest))))

/-- Writes to the page header and to registers without an effect of their own: what each leaves. -/
def Obligations.RegisterWritesComplete : Prop :=
  (∀ (s : State) (pt : Party) (off width : Nat) (v : BitVec 64) (t : Tgt), s.permits pt off width v.toNat t →
    t.space = .block → t.loc.blk ∈ [Blk.clk, .ent, .obs, .dst, .egr, .cip, .qrn, .hbm, .drp] →
    exec (.registerWrite pt off width v) s = .next (s.endsWith (s.dev.store t))) ∧
  (∀ (s : State) (pt : Party) (page : Nat) (v : BitVec 32) (t : Tgt),
    s.permits pt (page + 0x10) 4 (putBits v.toNat 2 1 0) t → t.space = .header → t.x = 0x10 → bitOf t.acc.data 2 = false →
    (bitOf t.acc.data 0 = true → bitOf t.acc.data 1 = false →
      exec (.pgEnableWrite pt page v) s =
        .next (s.endsWith (((s.dev.wrN (ctrlReg t.loc.blk t.loc.inst) 1).setFld (statusReg t.loc.blk t.loc.inst) 2 1 0).ctrlActs t))) ∧
    (bitOf t.acc.data 0 = true → bitOf t.acc.data 1 = true →
      exec (.pgQuiesceWrite pt page v) s =
        .next (s.endsWith ((s.dev.wrN (ctrlReg t.loc.blk t.loc.inst) 3).ctrlActs t)))) ∧
  (∀ (s : State) (pt : Party) (page : Nat) (v : BitVec 32) (t : Tgt),
    s.permits pt (page + 0x10) 4 (putBits v.toNat 2 1 1) t → t.space = .header → t.x = 0x10 → bitOf t.acc.data 2 = true →
    t.loc.blk ≠ .tim → s.dev.bit (statusReg t.loc.blk t.loc.inst) 2 = true → bitOf t.acc.data 0 = true → bitOf t.acc.data 1 = true →
    exec (.pgReset pt page v) s =
      .next (s.endsWith (((((s.dev.instReset t.loc.blk t.loc.inst false).intsClear t.loc.blk t.loc.inst).setFld
        (statusReg t.loc.blk t.loc.inst) 4 1 0).wrN (ctrlReg t.loc.blk t.loc.inst) 3).ctrlActs t))) ∧
  (∀ (s : State) (pt : Party) (page : Nat) (v : BitVec 32) (t : Tgt), s.permits pt (page + 0x28) 4 v.toNat t →
    t.space = .header → t.x = 0x28 →
    exec (.pgIntForce pt page v) s = .next (s.endsWith (s.dev.setInt t.loc.pageBase (t.acc.data &&& intBits t.loc.blk t.loc.page)))) ∧
  (∀ (s : State) (pt : Party) (page : Nat) (v : BitVec 32) (t : Tgt), s.permits pt (page + 0x20) 4 v.toNat t →
    t.space = .header → t.x = 0x20 →
    exec (.pgIntStatusClear pt page v) s = .next (s.endsWith
      (if (s.dev.store t).intCond t.loc.pageBase then (s.dev.store t).pageMsg t.loc.pageBase else s.dev.store t))) ∧
  (∀ (s : State) (pt : Party) (page : Nat) (v : BitVec 32) (t : Tgt), s.permits pt (page + 0x24) 4 v.toNat t →
    t.space = .header → t.x = 0x24 →
    let u : Tgt := { t with acc := { t.acc with data := t.acc.data &&& intBits t.loc.blk t.loc.page } }
    exec (.pgIntEnableWrite pt page v) s = .next (s.endsWith
      (if (s.dev.store u).intCond t.loc.pageBase then (s.dev.store u).pageMsg t.loc.pageBase else s.dev.store u))) ∧
  (∀ (s : State) (pt : Party) (page : Nat) (v : BitVec 32) (t : Tgt), s.permits pt (page + 0x2C) 4 v.toNat t →
    t.space = .header → t.x = 0x2C →
    exec (.pgIntRouteWrite pt page v) s = .next (s.endsWith
      (if (s.dev.store t).intCond t.loc.pageBase then (s.dev.store t).pageMsg t.loc.pageBase else s.dev.store t))) ∧
  (∀ (s : State) (pt : Party) (page : Nat) (v : BitVec 32) (t : Tgt), s.permits pt (page + 0x40) 4 v.toNat t →
    t.space = .header → t.x = 0x40 → bitOf t.acc.data 31 = true →
    exec (.errLogClear pt page v) s = .next (s.endsWith (s.dev.errClear t.loc.pageBase))) ∧
  (∀ (s : State) (f : Func) (n : Nat), s.live = true → s.dev.fnExists f = true → n < s.dev.msixSize f →
    exec (.msixUnmask f (some n)) s = .next { s with dev :=
      ({ s.dev with msix := s.dev.msix.set (vecKey f n) { s.dev.msix.getD (vecKey f n) {} with unmasked := true } {} } : Dev).msixFlush f })

/-- R53: a write of PG_CTRL of SYS, CLK, PWR or SEC with ENABLE = 0 does what the same write with ENABLE = 1 does, which
leaves ENABLE at 1 (the device `d`), and logs RESERVED_ENCODING.  A RESET that is refused logs NOT_QUIESCED in the write
with ENABLE = 1; R670 logs one condition of a write. -/
def Obligations.EnableStaysSet : Prop :=
  ∀ (s : State) (pt : Party) (off : Nat) (v : BitVec 64) (t u : Tgt), s.permits pt off 4 v.toNat t →
    s.permits pt off 4 (v ||| 1).toNat u → t.space = .header → t.x = 0x10 → t.loc.blk ∈ [Blk.sys, .clk, .pwr, .sec] →
    bitOf t.acc.data 0 = false →
    ∃ d : Dev, d.bit (ctrlReg t.loc.blk t.loc.inst) 0 = true ∧
      exec (.registerWrite pt off 4 v) s = .next (s.endsWith ((d.refuse t 0x0001).ctrlActs t)) ∧
      (bitOf t.acc.data 2 = false ∨ s.dev.bit (statusReg t.loc.blk t.loc.inst) 2 = true →
        exec (.registerWrite pt off 4 (v ||| 1)) s = .next (s.endsWith (d.ctrlActs t))) ∧
      (bitOf t.acc.data 2 = true → s.dev.bit (statusReg t.loc.blk t.loc.inst) 2 = false →
        exec (.registerWrite pt off 4 (v ||| 1)) s = .next (s.endsWith ((d.refuse u 0x0007).ctrlActs t)))

/-- A turn-latched register is written at its shadow; a write at the active offset is logged RO_WRITE. -/
def Obligations.ShadowsAreWritten : Prop :=
  (∀ (s : State) (pt : Party) (off : Nat) (v : BitVec 64) (t : Tgt), s.permits pt off 4 v.toNat t →
    t.space = .block → t.loc.blk ∈ [Blk.dst, .egr] → t.row.tl = true → t.row.w64 = false → (s.dev.settled t).2 = false →
    t.key = t.loc.instBase + t.x + 0x8000 ∧
    exec (.registerWrite pt off 4 v) s = .next (s.endsWith (s.dev.store t)) ∧
    (s.dev.store t).rd t.key = w32 (s.dev.settled t).1 ∧
    ∀ k, k ≠ t.key → (s.dev.store t).rd k = s.dev.rd k) ∧
  (∀ (s : State) (pt : Party) (off : Nat) (v : BitVec 64) (l : Loc) (row : RegRow) (a : Nat), s.live = true →
    s.dev.place off = some l → l.blk ∈ [Blk.dst, .egr] → 0x100 ≤ l.off → l.off < 0x8000 → off % 4 = 0 →
    rowAt l.blk.rows (l.page * 0x10000 + l.off) = some (row, a) → row.tl = true → row.need8 = false →
    mayWrite s.dev pt l .block = true → s.dev.fencedAt l.blk l.inst l.page = false →
    exec (.registerWrite pt off 4 v) s =
      .next (s.endsWith (s.dev.logAcc { pt := pt, off := off, data := v.toNat, page := l.pageBase } 0x0004)))

/-- R79: the two rates accept exactly the values from 0x0_8000_0000 to 0x1_8000_0000; any other is a reserved encoding.  The
field is bits [33:0] (R88); the reserved bits above are ignored (R15). -/
def Obligations.RatesAcceptTheirRange : Prop :=
  ∀ (s : State) (pt : Party) (v : BitVec 64) (t : Tgt), s.Inv →
    (s.permits pt (reg .tim 0 0x120) 8 v.toNat t → s.dev.servoOwner pt = true →
      (0x80000000 ≤ v.toNat % 0x400000000 → v.toNat % 0x400000000 ≤ 0x180000000 →
        ∃ u, exec (.timIncrWrite pt 0 8 v) s = .next u ∧ u.time.incr = v.toNat % 0x400000000) ∧
      (v.toNat % 0x400000000 < 0x80000000 ∨ 0x180000000 < v.toNat % 0x400000000 →
        exec (.timIncrWrite pt 0 8 v) s = .next (s.endsWith (s.dev.logAcc t.acc 0x0001)))) ∧
    (s.permits pt (reg .tim 0 0x138) 8 v.toNat t → s.dev.servoOwner pt = true →
      (0x80000000 ≤ v.toNat % 0x400000000 → v.toNat % 0x400000000 ≤ 0x180000000 →
        ∃ u, exec (.timSlewIncrWrite pt 0 8 v) s = .next u ∧ u.time.slewIncr = v.toNat % 0x400000000) ∧
      (v.toNat % 0x400000000 < 0x80000000 ∨ 0x180000000 < v.toNat % 0x400000000 →
        exec (.timSlewIncrWrite pt 0 8 v) s = .next (s.endsWith (s.dev.logAcc t.acc 0x0001))))

/-- Boundaries, the staged copy and the period. -/
def Obligations.BoundariesAndStageComplete : Prop :=
  (∀ (s : State) (n : Nat), s.live = true →
    (s.dev.turn < (s.setTime (s.time.advance n)).dev.turnAt (s.time.advance n) →
      exec (.turnBoundary n) s = .next ((s.setTime (s.time.advance n)).endsWith
        ((s.setTime (s.time.advance n)).dev.enter (s.dev.turn + 1) none))) ∧
    ((s.setTime (s.time.advance n)).dev.turnAt (s.time.advance n) ≤ s.dev.turn →
      exec (.turnBoundary n) s = .next (s.setTime (s.time.advance n)).ends)) ∧
  (∀ s : State, s.live = true → s.dev.stageFill = true →
    exec .stageOpen s = .next (s.endsWith
      (({ s.dev with staged := some s.dev.active, stageFill := false } : Dev).raise .trn 0 0 12))) ∧
  (∀ (s : State) (pt : Party) (v : BitVec 32) (t : Tgt), s.permits pt (reg .trn 0 0x100) 4 v.toNat t →
    s.time.valid = false → (s.dev.store t).period ≠ s.dev.period →
    (s.dev.turn < (s.dev.store t).turnAt s.time →
      exec (.periodChange pt v) s = .next (s.endsWith ((s.dev.store t).stepInto ((s.dev.store t).turnAt s.time)))) ∧
    ((s.dev.store t).turnAt s.time ≤ s.dev.turn →
      exec (.periodChange pt v) s = .next (s.endsWith (s.dev.store t).extendTurn)))

/-- R118: the period is accepted only while VALID = 0; no boundary comes before floor(T / P) exceeds the last turn number
issued, so no turn number repeats. -/
def Obligations.PeriodIsLockedWhileValid : Prop :=
  (∀ (s : State) (pt : Party) (v : BitVec 32) (t : Tgt), s.permits pt (reg .trn 0 0x100) 4 v.toNat t → s.time.valid = true →
    exec (.periodChange pt v) s = .next (s.endsWith (s.dev.logAcc t.acc 0x0201))) ∧
  (∀ (s : State) (pt : Party) (v : BitVec 32) (t : Tgt), s.permits pt (reg .trn 0 0x100) 4 v.toNat t → s.time.valid = false →
    (s.dev.store t).fld (reg .trn 0 0x100) 0 3 = if v.toNat % 8 ≤ 4 then v.toNat % 8 else s.dev.fld (reg .trn 0 0x100) 0 3) ∧
  (∀ (s : State) (n : Nat), s.live = true → (s.time.advance n).ns / s.dev.period ≤ s.dev.turn →
    ∃ u, exec (.turnBoundary n) s = .next u ∧ u.dev.turn = s.dev.turn ∧ u.dev.bounds = s.dev.bounds) ∧
  (∀ (s : State) (n : Nat), s.live = true → s.dev.turn < (s.time.advance n).ns / s.dev.period →
    ∃ d : Dev, d.turn = s.dev.turn ∧ d.bounds = s.dev.bounds ∧
      exec (.turnBoundary n) s = .next ((s.setTime (s.time.advance n)).endsWith (d.enter (s.dev.turn + 1) none))) ∧
  (∀ (s : State) (pt : Party) (v : BitVec 32) (t : Tgt), s.permits pt (reg .trn 0 0x100) 4 v.toNat t → s.time.valid = false →
    (exec (.periodChange pt v) s = .next (s.endsWith (s.dev.store t)) ∨
      exec (.periodChange pt v) s = .next (s.endsWith (s.dev.store t).extendTurn) ∨
      ∃ n, s.dev.turn < n ∧ exec (.periodChange pt v) s = .next (s.endsWith ((s.dev.store t).stepInto n))))

/-- The copies of a commit: each active word of the pages of the group takes its shadow, every other word stays. -/
def Obligations.CommitCopiesShadows : Prop :=
  ∀ (d : Dev) (g k a page : Nat), tlActive k = some (a, page) →
    (d.copyShadows g).rd (a + 0x8000) = d.rd (a + 0x8000) ∧
    (d.fld (page + 0x60) 0 4 = g → (d.copyShadows g).rd a = d.rd (a + 0x8000)) ∧
    (d.fld (page + 0x60) 0 4 ≠ g → (d.copyShadows g).rd a = d.rd a)

/-- GOV_ACC_CMD: READ copies the record, WRITE replaces its configuration and leaves HBM outside the record. -/
def Obligations.GovernorsComplete : Prop :=
  (∀ (s : State) (pt : Party) (v : BitVec 32) (t : Tgt), s.permits pt (reg .gov 0 0x114) 4 (putBits v.toNat 1 1 1) t →
    t.acc.data % 4 = 2 →
    exec (.govAccRead pt v) s = .next { s with dev := (s.dev.wrWords (reg .gov 0 0x140)
      (s.dev.hbmRead (s.dev.govAddr (s.dev.fld (reg .gov 0 0x110) 0 20)) 32) 8) }) ∧
  (∀ (s : State) (pt : Party) (v : BitVec 32) (t : Tgt), s.permits pt (reg .gov 0 0x114) 4 (putBits v.toNat 0 1 1) t →
    t.acc.data % 4 = 1 →
    let g := s.dev.fld (reg .gov 0 0x110) 0 20
    let b := slice s.dev.govAccData 0 16 ++ slice (s.dev.hbmRead (s.dev.govAddr g) 32) 16 16
    let r := govOf b
    (r.reserved = false →
      exec (.govAccWrite pt v) s = .next { s with dev := s.dev.hbmWrite (s.dev.govAddr g) (r.clamp.bytes b) } ∧
      ∀ a, a < s.dev.govAddr g ∨ s.dev.govAddr g + 32 ≤ a →
        (s.dev.hbmWrite (s.dev.govAddr g) (r.clamp.bytes b)).hbm.getD a 0 = s.dev.hbm.getD a 0) ∧
    (r.reserved = true → exec (.govAccWrite pt v) s = .next { s with dev := s.dev.logAcc t.acc 0x0A01 }))

/-- RNG_CFG: start, stop, reset; the end of draining; changes that a running ring refuses (with VF_QUIESCED alone where its VF is
quiesced, log entry 219). -/
def Obligations.RingControlCompletes : Prop :=
  (∀ (s : State) (pt : Party) (r : Nat) (v : BitVec 32) (d : Dev) (t : Tgt), s.reachesRing pt r v.toNat d t →
    (d.ring r).state = .off → bitOf t.acc.data 9 = true → bitOf t.acc.data 11 = false →
    1 ≤ bitsOf t.acc.data 0 4 → bitsOf t.acc.data 0 4 ≤ 7 → 6 ≤ bitsOf t.acc.data 4 5 → bitsOf t.acc.data 4 5 ≤ 20 →
    let e := d.wrN t.key (bitsOf t.acc.data 0 4 + 16 * bitsOf t.acc.data 4 5 + 1024 * bitsOf t.acc.data 10 1)
    e.fnQuiesced (e.ringFunc r) = false → e.ringEnableOk r = true →
    exec (.ringEnable pt r v) s = .next (s.endsWith (e.ringStart r))) ∧
  (∀ (s : State) (pt : Party) (r : Nat) (v : BitVec 32) (d : Dev) (t : Tgt), s.reachesRing pt r (putBits v.toNat 9 1 0) d t →
    (d.ring r).state = .active ∨ (d.ring r).state = .haltActive → bitOf t.acc.data 9 = false → bitOf t.acc.data 11 = false →
    bitsOf t.acc.data 0 9 = bitsOf (d.rdN t.key) 0 9 → bitsOf t.acc.data 10 1 = bitsOf (d.rdN t.key) 10 1 →
    (d.ringStop r).2 = false →
    exec (.ringDisable pt r v) s = .next (s.endsWith (d.ringStop r).1)) ∧
  (∀ (s : State) (pt : Party) (r : Nat) (v : BitVec 32) (d : Dev) (t : Tgt), s.reachesRing pt r (putBits v.toNat 11 1 1) d t →
    (d.ring r).state = .off → bitOf t.acc.data 9 = false → bitOf t.acc.data 11 = true →
    1 ≤ bitsOf t.acc.data 0 4 → bitsOf t.acc.data 0 4 ≤ 7 → 6 ≤ bitsOf t.acc.data 4 5 → bitsOf t.acc.data 4 5 ≤ 20 →
    exec (.ringReset pt r v) s = .next (s.endsWith
      ((d.wrN t.key (bitsOf t.acc.data 0 4 + 16 * bitsOf t.acc.data 4 5 + 1024 * bitsOf t.acc.data 10 1)).ringZero r))) ∧
  (∀ (s : State) (pt : Party) (r : Nat) (v : BitVec 32) (d : Dev) (t : Tgt), s.reachesRing pt r (putBits v.toNat 11 1 1) d t →
    (d.ring r).state ≠ .off → bitOf t.acc.data 9 = true → bitOf t.acc.data 11 = true →
    (d.fnQuiesced (d.ringFunc r) = false → exec (.ringReset pt r v) s = .next (s.endsWith (d.logAcc t.acc 0x0301))) ∧
    (d.fnQuiesced (d.ringFunc r) = true → exec (.ringReset pt r v) s = .next (s.endsWith (d.logAcc t.acc 0x0F02)))) ∧
  (∀ (s : State) (r : Nat), s.live = true → (s.dev.ring r).state = .draining → s.dev.ringIdle r = true →
    exec (.ringDrainDone r) s =
      .next (s.endsWith ((s.dev.setRing r { s.dev.ring r with state := .off }).setInt (ringPage r) (2 ^ 11))))

/-- Doorbells: producer counts, consumer counts, and those that are refused. -/
def Obligations.DoorbellsComplete : Prop :=
  ∀ (s : State) (f : Func) (off width : Nat) (v : BitVec 32) (r : Nat), s.live = true → s.dev.fnExists f = true →
    s.dev.ringOfLocal f (off / 8) = some r →
    (width = 4 → off % 8 = 0 → s.dev.takesDoorbell r = true →
      (hostProduced (s.dev.ringKind r) = true → sub32 (s.dev.ringProd r) (s.dev.ringCons r) ≤ sub32 v.toNat (s.dev.ringCons r) →
        sub32 v.toNat (s.dev.ringCons r) ≤ s.dev.ringCap r →
        exec (.doorbell f off width v) s = .next (s.endsWith ((s.dev.wrN (rngKey r 0x18) v.toNat).slotRead r))) ∧
      (hostProduced (s.dev.ringKind r) = true →
        sub32 v.toNat (s.dev.ringCons r) < sub32 (s.dev.ringProd r) (s.dev.ringCons r) ∨
          s.dev.ringCap r < sub32 v.toNat (s.dev.ringCons r) →
        exec (.doorbell f off width v) s = .next (s.endsWith (s.dev.doorbellBad r))) ∧
      (hostProduced (s.dev.ringKind r) = false → sub32 v.toNat (s.dev.ringCons r) ≤ sub32 (s.dev.ringProd r) (s.dev.ringCons r) →
        exec (.doorbell f off width v) s = .next (s.endsWith (s.dev.consumed r v.toNat))) ∧
      (hostProduced (s.dev.ringKind r) = false → sub32 (s.dev.ringProd r) (s.dev.ringCons r) < sub32 v.toNat (s.dev.ringCons r) →
        exec (.doorbell f off width v) s = .next (s.endsWith (s.dev.doorbellBad r)))) ∧
    (width ≠ 4 ∨ off % 8 ≠ 0 ∨ s.dev.takesDoorbell r = false →
      exec (.doorbell f off width v) s = .next (s.endsWith (s.dev.doorbellBad r)))

/-- The path of a TX entry: fetch, start, the data of its reads, the end. -/
def Obligations.FetchAndSendComplete : Prop :=
  (∀ (s : State) (r : Nat) (data : List Byte), s.live = true → s.dev.mayFetch r = true →
    let e := slice data 0 (16 * s.dev.ringUsed r)
    let k := min (s.dev.ringUsed r) (e.length / 16)
    let d := s.dev.slotsRead r
    let len := byteAt e 0 % 16 + 1
    let c := sendCells (s.dev.ringKind r) (byteAt e 1) (slice e 0 (16 * len))
    let more := d.setRing r { d.ring r with fetched := e }
    (slotMarked e 0 = true → s.dev.ringCons r % s.dev.ringCap r + len ≤ s.dev.ringCap r →
      (0 < k → k < len → exec (.entryFetch r data) s = .next (s.endsWith (more.slotRead r))) ∧
      (len ≤ k → byteAt e 1 = 0 → exec (.entryFetch r data) s = .next (s.endsWith ((d.ringConsume r len).slotRead r))) ∧
      (len ≤ k → byteAt e 1 ≠ 0 → ∀ x, d.sendAlloc r c = some x →
        let q := ((x.txCharge r).ringConsume r len).addWork r (byteAt e 1) (leAt e 4 4) (slice e 0 (16 * len)) c
        exec (.entryFetch r data) s = .next (s.endsWith
          ((if opcodeKnown (q.1.ringKind r) (byteAt e 1) = true then q.1 else q.1.finish r q.2 0x03).slotRead r))) ∧
      (len ≤ k → byteAt e 1 ≠ 0 → d.sendAlloc r c = none →
        exec (.entryFetch r data) s = .next (s.endsWith (d.setRing r { d.ring r with fetched := [] })))) ∧
    (slotMarked e 0 = false ∨ s.dev.ringCap r < s.dev.ringCons r % s.dev.ringCap r + len → 0 < k →
      let n := runLen e 1 (k - 1) + 1
      let q := ((d.txCharge r).ringConsume r n).addWork r 0 (leAt e 4 4) []
      (n = k → k < s.dev.ringUsed r → exec (.entryFetch r data) s = .next (s.endsWith (more.slotRead r))) ∧
      (n < k ∨ k = s.dev.ringUsed r →
        exec (.entryFetch r data) s = .next (s.endsWith ((q.1.finish r q.2 0x02 (toLE 4 n)).slotRead r))))) ∧
  (∀ (s : State) (r : Nat) (w : Work), s.live = true → s.dev.txNext r 1 = some w →
    (gatherOk w.entry = true →
      exec (.sendGather r) s = .next (s.endsWith ((s.dev.txStart r w).gather w (gatherElems w.entry) 0))) ∧
    (gatherOk w.entry = false → exec (.sendGather r) s = .next (s.endsWith (s.dev.finish r w.id 0x01)))) ∧
  (∀ (s : State) (r : Nat) (w : Work), s.live = true → s.dev.txNext r 2 = some w →
    (inlineOk w.entry = true → exec (.sendInline r) s = .next (s.endsWith
      ((s.dev.txStart r w).setWork r w.id fun x => { x with data := [(0, slice w.entry 16 (txLen w))] }))) ∧
    (inlineOk w.entry = false → exec (.sendInline r) s = .next (s.endsWith (s.dev.finish r w.id 0x01)))) ∧
  (∀ (s : State) (r : Nat) (w : Work), s.live = true →
    ((s.dev.ring r).work.find? fun w => w.done.isNone && w.started) = some w → s.dev.ringKind r = 1 → w.waiting = [] →
    exec (.txFrameReadDone r) s = .next (s.endsWith ((s.dev.fresh.1.finish r w.id 0).toDst
      { id := s.dev.nextId, data := slice w.allData 0 (txLen w), src := s.dev.fresh.1.txSource r, cells := w.cells,
        ingress := funcPort (s.dev.fresh.1.ringFunc r),
        tx := some { ring := r, tag := w.tag, tsReq := byteAt w.entry 2 % 2 = 1 } }))) ∧
  (∀ (s : State) (id : Nat) (data : List Byte) (h : HRead) (d : Dev), s.live = true → s.dev.takeRead id = some (h, d) →
    (h.asking = false → exec (.hostReadComplete id data) s = .next (s.endsWith ((d.readData h data).invalSettle h.func.link))) ∧
    (h.asking = true → exec (.hostReadComplete id data) s = .next (s.endsWith ((d.translated h data).invalSettle h.func.link))))

/-- Delivery to RX rings and the timer of the moderation. -/
def Obligations.DeliveryCompletes : Prop :=
  (∀ (s : State) (r a : Nat) (w : RxWait) (ws : List RxWait), s.live = true → (s.dev.ring r).rx = w :: ws →
    (s.dev.ring r).state = .active → s.dev.rxFits r w = some a →
    let d := s.dev.setRing r { s.dev.ring r with rx := ws, dataNext := a + w.pkt.data.length }
    let d := (d.dmaWrite (d.ringFunc r) (d.rd64 (rngKey r 0x28) + a) w.pkt.data true).ringEntry r (rxEntry w.pkt a)
    exec (.rxDeliver r) s = .next (s.endsWith ((d.setRing r
      { d.ring r with areas := (d.ring r).areas ++ [(d.ringProd r, a, roundUp w.pkt.data.length 64)] }).freePkt w.pkt))) ∧
  (∀ (s : State) (r : Nat) (w : RxWait) (ws : List RxWait), s.live = true → (s.dev.ring r).rx = w :: ws →
    w.since + s.dev.fld (rngKey r 0x30) 8 8 ≤ s.dev.bounds → s.dev.rxFits r w = none →
    exec (.rxHoldExpire r) s = .next (s.endsWith ((s.dev.setRing r { s.dev.ring r with rx := ws }).rxDiscard r w))) ∧
  (∀ (s : State) (r : Nat), s.live = true → (s.dev.ring r).state ≠ .off →
    exec (.ringIrqTimer r) s = .next { s with dev := s.dev.ringNotify r })

/-- The steps of a pass: distribution, expiry of the wait, admission, scan, late stages. -/
def Obligations.PassesComplete : Prop :=
  (∀ (s : State) (p : Pkt) (rest : List Pkt), s.live = true → s.dev.dst = p :: rest → s.dev.accepts .dst 0 = true →
    exec .distribute s = .next (s.endsWith (({ s.dev with dst := rest } : Dev).distribute p))) ∧
  (∀ (s : State) (id : Nat), s.live = true → s.dev.accepts .dst 0 = true →
    exec (.sluiceWaitExpire id) s = .next (s.endsWith ((rangeFrom 0 8).foldl (waitExpire id) s.dev))) ∧
  (∀ (s : State) (id : Nat) (p : Pkt) (rest : List Pkt), s.live = true → s.dev.accepts .dst 0 = false →
    takeFirst (fun p => decide (p.id = id) && s.dev.waitedOut p) s.dev.dst = some (p, rest) →
    exec (.sluiceWaitExpire id) s =
      .next (s.endsWith ((rangeFrom 0 8).foldl (waitExpire id) (({ s.dev with dst := rest } : Dev).dropPkt p 1)))) ∧
  (∀ (d : Dev) (id i : Nat) (p : Pkt) (rest : List Pkt),
    takeFirst (fun p => decide (p.id = id) && d.waitedOut p) (d.pipe i).firsts = some (p, rest) →
    waitExpire id d i = (d.setPipe i { d.pipe i with firsts := rest }).dropPkt p 1) ∧
  (∀ (s : State) (p : Nat) (pkt : Pkt) (q : Pipe) (e : Dev), s.live = true → s.dev.pipeAlive p = true →
    (s.dev.pipe p).deferred = false → (s.dev.pipe p).admitted < s.dev.admitMax → (s.dev.pipe p).leats = [] →
    (s.dev.pipe p).inService = true → s.dev.chooseFirst (s.dev.pipe p) = some (pkt, q) → pkt.cls = none →
    (s.dev.pipe p).lookups + lookupCost s.dev.active ≤ s.dev.budget → s.dev.cellAlloc pkt.src 1 = some e →
    exec (.sluiceAdmit p) s = .next (s.endsWith
      ((e.setPipe p { q with admitted := q.admitted + 1, lookups := q.lookups + lookupCost s.dev.active }).parseAndMatch p
        (s.dev.newPass p { pkt with stamp := s.dev.turn % 65536, pass := 1 } s.dev.turn s.dev.active false)))) ∧
  (∀ (s : State) (p : Nat) (cut : Option Nat) (ps : Pass) (rest : List Pass), s.live = true →
    (s.dev.pipe p).marks = ps :: rest →
    let q := s.dev.inspectPass p ps cut
    let t := s.endsWith ((q.1.setPipe p { q.1.pipe p with marks := rest, ready := (s.dev.pipe p).ready ++ [q.2] }).marksFlow p)
    (cut = none → exec (.patternScan p) s = .next t) ∧
    (∀ n, cut = some n → mayCut ps n = true → exec (.scanCut p n) s = .next t)) ∧
  (∀ (s : State) (p : Nat) (ps : Pass) (rest : List Pass), s.live = true →
    let d := s.dev.actFinish p
    (d.pipe p).ready = ps :: rest → ps.early = none →
    let q := matchStages (d.setPipe p { d.pipe p with ready := rest }) p 7 ps 6
    q.2.2 = none → q.2.1.list ≠ [] → exec (.stage7Start p) s = .next (s.endsWith (q.1.actUnit p q.2.1)))

/-- The instructions that edit the frame or act beside it: the context of the action unit after each. -/
def Obligations.EditsComplete : Prop :=
  ∀ (s : State) (p : Nat) (v : BitVec 64), s.live = true →
    let w := v.toNat
    let c := s.dev.actNow p
    let due := s.dev.actDue p
    (due 0x00 v → exec (.endRecord p v) s = .next (s.endsWith (s.dev.actThen p { c with recEnd := true }))) ∧
    (due 0x01 v → badSetField w = false → exec (.setField p v) s = .next (s.endsWith (s.dev.actThen p
      (c.writeRun (iw w 8 8) (iw w 16 4) (if bitOf w 24 then c.paramRun (iw w 20 2) (iw w 22 2 + 1) else [iw w 32 32]))))) ∧
    (due 0x02 v → badAddField w = false → exec (.addField p v) s = .next (s.endsWith (s.dev.actThen p
      (c.dstPut (iw w 8 8) (addField (c.dstGet (iw w 8 8)) (iw w 16 2) (iw w 32 32) (bitOf w 18)))))) ∧
    (due 0x03 v → badCopyField w = false → exec (.copyField p v) s = .next (s.endsWith (s.dev.actThen p
      (c.writeRun (iw w 8 8) (iw w 24 4) ((rangeFrom (iw w 16 8) (iw w 28 2 + 1)).map (srcWord c.ps)))))) ∧
    (∀ e : ActCtx, due 0x04 v → badPush w = false →
      c.push (iw w 8 8) (iw w 16 4) (bitOf w 20)
        (if bitOf w 23 then some ((c.paramRun (iw w 32 2) (iw w 30 2 + 1)).flatMap (toLE 4)) else none) (iw w 24 6) = .ok e →
      exec (.pushHdr p v) s = .next (s.endsWith (s.dev.actThen p e))) ∧
    (∀ e : ActCtx, due 0x05 v → c.pop (iw w 16 4) (iw w 20 2 + 1) = .ok e →
      exec (.popHdr p v) s = .next (s.endsWith (s.dev.actThen p e))) ∧
    (due 0x09 v → badMirror w = false → c.mirrors.length < 2 → exec (.mirror p v) s = .next (s.endsWith (s.dev.actThen p
      { c with mirrors := c.mirrors ++ [{ rewritten := bitOf w 8, toPort := bitOf w 9, ring := iw w 16 16, port := iw w 32 3,
                                          queue := iw w 40 6, trunc := iw w 48 16 }] }))) ∧
    (due 0x09 v → badMirror w = false → 2 ≤ c.mirrors.length →
      exec (.mirror p v) s = .next (s.endsWith ((s.dev.bump (actCount p 0x180)).actThen p c))) ∧
    (due 0x0A v →
      let i := if bitOf w 8 then (c.ref % 16777216 + iw w 16 24) % 16777216 else iw w 16 24
      let a := c.ps.cntBase + 16 * i
      let old := s.dev.hbmRead a 16
      (c.ps.cntLog ≠ 0 → i < 2 ^ c.ps.cntLog →
        exec (.count p v) s = .next (s.endsWith ((s.dev.hbmWrite a (toLE 8 (leAt old 0 8 + 1) ++
          toLE 8 (leAt old 8 8 + if bitOf w 9 then c.lenNow else c.ps.pkt.data.length))).actThen p c))) ∧
      (c.ps.cntLog = 0 ∨ 2 ^ c.ps.cntLog ≤ i →
        exec (.count p v) s = .next (s.endsWith ((s.dev.bump (actCount p 0x180)).actThen p c)))) ∧
    (due 0x0B v → badGovern w = false →
      let g := if bitOf w 8 then (c.ref % 1048576 + iw w 16 20) % 1048576 else iw w 16 20
      let x := s.dev.govern g (if iw w 52 2 = 3 then c.colour else iw w 52 2) c.lenNow
      let e := { c with colour := x.2 }
      (x.2 = 1 → exec (.govern p v) s = .next (s.endsWith (x.1.actThen p (e.colourAct (iw w 36 2) (iw w 40 6))))) ∧
      (x.2 = 2 → exec (.govern p v) s = .next (s.endsWith (x.1.actThen p (e.colourAct (iw w 38 2) (iw w 46 6))))) ∧
      (x.2 ≠ 1 → x.2 ≠ 2 → exec (.govern p v) s = .next (s.endsWith (x.1.actThen p e)))) ∧
    (due 0x0E v → exec (.learn p v) s = .next (s.endsWith ((s.dev.learnEvent
      { table := iw w 8 4, source := 1, pipe := p, key := slice (buildKey c.ps (iw w 16 5)) 0 (s.dev.tabCfg (iw w 8 4)).keyLen,
        hash := c.ps.pkt.hash, ingress := c.ps.pkt.ingress }).actThen p c)))

/-- The instructions that choose a disposition, and DROP, which ends the program. -/
def Obligations.DispositionsComplete : Prop :=
  ∀ (s : State) (p : Nat) (v : BitVec 64), s.live = true →
    let w := v.toNat
    let c := s.dev.actNow p
    let due := s.dev.actDue p
    (due 0x06 v → badSetPort w = false →
      exec (.setPort p v) s = .next (s.endsWith (s.dev.actThen p { c with dispo := some (.port (iw w 8 3)) }))) ∧
    (due 0x07 v → exec (.setQueue p v) s = .next (s.endsWith (s.dev.actThen p { c with queue := iw w 8 6 }))) ∧
    (due 0x08 v → badToRing w = false → exec (.toRing p v) s = .next (s.endsWith (s.dev.actThen p { c with dispo :=
      (some (if bitOf w 8 then .spread ⟨iw w 44 1, iw w 32 12⟩ else .ring (iw w 16 16))) }))) ∧
    (due 0x0C v → exec (.cipher p v) s = .next (s.endsWith (s.dev.actThen p { c with dispo := some (.cipher (iw w 8 21)) }))) ∧
    (due 0x0D v → badInspect w = false → exec (.inspect p v) s = .next (s.endsWith (s.dev.actThen p { c with inspect :=
      (some (if bitOf w 15 then { off := true }
             else { off := false, stream := bitOf w 14, set := iw w 8 6, offset := iw w 16 16, limit := iw w 32 15 })) }))) ∧
    (due 0x0F v → exec (.leat p v) s = .next (s.endsWith (s.dev.actThen p { c with dispo := some .leat }))) ∧
    (due 0x10 v → exec (.toCore p v) s = .next (s.endsWith (s.dev.actThen p { c with dispo :=
      (some (.core (if bitOf w 8 then some (iw w 16 5) else none))) }))) ∧
    (due 0x12 v → exec (.timestampOneStep p v) s = .next (s.endsWith (s.dev.actThen p { c with stamps :=
      (c.stamps ++ [(bitOf w 8, if bitOf w 20 then none else some (iw w 16 4))]) }))) ∧
    (due 0x11 v → exec (.drop p v) s = .next (s.endsWith (s.dev.actLeft p { c with stop := some .drop })))

/-- Reserved operands: the fault counted and raised, the program ended and its packet dropped (that an instruction runs when
its word is next in the unit is the model's choice, log entry 187). -/
def Obligations.BadOperandsFault : Prop :=
  ∀ (s : State) (p : Nat) (v : BitVec 64), s.live = true →
    ∀ q ∈ [(Instr.setField p v, 0x01, badSetField v.toNat), (.addField p v, 0x02, badAddField v.toNat),
           (.copyField p v, 0x03, badCopyField v.toNat), (.pushHdr p v, 0x04, badPush v.toNat),
           (.setPort p v, 0x06, badSetPort v.toNat), (.toRing p v, 0x08, badToRing v.toNat),
           (.mirror p v, 0x09, badMirror v.toNat), (.govern p v, 0x0B, badGovern v.toNat),
           (.inspect p v, 0x0D, badInspect v.toNat)],
      s.dev.actDue p q.2.1 v → q.2.2 = true →
      exec q.1 s = .next (s.endsWith (((s.dev.bump (actCount p 0x148)).raise .act p 2 8).actLeft p
        { (s.dev.pipe p).act with stop := some (.fault 1) }))

/-- The states of a table. -/
def Obligations.TablesAreManaged : Prop :=
  (∀ (s : State) (pt : Party) (n : Nat) (v : BitVec 32) (t : Tgt), s.permits pt (tabReg n 0x38) 4 (putBits v.toNat 0 1 1) t →
    (hostParty t.acc.pt && s.dev.tabFw n) = false → t.acc.data % 4 = 1 → (s.dev.table n).state = .off → s.dev.tabOk n = true →
    exec (.tableCreate pt n v) s = .next { s with dev := ((s.dev.tabForget n).setTable n { s.dev.table n with
      state := .init, initDone := false, changeTurn := s.dev.turn, entries := 0, sweepAt := 0, scrubAt := 0 }) }) ∧
  (∀ (s : State) (n : Nat), s.live = true → (s.dev.table n).state = .init → (s.dev.table n).initDone = false →
    let c := s.dev.tabCfg n
    let d : Dev := { s.dev with hbm :=
      (s.dev.hbm.filter fun a _ => !(decide (c.base ≤ a) && decide (a < c.base + 2 ^ c.log2 * 128))) }
    exec (.initDone n) s = .next (s.endsWith (((d.eccClear c.base (2 ^ c.log2 * 128)).setTable n
      { s.dev.table n with initDone := true, changeTurn := s.dev.turn }).raise .tbl 0 0 8))) ∧
  (∀ (s : State) (pt : Party) (n : Nat) (v : BitVec 32) (t : Tgt), s.permits pt (tabReg n 0x38) 4 (putBits v.toNat 1 1 1) t →
    (hostParty t.acc.pt && s.dev.tabFw n) = false → t.acc.data % 4 = 2 → (s.dev.table n).state = .ready →
    exec (.tableDestroy pt n v) s = .next { s with dev := (s.dev.setTable n
      { s.dev.table n with state := .draining, changeTurn := s.dev.turn, initDone := false }).tblAbort n }) ∧
  (∀ (s : State) (n : Nat), s.live = true → (s.dev.table n).state = .draining →
    (s.dev.rings.cells.any fun q => decide (s.dev.ringKind q.1 = 4) &&
      q.2.work.any fun w => w.done.isNone && decide (byteAt w.entry 2 % 16 = n)) = false →
    exec (.tableDrainDone n) s =
      .next (s.endsWith (s.dev.setTable n { s.dev.table n with initDone := true, changeTurn := s.dev.turn })))

/-- The change commands of a table: the change and the completion. -/
def Obligations.TableChangesComplete : Prop :=
  (∀ (s : State) (r t : Nat) (w : Work), s.live = true → s.dev.tblReady r 1 w t →
    tblAt w = 0 ∨ s.dev.turnOk (tblAt w) = true → s.dev.untilOk (tblUntil w) = true → s.dev.flowFull (s.dev.ringFunc r) = false →
    let q := s.dev.tblInsert t (s.dev.tblNew (s.dev.tabCfg t) w) none
    s.dev.changeLocal w t q.1 →
    exec (.insert r) s = .next (s.endsWith (q.1.finishMirrored s.dev.pair.s0.next w.ring w.id q.2.st (tblResult q.2)))) ∧
  (∀ (s : State) (r t : Nat) (w : Work), s.live = true → s.dev.tblReady r 2 w t → s.dev.atOk (tblAt w) = true → tblAt w ≠ 0 →
    s.dev.untilOk (tblUntil w) = true →
    let q := s.dev.tblReplaceAt t (s.dev.ringFunc r) (s.dev.tblNew (s.dev.tabCfg t) w) (tblAt w)
    s.dev.changeLocal w t q.1 →
    exec (.replace r) s = .next (s.endsWith (q.1.finishMirrored s.dev.pair.s0.next w.ring w.id q.2.st (tblResult q.2)))) ∧
  (∀ (s : State) (r t l : Nat) (w : Work), s.live = true → s.dev.tblReady r 2 w t → tblAt w = 0 → s.dev.untilOk (tblUntil w) = true →
    let c := s.dev.tabCfg t
    let q := s.dev.keyBad t c (tblKey c w)
    q.2 = false → q.1.entryOf c (tblKey c w) s.dev.turn = some l → q.1.mayTouch (s.dev.ringFunc r) c l = true →
    let e := q.1.entryAt c l
    let e := c.put (c.put (c.put e 0 3 (leAt w.entry 8 3)) 3 1 (putBits (c.flags e) 2 1 (b2n (bitOf (tblFlags w) 1)))) 12 4
      (tblUntil w)
    let d := q.1.putEntry t l (c.put (c.put e 20 4 (leAt w.entry 12 4)) 24 8 (tblRef w))
    s.dev.changeLocal w t d →
    exec (.replace r) s =
      .next (s.endsWith (d.finishMirrored s.dev.pair.s0.next w.ring w.id 0 (tblResult { st := 0, loc := l })))) ∧
  (∀ (s : State) (r t : Nat) (w : Work), s.live = true → s.dev.tblReady r 3 w t → tblAt w = 0 ∨ s.dev.atOk (tblAt w) = true →
    let q := s.dev.tblDelete t (s.dev.ringFunc r) (tblKey (s.dev.tabCfg t) w) (tblAt w)
    s.dev.changeLocal w t q.1 →
    exec (.delete r) s = .next (s.endsWith (q.1.finishMirrored s.dev.pair.s0.next w.ring w.id q.2.st (tblResult q.2)))) ∧
  (∀ (s : State) (r t : Nat) (w : Work), s.live = true → s.dev.tblReady r 4 w t →
    tblAt w = 0 ∨ s.dev.turnOk (tblAt w) = true →
    let q := s.dev.tblRefresh t (s.dev.ringFunc r) (tblKey (s.dev.tabCfg t) w)
    s.dev.changeLocal w t q.1 →
    exec (.refresh r) s = .next (s.endsWith (q.1.finishMirrored s.dev.pair.s0.next w.ring w.id q.2.st (tblResult q.2))))

/-- Reads of tables and the work of sweeper and scrubber. -/
def Obligations.TableReadsComplete : Prop :=
  (∀ (s : State) (r t l : Nat) (w : Work), s.live = true → s.dev.tblReady r 5 w t →
    let c := s.dev.tabCfg t
    let q := s.dev.keyBad t c (tblKey c w)
    q.2 = false → q.1.findEntry c (tblKey c w) (fun _ => true) = some l → q.1.mayTouch (q.1.ringFunc r) c l = true →
    exec (.tblcRead r) s =
      .next (s.endsWith (q.1.finishPut r w.id (tblRef w) (c.shown (q.1.entryAt c l)) (tblResult { st := 0, loc := l })))) ∧
  (∀ (s : State) (r t : Nat) (w : Work), s.live = true → s.dev.tblReady r 6 w t → leAt w.entry 8 4 < 2 ^ (s.dev.tabCfg t).log2 →
    (w.started = false → exec (.writeBucket r) s =
      .next (s.endsWith ((s.dev.setWork r w.id fun x => { x with started := true }).workRead w 0 (tblRef w) 128))) ∧
    (w.started = true → w.waiting = [] → s.dev.groupActive (s.dev.groupOf 4 t) = false →
      exec (.writeBucket r) s = .next (s.endsWith
        ((s.dev.putBucket t (s.dev.tabCfg t) (leAt w.entry 8 4) (slice w.allData 0 128)).finishMirrored s.dev.pair.s0.next r w.id
          0 [])))) ∧
  (∀ (s : State) (r t : Nat) (w : Work) (f : FilterSlot), s.live = true → s.dev.tblReady r 7 w t →
    s.dev.filter.find (leAt w.entry 8 2 % 4096) = some f → crc32c 0xFFFFFFFF f.key = leAt w.entry 12 4 →
    exec (.learnKey r) s = .next (s.endsWith (s.dev.finishPut r w.id (tblRef w) f.key))) ∧
  (∀ (s : State) (t : Nat), s.live = true → (s.dev.table t).state = .ready → s.dev.accepts .tbl 0 = true →
    s.dev.sweepPace t ≠ 0 →
    (s.dev.tabStalled t = false → exec (.sweepVisit t) s =
      .next (s.endsWith ((s.dev.setTable t { s.dev.table t with swept := s.dev.bounds }).sweepBuckets t (s.dev.sweepPace t)))) ∧
    (s.dev.tabStalled t = true → exec (.sweepVisit t) s = .next (s.endsWith s.dev.mirrorStall))) ∧
  (∀ (d : Dev) (t n : Nat),
    let c := d.tabCfg t
    let b := (d.table t).sweepAt
    let q := (d.setTable t { d.table t with sweepAt := (b + 1) % 2 ^ c.log2 }).bucketBad t c b
    d.tabStalled t = false → q.2 = false →
    d.sweepBuckets t (n + 1) = ((c.slots b).foldl (Dev.sweepSlot t) (q.1.bucketHeal c b)).sweepBuckets t n) ∧
  (∀ (s : State) (t : Nat) (p : SweepPend) (rest : List SweepPend), s.live = true →
    takeFirst (fun p => decide (p.table = t) && decide (p.turn ≤ s.dev.turn)) s.dev.sweeps = some (p, rest) →
    let c := s.dev.tabCfg t
    let d : Dev := { s.dev with sweeps := rest }
    let e := d.entryAt c p.slot
    d.bucketBad t c p.bucket = (d, false) → s.dev.tabStalled t = false →
    (s.dev.table t).state = .ready → s.dev.standsBy (s.dev.groupOf 4 t) = false → c.valid e = true → c.key e = p.key →
    c.f32 e 4 = p.lastHit →
    exec (.sweepDelete t) s = .next (s.endsWith (d.ageOut t p.slot))) ∧
  (∀ (s : State) (t : Nat) (shadow : List (List Byte)), s.live = true → s.dev.scrubOn t = true →
    (s.dev.table t).scrubbed < s.dev.bounds →
    exec (.scrubVisit t shadow) s = .next (s.endsWith ((s.dev.setTable t { s.dev.table t with scrubbed := s.dev.bounds }).scrubVisits
      t (shadow.take (s.dev.fld (tabReg t 0x2C) 16 16))))) ∧
  (∀ (s : State) (t bucket : Nat) (shadow : List Byte) (p : ScrubPend) (rest : List ScrubPend), s.live = true →
    takeFirst (fun p => decide (p.table = t ∧ p.bucket = bucket)) s.dev.scrubs = some (p, rest) → s.dev.scrubOn t = true →
    s.dev.tabStalled t = false → p.turn + s.dev.fld (reg .tbl 0 0x108) 0 24 ≤ s.dev.bounds →
    let c := s.dev.tabCfg t
    let q := (s.dev.shadowRead t bucket).bucketBad t c bucket
    let d : Dev := { q.1.bucketHeal c bucket with scrubs := rest }
    let got := s.dev.shadowGot t shadow
    q.2 = false →
    (got ≠ [] → d.hbmRead (c.base + bucket * 128) 128 = p.hw →
      exec (.scrubRecheck t bucket shadow) s =
        .next (s.endsWith (d.mismatches t bucket got (d.disagree c bucket got)))) ∧
    (got = [] → exec (.scrubRecheck t bucket shadow) s = .next (s.endsWith ((q.1.bucketHeal c bucket).shadowFail t)))) ∧
  (∀ (s : State) (t bucket : Nat) (shadow : List Byte), s.live = true → (t, bucket) ∈ s.dev.faults → s.dev.scrubOn t = true →
    s.dev.tabStalled t = false → s.dev.bit (tabReg t 0xC) 5 = true → s.dev.shadowGot t shadow ≠ [] →
    let d := s.dev.shadowRead t bucket
    let c := d.tabCfg t
    let e := ((c.slots bucket).foldl (fun d l => d.repairSlot t c bucket l (s.dev.shadowGot t shadow)) d).eccClear (c.base + bucket * 128) 128
    exec (.faultRepair t bucket shadow) s = .next (s.endsWith { e with faults := e.faults.filter fun x => x ≠ (t, bucket) }))

/-- Image access: a read copies the entry, a write sets the entry of the staged copy; the indirection tables likewise. -/
def Obligations.ImageAccessCompletes : Prop :=
  (∀ (s : State) (pt : Party) (p : Nat) (v : BitVec 32) (rs : RuleSet),
    ∀ q ∈ [(Instr.prsImgRead pt p v, prsImg), (.clsImgRead pt p v, clsImg), (.actImgRead pt p v, actImg), (.patImgRead pt p v, patImg)],
      ∀ t : Tgt, s.permits pt (reg q.2.blk p 0x108) 4 (putBits v.toNat 1 1 1) t → t.acc.data % 4 = 2 →
        let b := t.loc.instBase
        let image := q.2.first + s.dev.fld (b + 0x100) 0 (if q.2.blk = .cls then 3 else 2)
        let i := s.dev.fld (b + 0x104) 0 16
        let copy := s.dev.fld (b + 0x100) 4 2
        imgIndexOk image i = true →
        (if copy = 0 then s.dev.staged else if copy = 1 then some s.dev.active else s.dev.retained) = some rs →
        exec q.1 s = .next { s with dev := s.dev.wrWords (b + 0x140) (slice (rs.entry image i) 0 (4 * q.2.words)) q.2.words }) ∧
  (∀ (s : State) (pt : Party) (p : Nat) (v : BitVec 32) (rs : RuleSet),
    ∀ q ∈ [(Instr.prsImgWrite pt p v, prsImg), (.clsImgWrite pt p v, clsImg), (.actImgWrite pt p v, actImg), (.patImgWrite pt p v, patImg)],
      ∀ t : Tgt, s.permits pt (reg q.2.blk p 0x108) 4 (putBits v.toNat 0 1 1) t → t.acc.data % 4 = 1 → s.dev.staged = some rs →
        let b := t.loc.instBase
        let image := q.2.first + s.dev.fld (b + 0x100) 0 (if q.2.blk = .cls then 3 else 2)
        let i := s.dev.fld (b + 0x104) 0 16
        let e := slice ((rangeFrom 0 q.2.words).flatMap fun j => toLE 4 (s.dev.rdN (b + 0x140 + 4 * j))) 0 (imgBytes image)
        imgIndexOk image i = true → s.dev.fld (b + 0x100) 4 2 = 0 →
        (s.dev.badEntry image e = false →
          exec q.1 s = .next { s with dev := { s.dev with staged := some (rs.setEntry image i e) } }) ∧
        (s.dev.badEntry image e = true → exec q.1 s = .next { s with dev := s.dev.logAcc t.acc q.2.bad })) ∧
  (∀ (s : State) (pt : Party) (p : Nat) (v : BitVec 32) (t : Tgt),
    let b := t.loc.instBase
    let sel := s.dev.rdN (b + 0x100)
    let i := s.dev.fld (b + 0x104) 0 12
    let key := if bitOf sel 16 then coreInd + i else fkey ⟨bitsOf sel 12 1, bitsOf sel 0 12⟩ * 4096 + i
    (s.permits pt (reg .hsh p 0x108) 4 (putBits v.toNat 1 1 1) t → t.acc.data % 4 = 2 →
      exec (.hshIndRead pt p v) s = .next { s with dev := s.dev.wrN (b + 0x10C) (s.dev.indLast key) }) ∧
    (s.permits pt (reg .hsh p 0x108) 4 (putBits v.toNat 0 1 1) t → t.acc.data % 4 = 1 →
      exec (.hshIndWrite pt p v) s =
        .next { s with dev := s.dev.indWrite key (s.dev.fld (b + 0x10C) 0 (if bitOf sel 16 then 5 else 16)) }))

/-- Pattern images: compiled under the lowest free handle, and released. -/
def Obligations.PatternImagesComplete : Prop :=
  (∀ (s : State) (r : Nat) (w : Work), s.live = true → s.dev.mbxReady r 0x40 w → mbxLen w ≠ 0 → mbxLen w ≤ 4194304 →
    (w.started = false → exec (.patCompile r) s =
      .next (s.endsWith ((s.dev.setWork r w.id fun x => { x with started := true }).workRead w 0 (mbxAddr w) (mbxLen w)))) ∧
    (∀ ps : List Pattern, w.started = true → w.waiting = [] →
      compileSource (slice w.allData 0 (mbxLen w)) = .ok ps → s.dev.images.cells.length < 256 →
      s.dev.patternsHeld + ps.length ≤ 65536 →
      exec (.patCompile r) s = .next (s.endsWith (({ s.dev with images := s.dev.images.put s.dev.freeHandle ps } : Dev).finish r
        w.id 0 (toLE 2 s.dev.freeHandle ++ toLE 4 ps.length)))) ∧
    (∀ st ln : Nat, w.started = true → w.waiting = [] → compileSource (slice w.allData 0 (mbxLen w)) = .error (st, ln) →
      exec (.patCompile r) s = .next (s.endsWith (s.dev.finish r w.id st (toLE 4 ln))))) ∧
  (∀ (s : State) (r : Nat) (w : Work), s.live = true → s.dev.mbxReady r 0x41 w →
    (s.dev.images.find (mbxArg w % 1024)).isSome = true → s.dev.active.names (mbxArg w % 1024) = false →
    (∀ x, s.dev.staged = some x → x.names (mbxArg w % 1024) = false) →
    (∀ x, s.dev.retained = some x → x.names (mbxArg w % 1024) = false) →
    exec (.patRelease r) s = .next (s.endsWith
      (({ s.dev with images := s.dev.images.erase (mbxArg w % 1024) } : Dev).finish r w.id 0)))

/-- Learning: sending, receiving, resync, the token bucket of learn events. -/
def Obligations.LearningCompletes : Prop :=
  (∀ (s : State) (t : Nat), s.live = true → (s.dev.table t).refill + 256 ≤ s.dev.bounds →
    exec (.learnTokenRefill t) s = .next { s with dev := (s.dev.setTable t { s.dev.table t with
      tokens := (min (s.dev.fld (tabReg t 0x30) 16 16) ((s.dev.table t).tokens + s.dev.fld (tabReg t 0x30) 0 16)),
      refill := s.dev.bounds }) }) ∧
  (∀ (s : State) (q0 : LrnRec) (qs : List LrnRec), s.live = true → s.dev.lrn.queue = q0 :: qs →
    let take := lrnTake (s.dev.fld (reg .lrn 0 0x124) 0 14) (q0 :: qs) 0 28
    let body := take.flatMap (·.bytes)
    q0.turn + s.dev.fld (reg .lrn 0 0x118) 0 8 ≤ s.dev.bounds → take ≠ [] → s.dev.accepts .lrn 0 = true →
    s.dev.lrnStandby = false → s.dev.lrnCells (28 + body.length) = true →
    let stalled := take.any s.dev.recMirrored && s.dev.pairFull
    let m := (take.filter s.dev.recMirrored).length
    let d := (({ s.dev with lrn := { s.dev.lrn with queue := (q0 :: qs).drop take.length } } : Dev).lrnNew 0 take.length body).bump
      (lrnCount 1) take.length
    (stalled = true → exec .lrnFrameSend s = .next (s.endsWith s.dev.mirrorStall)) ∧
    (stalled = false → m = 0 → exec .lrnFrameSend s = .next (s.endsWith d)) ∧
    (stalled = false → m ≠ 0 → exec .lrnFrameSend s = .next (s.endsWith (d.mirror 0 6 (toBE 4 m))))) ∧
  (∀ (s : State) (ingress : Nat) (raw : List Byte) (rest : List (Nat × List Byte)), s.live = true →
    s.dev.lrn.rx = (ingress, raw) :: rest →
    let d : Dev := { s.dev with lrn := { s.dev.lrn with rx := rest } }
    (d.lrnRead ingress raw = none → exec .lrnFrameReceive s = .next (s.endsWith (d.bump (lrnCount 10)))) ∧
    (∀ f, d.lrnRead ingress raw = some f →
      let held := d.accepts .tbl 0 = false ∧ f.recs ≠ [] ∧ d.bit (reg .lrn 0 0x100) 2 = false
      let e := (d.bump (lrnCount 2)).bump (lrnCount 3) f.recs.length
      let q := e.lrnSequence f raw
      let x := if q.2 = true then q.1.lrnControl f raw else q.1
      let stalled := f.recs.any fun r => d.tabStalled r.table
      (held → exec .lrnFrameReceive s = .next (s.endsWith s.dev)) ∧
      (¬ held → stalled = true → exec .lrnFrameReceive s = .next (s.endsWith s.dev.mirrorStall)) ∧
      (¬ held → stalled = false → exec .lrnFrameReceive s =
        .next (s.endsWith (if x.draws = e.draws ∨ e.entRuns 3 = true then x else s.dev))))) ∧
  (∀ (s : State) (sender first last : Nat) (rest : List (Nat × Nat × Nat)), s.live = true →
    s.dev.lrn.resync = (sender, first, last) :: rest → s.dev.accepts .lrn 0 = true → s.dev.lrnStandby = false →
    let again := s.dev.lrn.sent.filter fun f => decide (sub32 f.1 first ≤ sub32 last first)
    let d := again.foldl Dev.lrnAgain { s.dev with lrn := { s.dev.lrn with resync := rest } }
    (∀ a b, goneRange first last (again.map fun f => f.1 % p32) = some (a, b) →
      exec .lrnResyncRequest s = .next (s.endsWith (d.lrnNew 16 0 (resyncBody sender a b)))) ∧
    (goneRange first last (again.map fun f => f.1 % p32) = none → exec .lrnResyncRequest s = .next (s.endsWith d))) ∧
  (∀ (s : State) (sender a l : Nat), s.live = true → (s.dev.peer sender).asked = some (a, l) →
    (s.dev.peer sender).turn + s.dev.fld (reg .lrn 0 0x120) 0 16 ≤ s.dev.bounds →
    ((s.dev.peer sender).tries < s.dev.fld (reg .lrn 0 0x120) 16 4 →
      exec (.lrnResyncRetry sender) s = .next (s.endsWith ((s.dev.setPeer sender { s.dev.peer sender with
        tries := (s.dev.peer sender).tries + 1, turn := s.dev.bounds }).askResync sender a l))) ∧
    (s.dev.fld (reg .lrn 0 0x120) 16 4 ≤ (s.dev.peer sender).tries →
      let e := s.dev.giveUp sender a l
      exec (.lrnResyncRetry sender) s = .next (s.endsWith (if e.draws = s.dev.draws ∨ s.dev.entRuns 3 = true then e else s.dev))))

/-- Ports: frames, priority flow control, link states, modules, lanes. -/
def Obligations.PortsComplete : Prop :=
  (∀ (s : State) (port : Nat) (frame : List Byte) (chk : RxCheck), s.live = true → port ≤ 4 → (s.dev.port port).link = .up →
    let f := s.dev.fecCount port chk
    let d := (f.macBump port 0).macBump port 1 (frame.length + 4)
    let ts := f.portTs s.time port 0xE10
    let suspect := s.time.suspect d.holdLimit
    let sec := decide (port < 4) && d.bit (reg .mac port 0xC00) 1
    (∀ e, f.macDiscard port frame chk.ok = some e → exec (.frameReceive port frame chk) s = .next (s.endsWith e)) ∧
    (f.macDiscard port frame chk.ok = none →
      ((d.portStandby port && !d.standbyKeeps frame) = true →
        exec (.frameReceive port frame chk) s = .next (s.endsWith (d.macBump port 7))) ∧
      ((d.portStandby port && !d.standbyKeeps frame) = false →
        (sec = false → exec (.frameReceive port frame chk) s = .next (s.endsWith (d.storeFrame port frame none ts suspect))) ∧
        (sec = true →
          let w := d.secWaits port frame
          let q := w.1.secRx port frame
          (w.2 = false → w.1.secHolds frame = false →
            exec (.frameReceive port frame chk) s = .next (s.endsWith (q.1.storeFrame port q.2.1 q.2.2 ts suspect))) ∧
          (w.2 = true ∨ w.1.secHolds frame = true →
            exec (.frameReceive port frame chk) s = .next (s.endsWith (w.1.setPort port { w.1.port port with
              secHeld := (w.1.port port).secHeld ++ [{ data := frame, ts := ts, suspect := suspect }] }))))))) ∧
  (∀ (s : State) (port q : Nat) (i : EgrItem), s.live = true → (s.dev.port port).link = .up → s.dev.secDown port = false →
    (s.dev.pickQueue s.time port).2 = some q → (s.dev.pickQueue s.time port).1.head q = some i →
    exec (.frameTransmit port) s = .next (s.endsWith
      (s.dev.sendFrame s.time port q (s.dev.pickQueue s.time port).1 i (s.time.suspect s.dev.holdLimit)))) ∧
  (∀ (s : State) (port : Nat) (en : BitVec 8) (quanta : List Nat), s.live = true → port < 4 → (s.dev.port port).link = .up →
    exec (.pfcReceive port en quanta) s = .next (s.endsWith (s.dev.pfcTake port en.toNat quanta))) ∧
  (∀ (s : State) (port pri : Nat), s.live = true →
    exec (.pfcPauseExpire port pri) s =
      .next (s.endsWith (s.dev.setPort port { s.dev.port port with paused := (s.dev.port port).paused.erase pri }))) ∧
  (∀ (s : State) (port pri t : Nat), s.live = true → port < 4 → (s.dev.port port).pfcSent.find pri = some t →
    t + s.dev.fld (reg .mpd 0 (0x400 + 0x10 * port) + 12) 0 16 ≤ s.dev.bounds →
    s.dev.fld (reg .mpd 0 (0x400 + 0x10 * port) + 8) 0 21 ≤ s.dev.priCells.getD (port * 8 + pri) 0 →
    exec (.pfcRefresh port pri) s = .next (s.endsWith ((s.dev.setPort port
      { s.dev.port port with pfcSent := (s.dev.port port).pfcSent.put pri s.dev.bounds }).pfcEmit port pri 0xFFFF))) ∧
  (∀ (s : State) (port : Nat), s.live = true →
    ((s.dev.port port).link = .disabled → s.dev.portReady port = true → s.dev.refUp = true →
      exec (.portEnable port) s = .next (s.endsWith (s.dev.linkTo port .training false))) ∧
    ((s.dev.port port).link = .training → s.dev.portReady port = true → s.dev.refUp = true →
      (s.dev.port port).since + (if port < 4 then s.dev.fld (reg .mac port 0x108) 0 16 else 0) ≤ s.dev.bounds →
      exec (.portLinkUp port) s = .next (s.endsWith (((s.dev.recalDone port).setPort port { s.dev.port port with
        link := .up, since := (s.dev.recalDone port).bounds, localFault := false, remoteFault := false }).macRaise port 9))) ∧
    (∀ kind, (s.dev.port port).link = .up →
      let d := (s.dev.linkTo port .fault true).tellRemote port kind
      exec (.portLinkFault port kind) s = .next (s.endsWith (d.setPort port { d.port port with localFault := kind = .localFault, remoteFault := kind = .remoteFault }))) ∧
    ((s.dev.port port).link = .training →
      exec (.trainingTimeout port) s = .next (s.endsWith (s.dev.linkTo port .training false))) ∧
    ((s.dev.port port).link ≠ .disabled → s.dev.portReady port = false →
      exec (.portDisable port) s = .next (s.endsWith ((s.dev.linkTo port .disabled false).recalDone port)))) ∧
  (∀ (s : State) (port : Nat) (present : Bool), s.live = true → port < 4 → (s.dev.port port).modPresent ≠ present →
    exec (.modprsChange port present) s =
      .next (s.endsWith ((s.dev.setPort port { s.dev.port port with modPresent := present }).raise .mac port 0 11))) ∧
  (∀ (s : State) (port : Nat), s.live = true → port < 4 →
    let p := s.dev.port port
    let d := s.dev.setPort port { p with modInt := !p.modInt }
    exec (.modintAssert port) s = .next (s.endsWith (if p.modInt = true then d else d.raise .mac port 0 12))) ∧
  (∀ (s : State) (pt : Party) (quad lane : Nat) (v : BitVec 32) (t : Tgt),
    s.permits pt (laneCtrl quad lane) 4 (putBits v.toNat 8 1 1) t → bitOf t.acc.data 8 = true →
    exec (.forceRecal pt quad lane v) s = .next (s.endsWith (laneCtrlW quad lane s.dev t)))

/-- The cipher engine: inline packets, jobs of LOOK rings, grain jobs, entropy. -/
def Obligations.CipherWorkCompletes : Prop :=
  (∀ (s : State) (lane : Nat) (j : InlineJob) (rest : List InlineJob) (d : Dev) (k : KeySlot), s.live = true →
    (s.dev.lane 0 lane).queue = j :: rest → (s.dev.lane 0 lane).active = none → (s.dev.lane 0 lane).fenced = none →
    s.dev.accepts .cip 0 = true → s.dev.entRuns 0 = true → s.dev.saUsable j.sa [1, 2] = (d, .ok k) →
    exec (.inlineStart lane) s = .next (s.endsWith
      (if saKind (d.saRead j.sa) = 1 then d.startIn lane j k d else d.startOut lane j k))) ∧
  (∀ (s : State) (lane : Nat) (r : InlineRun), s.live = true → (s.dev.lane 0 lane).active = some r → s.dev.entRuns 0 = true →
    exec (.inlineComplete lane) s =
      .next (s.endsWith (if saKind r.rec_ = 1 then s.dev.endIn lane r else s.dev.endOut lane r))) ∧
  (∀ (s : State) (r : Nat), s.live = true → s.dev.ringKind r = 3 → s.dev.accepts .cip 1 = true → s.dev.entRuns 1 = true →
    s.dev.jobsRunning < s.dev.lanesFree 1 →
    ∀ q ∈ [(Instr.encrypt r, 1), (.decrypt r, 2), (.macJob r, 3), (.lookVerify r, 4), (.hashJob r, 5)],
      ∀ w : Work, ((s.dev.ring r).work.find? fun w => w.done.isNone && !w.started) = some w → w.opcode = q.2 →
        (∀ (d e : Dev) (ks : List KeySlot), jobCheck w = none → s.dev.jobKeys w = (d, .ok ks) →
          d.holdRoom 1 (jobUnits w q.2) = (e, true) → exec q.1 s = .next (s.endsWith (e.jobRun w q.2 ks))) ∧
        (∀ (d : Dev) (st : Nat), jobCheck w = none → s.dev.jobKeys w = (d, .error st) →
          exec q.1 s = .next (s.endsWith (d.jobEnd w st 0 0))) ∧
        (∀ st, jobCheck w = some st → exec q.1 s = .next (s.endsWith (s.dev.jobEnd w st 0 0)))) ∧
  (∀ (s : State) (r : Nat) (w : Work), s.live = true → s.dev.entRuns 1 = true →
    ((s.dev.ring r).work.find? fun w => w.done.isNone && w.started && decide (w.opcode ≤ 5) && decide (w.note.head? = some 2) &&
      decide (w.waiting = [])) = some w → s.dev.master (s.dev.ringFunc r) = true →
    let x := jobResult w
    let d := if x.2.1 = [] then s.dev else s.dev.dmaWrite (s.dev.ringFunc r) (leAt w.entry 24 8) x.2.1
    let d := if x.2.2 = [] then d else d.dmaWrite (s.dev.ringFunc r) (leAt w.entry 40 8) x.2.2
    exec (.lookJobComplete r) s = .next (s.endsWith (d.jobEnd w x.1 x.2.1.length x.2.2.length))) ∧
  (∀ (s : State) (id : Nat) (t : GTask), s.live = true → s.dev.task? id = some t →
    (s.dev.storeRuns t = true → t.phase = .open_ →
      exec (.storeJobComplete id) s = .next (s.endsWith (s.dev.taskRead t).blkPump)) ∧
    (∀ (x : Vol) (d : Dev) (key : List Byte), s.dev.storeRuns t = true → t.phase = .seal → s.dev.vols.find t.vol = some x →
      s.dev.volKey x.rec_ = (d, some key) →
      let v := (x.ent t.grain).version + 1
      let q := grainSeal (vrXts x.rec_) key t.vol t.grain v t.plain
      let u : GTask := { t with ct := q.1, ent := { version := v, mapped := true, digest := q.2.2, tag := q.2.1 }, phase := .space }
      exec (.storeJobComplete id) s = .next (s.endsWith (((d.storeJobs 1 0).setTask id fun _ => u).taskPlace u))) ∧
    (s.dev.storeRuns t = false → s.dev.clusterTakes 2 = false → t.phase = .seal ∨ t.phase = .open_ → s.dev.jobOverdue t = true →
      exec (.storeJobComplete id) s = .next (s.endsWith (s.dev.cmdEnd t.cmd 0x3F 0).blkPump))) ∧
  (∀ (s : State) (apt : Bool), s.live = true →
    let d := (s.dev.bump (reg .ent 0 (if apt then 0x118 else 0x110))).wrN (reg .ent 0 0x100) 2
    let d := if s.dev.bit (reg .ent 0 0x100) 1 then d else d.raise .ent 0 0 8
    exec (.entHealthFail apt) s = .next (s.endsWith (((d.randStall 0 true).randStall 1 true).randStall 2 true))) ∧
  (∀ s : State, s.live = true → s.dev.rdN (reg .ent 0 0x100) ≠ 0xF1 →
    let d := ((s.dev.wrN (reg .ent 0 0x100) 0xF1).raise .ent 0 0 9).entReseed
    exec .entRecovered s = .next (s.endsWith ((rangeFrom 0 4).foldl Dev.secResume
      (((d.randStall 0 false).randStall 1 false).randStall 2 false)))) ∧
  (∀ (s : State) (pt : Party) (width : Nat) (d : Dev) (t : Tgt), s.live = true →
    s.dev.readCheck pt (reg .ent 0 0x108) width = (d, some t) →
    exec (.entRandRead pt width) s = .next { s with dev := d.entRand.1.emit (.readData pt (w64 (t.view d.entRand.2))) })

/-- KEY_LOAD_CMD, KEY_CFG and the SA region. -/
def Obligations.KeyRegistersComplete : Prop :=
  (∀ (s : State) (pt : Party) (v : BitVec 32),
    ∀ q ∈ [(Instr.keyLoad pt v, 0, 1), (.zeroiseSlot pt v, 1, 2), (.zeroiseFunc pt v, 2, 4), (.zeroiseAll pt v, 3, 8)],
      ∀ t : Tgt, s.permits pt (reg .key 0 0x188) 4 (putBits v.toNat q.2.1 1 1) t → t.acc.data % 16 = q.2.2 →
        (s.dev.keyIsBusy = false → s.dev.accepts .key 0 = true → exec q.1 s = .next (s.endsWith (s.dev.keyRun q.2.2))) ∧
        (s.dev.keyIsBusy = true → exec q.1 s = .next (s.endsWith (s.dev.logAcc t.acc 0x0C01)))) ∧
  (∀ (s : State) (b : KeyBusy), s.live = true → s.dev.keyBusy = some b → s.dev.keyHeld b.gens = false →
    exec .zeroiseDone s = .next (s.endsWith (s.dev.keyDone b))) ∧
  (∀ (s : State) (n : Nat), s.live = true → s.dev.keyLoadAt = some n → n + 16 ≤ s.dev.bounds →
    exec .keyLoadDataExpire s = .next (s.endsWith s.dev.keyDataClear)) ∧
  (∀ (s : State) (pt : Party) (v : BitVec 32) (t : Tgt),
    (s.permits pt (reg .key 0 0x100) 4 (putBits v.toNat 0 1 1) t → s.dev.keyEn = false → (s.dev.store t).keyEn = true →
      exec (.keyEnable pt v) s = .next (s.endsWith { s.dev.store t with keys := {} })) ∧
    (s.permits pt (reg .key 0 0x100) 4 (putBits v.toNat 0 1 0) t → s.dev.keyEn = true → (s.dev.store t).keyEn = false →
      exec (.keyDisable pt v) s =
        .next (s.endsWith ((s.dev.store t).keyEraseAll.1.keyEnd false 0 (s.dev.store t).keyEraseAll.2))) ∧
    (s.permits pt (reg .key 0 0x10108) 4 (putBits v.toNat 0 5 0) t → t.x = 0x10108 → t.acc.data % 32 = 0 →
      (((s.dev.saInvalidate fun _ => true).saDetach fun _ => true).store t).fld (reg .key 0 0x10108) 0 5 = 0 →
      exec (.saRegionDisable pt v) s = .next (s.endsWith
        { ((s.dev.saInvalidate fun _ => true).saDetach fun _ => true).store t with saHigh := {}, saHighReq := {}, saLimit := {}, saDone := {}, saTaken := {} })))

/-- Key and SA commands. -/
def Obligations.KeyCommandsComplete : Prop :=
  (∀ (s : State) (r : Nat) (w : Work), s.live = true → s.dev.keyReady r 0x30 w → w.note = [] → s.dev.unlocked = false →
    29 ≤ leAt w.entry 8 4 → leAt w.entry 8 4 ≤ 92 → byteAt w.entry 24 % 4 ≠ 0 →
    (w.started = false → exec (.keyUnwrap r) s = .next (s.endsWith
      ((s.dev.setWork r w.id fun x => { x with started := true }).workRead w 0 (leAt w.entry 16 8) (leAt w.entry 8 4)))) ∧
    (∀ (k : KeySlot) (d : Dev) (old : Option KeySlot), w.started = true → w.waiting = [] → s.dev.keyGet (keyIndex w) = (d, old) →
      d.keks.find (byteAt w.entry 2 % 16) = some k →
      k.owner = s.dev.ringFunc r ∨ k.owner = pf0 (s.dev.ringFunc r).link →
      (∀ o, old = some o → o.owner = s.dev.ringFunc r ∧ byteAt w.entry 3 % 2 = 1) →
      (old = none → d.keyFull (s.dev.ringFunc r) = false) →
      let blob := slice w.allData 0 (leAt w.entry 8 4)
      let n := leAt w.entry 8 4
      gcmTag k.key (blob.take 12) ([byteN (n - 28), byteN (byteAt w.entry 24 % 4)] ++ zeros 6) (slice blob 12 (n - 28)) =
        slice blob (n - 16) 16 →
      exec (.keyUnwrap r) s = .next (s.endsWith (((d.entAsk 3).keyPut (keyIndex w) (byteAt w.entry 24 % 4) (s.dev.ringFunc r)
        (gcmCrypt k.key (blob.take 12) (slice blob 12 (n - 28)))).keyFinish w 0 (old.toList.map (·.gen)))))) ∧
  (∀ (s : State) (r : Nat) (w : Work), s.live = true → s.dev.keyReady r 0x31 w → w.note = [] →
    (byteAt w.entry 3 % 2 = 1 →
      exec (.keyZeroise r) s = .next (s.endsWith
        ((s.dev.keyEraseFunc (s.dev.ringFunc r)).1.keyFinish w 0 (s.dev.keyEraseFunc (s.dev.ringFunc r)).2))) ∧
    (∀ (d : Dev) (old : Option KeySlot), byteAt w.entry 3 % 2 = 0 → s.dev.keyGet (keyIndex w) = (d, old) →
      (∀ k, old = some k → k.owner = s.dev.ringFunc r) →
      let q := d.keyErase (fun n _ => n = keyIndex w) fun _ _ => false
      exec (.keyZeroise r) s = .next (s.endsWith (q.1.keyFinish w 0 q.2)))) ∧
  (∀ (s : State) (r : Nat) (w : Work), s.live = true → s.dev.keyReady r 0x32 w →
    (∀ d, s.dev.keyGet (keyIndex w) = (d, none) → exec (.keyInfo r) s = .next (s.endsWith (d.finish r w.id 0))) ∧
    (∀ d k, s.dev.keyGet (keyIndex w) = (d, some k) → k.owner = d.ringFunc r →
      exec (.keyInfo r) s = .next (s.endsWith (d.finish r w.id 0
        ([1, byteN k.key.length, byteN k.usage, 0] ++ toLE 2 (ownerField k.owner) ++ zeros 2))))) ∧
  (∀ (s : State) (r : Nat) (w : Work), s.live = true → s.dev.saReady r 0x20 w →
    (w.started = false → exec (.saWrite r) s = .next (s.endsWith
      ((s.dev.setWork r w.id fun x => { x with started := true }).workRead w 0 (leAt w.entry 16 8) 128))) ∧
    (w.started = true → w.waiting = [] →
      let old := s.dev.saRead (keyIndex w)
      let owner := if saFlag old 0 then saOwner old else s.dev.ringFunc r
      let new := splice (slice w.allData 0 128) 58 (toLE 2 (ownerField owner))
      let keep := decide (byteAt w.entry 3 % 2 = 1)
      ∀ d k, saReserved new = false → (saFlag new 4 && s.dev.standsBy (s.dev.groupKind 3)) = false →
        s.dev.keyGet (saSlot new) = (d, some k) → k.owner = owner →
        (!keep && saFlag old 0 && saOut old && decide (saSlot old = saSlot new) && decide (saSeq new < saResv old)) = false →
        exec (.saWrite r) s = .next (s.endsWith
          ((d.saWrite (keyIndex w) new old (keep && saFlag old 0)).finishMirrored d.pair.s0.next r w.id 0 [])))) ∧
  (∀ (s : State) (r : Nat) (w : Work), s.live = true → s.dev.saReady r 0x21 w →
    exec (.saRead r) s = .next (s.endsWith
      (s.dev.finishPut r w.id (leAt w.entry 16 8) (saShown (s.dev.saRead (keyIndex w)))))) ∧
  (∀ (s : State) (r : Nat) (w : Work), s.live = true → s.dev.saReady r 0x22 w →
    exec (.saInvalidate r) s = .next (s.endsWith (((s.dev.hbmWrite (s.dev.saAddr (keyIndex w) + 2)
      [byteN (byteAt (s.dev.saRead (keyIndex w)) 2 / 2 * 2)]).saMirror (keyIndex w)).finishMirrored s.dev.pair.s0.next r w.id 0 [])))

/-- Stores: what their reads and writes do, their failures, the work on them in the background, and the store commands. -/
def Obligations.StoresComplete : Prop :=
  (∀ (s : State) (store id : Nat) (w : SWrite) (rest : List SWrite), s.live = true →
    takeFirst (fun w : SWrite => w.sent && decide (w.id = id) && decide (w.store = store) && s.dev.storeReach store) s.dev.swrites = some (w, rest) →
    exec (.storeAck store id) s =
      .next (s.endsWith (((({ s.dev with swrites := rest } : Dev).storeLand store w.lba w.data).ioPump).acked id store))) ∧
  (∀ (s : State) (id : Nat) (ok : Bool) (data : List Byte) (r : SRead) (rest : List SRead) (t : GTask) (e : Dev), s.live = true →
    (s.dev.sreads.any fun r => r.sent && decide (r.id = id) && s.dev.storeReach r.store) = true →
    takeFirst (fun r : SRead => decide (r.id = id)) s.dev.sreads = some (r, rest) →
    e = ({ s.dev with sreads := rest } : Dev).setTask r.task (fun t => { t with frags := t.frags ++ [(r.member, if ok then some data else none)] }) →
    e.task? r.task = some t →
    ((e.sreads.any fun r => decide (r.task = t.id)) = true → exec (.storeReadComplete id ok data) s = .next (s.endsWith e.ioPump)) ∧
    ((e.sreads.any fun r => decide (r.task = t.id)) = false →
      exec (.storeReadComplete id ok data) s = .next (s.endsWith (e.taskRead t).blkPump.ioPump))) ∧
  (∀ (s : State) (store : Nat), s.live = true → (s.dev.store? store).state = 1 ∨ (s.dev.store? store).state = 3 →
    exec (.storeFail store) s = .next (s.endsWith (s.dev.storeLost store))) ∧
  (∀ (s : State) (id : Nat) (c : QCmd) (x : Vol), s.live = true → s.dev.qcmd id = some c → s.dev.vols.find c.vol = some x →
    s.dev.waitsPlace id x = true → s.dev.membersAway x = false →
    ((vrMembers x.rec_).all s.dev.storeReady = false →
      ∀ e : Dev, e = s.dev.durabilityLost id →
        (e.volState x = 0 ∨ e.volState x = 4 → exec (.substituteTimeout id) s = .next (s.endsWith (e.volTo c.vol x 1).blkPump)) ∧
        (e.volState x ≠ 0 → e.volState x ≠ 4 → exec (.substituteTimeout id) s = .next (s.endsWith e.blkPump))) ∧
    ((vrMembers x.rec_).all s.dev.storeReady = true →
      exec (.noExtentTimeout id) s = .next (s.endsWith (s.dev.durabilityLost id).blkPump))) ∧
  (∀ (s : State) (vol : Nat) (x : Vol), s.live = true → s.dev.vol? vol = some x → s.dev.accepts .blkg 0 = true →
    s.dev.storesAway = false → s.dev.coresDead = false →
    (∀ (grain : Nat) (copies : List (Option (List Byte))), s.dev.storeTakes = true →
      s.dev.scrubWindow.2 < s.dev.fld (reg .blkg 0 0x124) 0 24 → s.dev.scrubNow = some vol →
      (x.nextMapped x.scrub = some grain →
        exec (.blkScrub vol grain copies) s = .next (s.endsWith (s.dev.scrubStep vol grain x copies))) ∧
      (x.nextMapped x.scrub = none → exec (.blkScrub vol grain copies) s = .next (s.endsWith (s.dev.scrubEnd vol x)))) ∧
    (∀ (seg : Nat) (g : Seg), x.segs.find seg = some g → g.sealed = true → s.dev.clusterTakes 2 = true →
      (s.dev.cleanable.all fun q => decide ((x.liveIn seg).length ≤ q.2.2)) = true →
      exec (.segmentClean vol seg) s = .next (s.endsWith (s.dev.cleanSeg vol seg x)))) ∧
  (∀ (s : State) (store : Nat), s.live = true → s.dev.accepts .blkg 0 = true → s.dev.clusterTakes 2 = true →
    s.dev.storesAway = false → s.dev.coresDead = false → s.dev.pair.landing = [] →
    s.dev.storeReady store = false ∨ s.dev.lacksExtents store = true →
    exec (.rebuild store) s = .next (s.endsWith (s.dev.vols.keys.foldl (rebuildVol store) s.dev).logRetry.blkPump)) ∧
  (∀ (s : State) (r : Nat) (w : Work), s.live = true → s.dev.blkReady r 0x50 w →
    (w.started = false → exec (.storeAdd r) s = .next (s.endsWith
      ((s.dev.setWork r w.id fun x => { x with started := true }).workRead w 0 (mbxAddr w) 64))) ∧
    (∀ b, s.dev.blkBlockReady r 0x50 w b → descReserved b = false → s.dev.refUp = true →
      (byteAt b 0 = 2 → w.note ≠ [4] → exec (.storeAdd r) s = .next (s.endsWith
        (((s.dev.setWork r w.id fun x => { x with note := [4] }).workRead w 1 (leAt b 28 8) (leAt b 36 2)).workRead w 2 (leAt b 38 8) (leAt b 46 2)))) ∧
      (∀ (nqn host : List Byte) (e : Dev) (m : Medium),
        (byteAt b 0 ≠ 2 ∧ nqn = [] ∧ host = [] ∧ e.accepts .drp 0 = true ∨
          byteAt b 0 = 2 ∧ w.note = [4] ∧ nqn = slice (w.part 1) 0 (leAt b 36 2) ∧ host = slice (w.part 2) 0 (leAt b 46 2)) →
        s.dev.meetMedium (mediumKey b nqn) = (e, m) →
        (e.stores.values.any fun x => decide (x.state ≠ 0 ∧ x.medium = mediumKey b nqn)) = false → w.ring = r →
        let x : StoreSt :=
          { state := 1, remote := byteAt b 0 = 2, medium := mediumKey b nqn, desc := b, nqn := nqn, hostNqn := host }
        (bitOf (byteAt b 1) 0 = true → e.mediumOk (byteAt b 2) m = true → (e.store? (byteAt b 2)).state = 0 →
          exec (.storeAdd r) s = .next (s.endsWith
            ((((e.storeFormat (byteAt b 2) x m).storeJoin (byteAt b 2) x).logRetry.blkPump).finish r w.id 0 [byteN (byteAt b 2)]))) ∧
        (∀ st, bitOf (byteAt b 1) 0 = false → st = byteAt (m.read 0 2) 5 → labelValid (m.read 0 2) = true →
          (byteAt b 0 = 2 → 32 ≤ st) → (byteAt b 0 ≠ 2 → st < 32) → e.mediumOk st m = true → (e.store? st).state = 0 →
          exec (.storeAdd r) s = .next (s.endsWith ((e.storeJoin st x).logRetry.blkPump.finish r w.id 0 [byteN st])))))) ∧
  (∀ (s : State) (r st : Nat) (w : Work), s.live = true → s.dev.mediaReady r 0x51 w → st = mbxArg w % 256 → st < 96 →
    ((s.dev.store? st).state = 1 → bitOf (mbxFlags w) 0 = true → exec (.storeRemove r) s = .next (s.endsWith
      ((s.dev.vols.cells.foldl (sealOn st) (s.dev.setStore st { s.dev.store? st with state := 3 })).finish r w.id 0))) ∧
    (bitOf (mbxFlags w) 0 = false → s.dev.storeMember st = false →
      ((s.dev.store? st).state = 1 →
        exec (.storeRemove r) s = .next (s.endsWith (((s.dev.storeClose st).setStore st {}).finish r w.id 0))) ∧
      ((s.dev.store? st).state = 2 → exec (.storeRemove r) s = .next (s.endsWith ((s.dev.setStore st {}).finish r w.id 0))))) ∧
  (∀ (s : State) (store : Nat), s.live = true → (s.dev.store? store).state = 3 → (s.dev.store? store).ext.cells = [] →
    (s.dev.swrites.all fun w => decide (w.store ≠ store)) = true →
    exec (.storeRemoved store) s =
      .next (s.endsWith (((s.dev.storeClose store).setStore store {}).blkEvent 0x71 0 store 0 0 3 0 0 0 0 0xFF))) ∧
  (∀ (s : State) (j : Nat) (present : Bool), s.live = true → j < 4 →
    let q := if present = true then s.dev.drawDrive else (s.dev, 0)
    exec (.drpPresenceChange j present) s =
      .next (s.endsWith ({ q.1 with drives := q.1.drives.set j q.2 0 } : Dev).drpTrain)) ∧
  (∀ (d : Dev) (j : Nat), j < 4 →
    let c := d.drives.getD j 0
    d.drpTrain.rdN (reg .drp 0 (0x110 + 4 * j)) =
      if j < 2 ^ bitsOf d.drpCfg 0 2 ∧ c ≠ 0 ∧ d.accepts .drp 0 = true ∧ d.refUp = true then
        1 + 2 * min (bitsOf d.drpCfg 4 3) (c % 8) + 16 * min (16 / 2 ^ bitsOf d.drpCfg 0 2) (c / 8) else 0)

/-- Volume commands. -/
def Obligations.VolumeCommandsComplete : Prop :=
  (∀ (s : State) (r : Nat) (w : Work), s.live = true → w.started = false →
    ∀ q ∈ [(Instr.volCreate r, 0x52), (.volMigrate r, 0x54)], s.dev.blkReady r q.2 w →
      exec q.1 s = .next (s.endsWith ((s.dev.setWork r w.id fun x => { x with started := true }).workRead w 0 (mbxAddr w) 64))) ∧
  (∀ (s : State) (r : Nat) (w : Work) (b : List Byte) (e : Dev) (k : List Byte), s.live = true → s.dev.blkBlockReady r 0x52 w b →
    vrReserved b = false → vrState b = 0 ∨ vrState b = 3 → s.dev.vols.find (vrVol b) = none → sizeOk (vrBlocks b) = true →
    s.dev.mayOwn (vrOwner b) 1 = true → s.dev.otherBlocks (vrVol b) + vrBlocks b ≤ s.dev.mapBlocks → s.dev.membersReady b = true →
    (vrPair b && s.dev.standsBy (s.dev.groupKind 2)) = false → (vrState b = 0 → vrWide b = true → s.dev.enginesAll = true) →
    (vrPair b && s.dev.groupActive (s.dev.groupKind 2) && s.dev.pairFull) = false →
    (if vrState b = 0 then s.dev.volKey b else (s.dev, some [])) = (e, some k) →
    exec (.volCreate r) s = .next (s.endsWith
      ((e.volRecord (vrVol b) { rec_ := b, eng := vrEngine b, fresh := true } (splice b 52 (zeros 8))).mapLayout.finishVol e.pair.s1.next r w.id))) ∧
  (∀ (s : State) (r v : Nat) (w : Work) (x : Vol), s.live = true → s.dev.mediaReady r 0x53 w → v = mbxArg w % 65536 → s.dev.volReady v x →
    (bitsOf (mbxArg w) 16 8 = 1 → s.dev.volState x = 0 → s.dev.storeGone = false →
      exec (.volState r) s = .next (s.endsWith ((s.dev.volTo v x 1).finishVol s.dev.pair.s1.next r w.id))) ∧
    (bitsOf (mbxArg w) 16 8 = 3 → s.dev.volState x = 0 ∨ s.dev.volState x = 1 ∨ s.dev.volState x = 4 →
      exec (.volState r) s = .next (s.endsWith ((s.dev.volTo v x 2).finishVol s.dev.pair.s1.next r w.id))) ∧
    (∀ (e : Dev) (k : List Byte), bitsOf (mbxArg w) 16 8 = 0 → s.dev.volState x = 3 ∨ s.dev.volState x = 1 → s.dev.storeGone = false →
      (vrWide x.rec_ = true → s.dev.enginesAll = true) → s.dev.volKey x.rec_ = (e, some k) →
      exec (.volState r) s = .next (s.endsWith ((e.volTo v x 0).finishVol s.dev.pair.s1.next r w.id)))) ∧
  (∀ (s : State) (r : Nat) (w : Work) (b : List Byte) (x : Vol), s.live = true → s.dev.blkBlockReady r 0x54 w b →
    vrReserved b = false → s.dev.volReady (vrVol b) x → s.dev.volState x = 0 → s.dev.membersReady b = true →
    (vrPair b && s.dev.standsBy (s.dev.groupKind 2)) = false → migrateFixed b = migrateFixed x.rec_ →
    (vrPair b && s.dev.groupActive (s.dev.groupKind 2) && s.dev.pairFull) = false →
    exec (.volMigrate r) s = .next (s.endsWith
      ((s.dev.volTo (vrVol b) { x with rec_ := b, segs := x.sealedSegs, open_ := none } 4).finishVol s.dev.pair.s1.next r w.id))) ∧
  (∀ (s : State) (r v n : Nat) (w : Work) (x : Vol), s.live = true → s.dev.mediaReady r 0x55 w → v = mbxArg w % 65536 →
    n = mbxArg w / 65536 → s.dev.volReady v x → sizeOk n = true → vrBlocks x.rec_ ≤ n ∨ s.dev.volState x = 3 →
    s.dev.otherBlocks v + n ≤ s.dev.mapBlocks →
    exec (.volResize r) s = .next (s.endsWith ((s.dev.volRecord v { x with map := x.map.filter fun g _ => decide (g < n / 16) }
      (splice x.rec_ 8 (toLE 8 n))).mapLayout.finishVol s.dev.pair.s1.next r w.id))) ∧
  (∀ (s : State) (r v : Nat) (w : Work) (x : Vol) (e : Dev), s.live = true → s.dev.mediaReady r 0x56 w → v = mbxArg w % 65536 →
    s.dev.volReady v x → s.dev.volState x = 3 → e = (s.dev.freeVol v x).volRecord v x (splice x.rec_ 2 [0xFF]) →
    exec (.volDelete r) s = .next (s.endsWith (((({ e with vols := e.vols.erase v } : Dev).mapLayout.blkEvent 0x72 0 0xFF v 0xFF 3 0 0 0 0 0xFF).logRetry.blkPump).finishVol
      s.dev.pair.s1.next r w.id))) ∧
  (∀ (s : State) (r : Nat) (w : Work) (x : Vol), s.live = true → s.dev.blkReady r 0x57 w → s.dev.vol? (mbxArg w % 65536) = some x →
    exec (.volInfo r) s = .next (s.endsWith (s.dev.finishPut r w.id (mbxAddr w) (s.dev.volInfo x)))) ∧
  (∀ (s : State) (r : Nat) (w : Work), s.live = true → s.dev.mediaReady r 0x58 w →
    let q := s.dev.recoverAll (if bitOf (mbxFlags w) 0 then s.dev.recoverable else [mbxArg w % 65536]) (bitOf (mbxFlags w) 1)
    let stalled := s.dev.groupActive (s.dev.groupKind 2) && s.dev.pairFull
    (stalled = false → exec (.volRecover r) s = .next (s.endsWith (q.1.finishVol s.dev.pair.s1.next r w.id q.2))) ∧
    (stalled = true → exec (.volRecover r) s = .next (s.endsWith s.dev.mirrorStall))) ∧
  (∀ (s : State) (r v : Nat) (w : Work) (x : Vol), s.live = true → s.dev.blkReady r 0x59 w → v = mbxArg w % 65536 →
    s.dev.volReady v x → exec (.scrubNow r) s = .next (s.endsWith ((s.dev.setVol v { x with scrub := 0 }).finish r w.id 0)))

/-- What happens to volumes without a command. -/
def Obligations.VolumeEventsComplete : Prop :=
  ∀ (s : State) (vol : Nat) (x : Vol), s.live = true → s.dev.vol? vol = some x →
    (x.quiescing = true → (s.dev.qcmds.all fun c => decide (c.vol ≠ vol ∨ c.op = 3)) = true →
      exec (.volumeQuiesced vol) s =
        .next (s.endsWith ((s.dev.setVol vol { x with quiescing := false }).blkEvent 0x72 0 0xFF vol 3 2 0 0 0 0 0xFF))) ∧
    (s.dev.volState x = 4 → s.dev.oldLive vol x = false → s.dev.coresDead = false → s.dev.storesAway = false →
      exec (.migrationDone vol) s = .next (s.endsWith (s.dev.volMigrated vol x))) ∧
    (vrWide x.rec_ = false → x.eng ≠ vrEngine x.rec_ → s.dev.accepts .blke (vrEngine x.rec_) = true →
      exec (.homeEngineReturn vol) s = .next (s.endsWith (s.dev.setVol vol { x with homing := true }))) ∧
    (x.homing = true → s.dev.accepts .blke (vrEngine x.rec_) = true →
      (s.dev.qcmds.all fun c => decide (c.vol ≠ vol) || !c.started || c.done.isSome) = true →
      s.dev.homeReturn vol x = s.dev.setVol vol { x with eng := vrEngine x.rec_, homing := false })

/-- Quern: pushes, refusals, starts, the meanings of commands and their completions. -/
def Obligations.PushesAndCompletions : Prop :=
  (∀ (s : State) (f : Func) (off q : Nat) (data : List Byte) (whole : Bool) (base : Nat), s.live = true → s.dev.fnExists f = true →
    base = strideBase f → base ≤ off → s.dev.queueOfLocal f ((off - base) / 0x100) = some q →
    (s.dev.queue q).state ≠ .off →
    (data.length = 64 → (off - base) % 0x100 = 0 → whole = true → (s.dev.queue q).state ≠ .quiescing → (s.dev.queue q).state ≠ .resetting →
      ((s.dev.queueCmds q).length < s.dev.fld (queueKey q 0) 16 11 →
        exec (.push f off data whole) s = .next (s.endsWith (s.dev.acceptPush f q data))) ∧
      (s.dev.fld (queueKey q 0) 16 11 ≤ (s.dev.queueCmds q).length →
        exec (.push f off data whole) s =
          .next (s.endsWith ((s.dev.bump (qrnCount 0x110)).refusePush q 0x33 (leAt data 2 2))))) ∧
    (data.length = 64 → (off - base) % 0x100 = 0 → whole = true → (s.dev.queue q).state = .quiescing ∨ (s.dev.queue q).state = .resetting →
      exec (.push f off data whole) s = .next (s.endsWith ((s.dev.bump (qrnCount 0x118)).refusePush q 0x05 (leAt data 2 2))))) ∧
  (∀ (s : State) (f : Func) (off : Nat) (data : List Byte) (whole : Bool), s.live = true → s.dev.fnExists f = true →
    data.length ≠ 64 ∨ off < strideBase f ∨ (off - strideBase f) % 0x100 ≠ 0 ∨ whole = false →
    exec (.push f off data whole) s =
      .next (s.endsWith ((strides f off data.length).foldl (fun d i => d.pushStride f data true i) s.dev))) ∧
  (∀ (d : Dev) (f : Func) (data : List Byte) (i q : Nat), d.queueOfLocal f i = some q → (d.queue q).state ≠ .off →
    d.pushStride f data true i = (d.bump (qrnCount 0x108)).refusePush q 0x34 0xFFFF) ∧
  (∀ (s : State) (q : Nat) (x : RefSlot), s.live = true → (s.dev.queue q).slot = some x →
    (s.dev.ring (s.dev.queueRing q)).state ≠ .off → (s.dev.ring (s.dev.queueRing q)).stash.length < 64 →
    exec (.refusalCompletion q) s = .next (s.endsWith ((s.dev.setQueue q { s.dev.queue q with slot := none }).qrnPost q
      (s.dev.queueRing q) x.status x.cid 0xFFFF (x.count + 65536 * b2n x.mixed)))) ∧
  (∀ (s : State) (q : Nat) (c : QCmd), s.live = true → (s.dev.queue q).state = .active → s.dev.bit (reg .qrn 0 0x104) 0 = false →
    s.dev.accepts .qrn 0 = true → ((s.dev.queueCmds q).find? fun c => s.dev.startable c && s.dev.shareOpen c) = some c →
    exec (.commandStart q) s = .next (s.endsWith ((s.dev.shareCharge c).startCmd c))) ∧
  (∀ (s : State) (id : Nat) (c : QCmd), s.live = true → s.dev.qcmd id = some c → c.phase = 0 →
    ∀ q ∈ [(Instr.read id, 1), (.write id, 2), (.deallocate id, 4), (.writeZeroes id, 5), (.verify id, 6), (.compareAndWrite id, 7)],
      c.op = q.2 → exec q.1 s = .next (s.endsWith (s.dev.cmdGo id))) ∧
  (∀ (s : State) (id : Nat) (c : QCmd), s.live = true → s.dev.qcmd id = some c → c.op = 3 → c.started = true → c.done = none →
    ((s.dev.earlier c).all fun e => e.done.isSome || decide (e.queue ≠ c.queue) || decide (e.end_ ≠ .complete)) = true →
    exec (.flush id) s = .next (s.endsWith (s.dev.cmdEnd id 0 0))) ∧
  (∀ (s : State) (id : Nat) (c : QCmd) (st detail n : Nat), s.live = true → s.dev.qcmd id = some c → c.done = some (st, detail, n) →
    (c.end_ = .complete → exec (.quernComplete id) s = .next (s.endsWith (s.dev.qrnComplete c st detail n))) ∧
    (c.end_ = .orphan → exec (.quernComplete id) s = .next (s.endsWith ((s.dev.cmdGone c).orphanEvent c st detail))) ∧
    (c.end_ = .silent → exec (.quernComplete id) s = .next (s.endsWith (s.dev.cmdGone c))))

/-- Queue states and power states. -/
def Obligations.QueuesChangeState : Prop :=
  (∀ (s : State) (pt : Party) (q : Nat) (v : BitVec 32) (d : Dev) (t : Tgt),
    (s.reachesQueue pt q 0 (putBits v.toNat 0 1 1) d t → t.x = 0 → bitOf t.acc.data 0 = true → (d.queue q).state = .off →
      d.fnQuiesced (d.queueFunc q) = false → ∀ e : Dev, e = d.wrN t.key (bitsOf t.acc.data 16 11 * 65536) →
      e.fnQuiesced (e.queueFunc q) = false → e.queueEnableOk q = true →
      exec (.queueEnable pt q v) s = .next (s.endsWith ((e.setFld t.key 0 1 1).setQueue q
        { d.queue q with state := if e.master (e.queueFunc q) then .active else .haltActive }))) ∧
    (s.reachesQueue pt q 0 (putBits v.toNat 0 1 0) d t → t.x = 0 → bitOf t.acc.data 0 = false → (d.queue q).state = .active →
      bitsOf t.acc.data 16 11 = (d.queueQuiesce q).fld t.key 16 11 →
      exec (.queueDisable pt q v) s = .next (s.endsWith (d.queueQuiesce q))) ∧
    (s.reachesQueue pt q 0x18 (putBits v.toNat 0 1 1) d t → t.x = 0x18 → bitOf t.acc.data 0 = true →
      (d.queue q).state = .active ∨ (d.queue q).state = .quiescing →
      exec (.queueReset pt q v) s =
        .next (s.endsWith ((d.setQueue q { d.queue q with state := .resetting }).abortWaiting q 0x06)))) ∧
  (∀ (s : State) (q : Nat), s.live = true → s.dev.queueIdle q = true →
    ((s.dev.queue q).state = .quiescing → exec (.queueDrainDone q) s =
      .next (s.endsWith (s.dev.setQueue q { s.dev.queue q with state := .off }))) ∧
    ((s.dev.queue q).state = .resetting → exec (.resetDone q) s = .next (s.endsWith
      (((((s.dev.wrN (queueKey q 0x10) 0).wrN (queueKey q 0x14) 0).setFld (queueKey q 0) 0 1 0).setQueue q
        { s.dev.queue q with state := .off }).raise .qrn 0 0 10)))) ∧
  (∀ (s : State) (id : Nat) (c : QCmd), s.live = true → s.dev.qcmd id = some c → c.started = true → c.done = none →
    (s.dev.queue c.queue).state = .resetting ∨ c.end_ ≠ .complete →
    exec (.resetTimeout id) s = .next (s.endsWith (((s.dev.cmdEnd id 0x06 0).raise .qrn 0 0 11).blkPump))) ∧
  (∀ (s : State) (f : Func) (ps lim : Nat), s.live = true → ps = s.dev.fld (fctxKey f 0) 0 2 → lim = s.dev.fld (fctxKey f (8 + 4 * ps)) 0 24 →
    ps < 3 → ps + 1 ≤ s.dev.fld (fctxKey f 4) 0 2 → lim ≠ 0 → (s.dev.qcmds.all fun c => decide (c.func ≠ f)) = true →
    s.dev.qidle.getD (fkey f) 0 + lim ≤ s.dev.bounds →
    exec (.qsIdleTimeout f) s =
      .next (s.endsWith (({ s.dev with qidle := s.dev.qidle.set (fkey f) s.dev.bounds 0 } : Dev).wrN (fctxKey f 0) (ps + 1)))) ∧
  (∀ (s : State) (pt : Party) (f : Func) (v : BitVec 32) (d : Dev) (t : Tgt), s.live = true →
    (pt = .vf f ∧ d = s.dev ∧ d.writeCheck pt 0x1284 4 v.toNat = .ok t ∨
      (∀ g, pt ≠ .vf g) ∧ d = s.dev.wrN (reg .qrn 0 0x10C) (f.num + 4096 * f.link) ∧ d.writeCheck pt (reg .qrn 0 0x184) 4 v.toNat = .ok t) →
    t.x = 4 → exec (.psMaxWrite pt f v) s = .next (s.endsWith ((d.store t).qsWake f ((d.store t).fld (fctxKey f 4) 0 2))))

/-- The host links. -/
def Obligations.HostLinksComplete : Prop :=
  (∀ (s : State) (link : Nat), s.live = true →
    exec (.linkFundamentalReset link) s = .next (s.endsWith (s.dev.linkReset link true)) ∧
    ((s.dev.link link).inReset = false → exec (.hotReset link) s = .next (s.endsWith (s.dev.linkReset link false))) ∧
    ((s.dev.link link).up = true → exec (.linkDown link) s = .next (s.endsWith (s.dev.linkReset link false))) ∧
    ((s.dev.link link).inReset = true → exec (.perstDeassert link) s =
      .next (s.endsWith (s.dev.setLink link { s.dev.link link with inReset := false, ready := s.dev.booted }))) ∧
    (∀ (rate width cfg m : Nat) (flit : Bool), cfg = s.dev.rdN (reg .hif link 0x100) → (s.dev.link link).up = false →
      (s.dev.link link).inReset = false → bitOf cfg 0 = true → rate ≠ 0 → s.dev.refUp = true →
      m = min width (laneCap cfg) →
      (m < 4 → exec (.linkUp link rate width flit) s = .next (s.endsWith s.dev)) ∧
      (∀ w ∈ [4, 8, 16], w ≤ m → m < 2 * w → exec (.linkUp link rate width flit) s = .next (s.endsWith
        (((s.dev.setLink link { s.dev.link link with up := true, rate := min rate (bitsOf cfg 3 3), width := w,
                                                     flit := flit || decide (min rate (bitsOf cfg 3 3) = 6) }).raise
          .hif link 0 9).linkMsgs link)))) ∧
    (∀ q ∈ [Inbound.atomicOp link, .io link, .type1 link],
      exec (.unsupportedRequest q) s = .next { s with dev := s.dev.emit (.unsupported link) }) ∧
    (∀ a, s.dev.route link a = none →
      exec (.unsupportedRequest (.memory link a)) s = .next { s with dev := s.dev.emit (.unsupported link) })) ∧
  (∀ (s : State) (f : Func), s.live = true → s.dev.linkAnswers f.link → s.dev.fnExists f = true →
    (s.dev.master f = true → exec (.bmeClear f) s = .next (s.endsWith (s.dev.bmeOff f))) ∧
    (s.dev.master f = false → exec (.bmeClear f) s = .next (s.endsWith (s.dev.setBme f false))) ∧
    (s.dev.master f = false → s.dev.awake f = true → exec (.bmeSet f) s = .next (s.endsWith (s.dev.bmeOn f))) ∧
    (s.dev.awake f = false → exec (.bmeSet f) s = .next (s.endsWith (s.dev.setBme f true))) ∧
    exec (.flr f) s = .next (s.endsWith (s.dev.flrNow f))) ∧
  (∀ (s : State) (f : Func) (d : Dev), s.live = true → s.dev.flr.getD (fkey f) false = true →
    d = { s.dev with flr := s.dev.flr.set (fkey f) false false } →
    exec (.flrComplete f) s = .next (s.endsWith (((if f.num ≠ 0 ∧ (d.vf f).state = .resetting then
      d.setVf f { d.vf f with state := .active } else d).bump (hifCount f.link 0x30)).raise .hif f.link 0 10))) ∧
  (∀ (s : State) (link : Nat), s.live = true → s.dev.linkAnswers link →
    ((s.dev.link link).vfEnable = true → exec (.vfEnableClear link) s = .next (s.endsWith (s.dev.vfsOff link).blkPump)) ∧
    ((s.dev.link link).vfEnable = false → ∀ d : Dev, d = s.dev.setLink link { s.dev.link link with vfEnable := true } →
      exec (.vfEnableSet link) s =
        .next (s.endsWith (((d.vfsOf link).foldl (fun d f => d.setVf f { d.vf f with state := .active }) d).dueMsgs link))) ∧
    (∀ (v : BitVec 32) (n : Nat) (l : LinkSt), n = v.toNat → l = s.dev.link link →
      (n % 65536 ≤ 2048 → l.vfEnable = false ∨ n % 65536 = l.numVfs →
        exec (.configWrite link .numVfs v) s = .next (s.endsWith (s.dev.setLink link { l with numVfs := n % 65536 }))) ∧
      (2048 < n % 65536 ∨ (l.vfEnable = true ∧ n % 65536 ≠ l.numVfs) →
        exec (.configWrite link .numVfs v) s = .next (s.endsWith (s.dev.configBad link (n % 65536)))) ∧
      (n ∈ [0, 1, 2, 4, 8, 16] →
        exec (.configWrite link .pageSize v) s = .next (s.endsWith (s.dev.setLink link { l with pageSize := n }))) ∧
      (n ∉ [0, 1, 2, 4, 8, 16] → exec (.configWrite link .pageSize v) s = .next (s.endsWith (s.dev.configBad link n))) ∧
      exec (.configWrite link .command v) s = .next (s.endsWith (s.dev.setLink link { l with memOn := bitOf n 1 })) ∧
      exec (.configWrite link .sriovControl v) s = .next (s.endsWith (s.dev.setLink link { l with vfMemOn := bitOf n 3 })) ∧
      exec (.configWrite link .control v) s = .next (s.endsWith { s.dev with
        devCtl := s.dev.devCtl.set link (controlWrite (s.dev.devControl link) n) 0x2010 }) ∧
      (∀ (f : Func) (t : Nat), f.link = link → s.dev.fnExists f = true →
        t = (if timeoutOk (n % 16) then n % 16 else s.dev.devCtl2.getD (fkey f) 0 % 16) →
        exec (.configWrite link (.control2 f.num) v) s = .next (s.endsWith { s.dev with
          devCtl2 := s.dev.devCtl2.set (fkey f) (t + if f.num = 0 then 4096 * bitsOf n 12 1 else 0) 0 }) ∧
        ∀ off, exec (.configWrite link (.cap f.num off) v) s = .next (s.endsWith (s.dev.capW f off n))) ∧
      (∀ i, exec (.configWrite link (.bar i) v) s =
          .next (s.endsWith (s.dev.setLink link { l with bar := barWrite (s.dev.barSize link) l.bar i n })) ∧
        exec (.configWrite link (.vfBar i) v) s =
          .next (s.endsWith (s.dev.setLink link { l with vfBar := barWrite vfBarSize l.vfBar i n }))))) ∧
  (∀ (s : State) (h : HRead) (d : Dev), s.live = true →
    (∀ (id : Nat) (e : Dev), s.dev.takeRead id = some (h, d) → e = ({ d with late := d.late.put id (fkey h.func) } : Dev) →
      exec (.completionTimeout id) s = .next (s.endsWith (((((e.bump (hifCount h.func.link 0)).raise .hif h.func.link 0 12).aerReport
        h.func 14 (e.aerAdvisory h.func 14)).readOver h fun d => (d.readFailed h 0x09).blkPump)))) ∧
    (∀ c, s.dev.takeRead (badCpl c).1 = some (h, d) →
      exec (.poisonedCompletion c) s = .next (s.endsWith (((d.bump (hifCount h.func.link 0x10)).aerReport h.func (badCpl c).2 true).readOver
        h fun d => (d.readFailed h 0x0A).blkPump)))) ∧
  (∀ (s : State) (id k : Nat), s.live = true → s.dev.late.find id = some k →
    exec (.lateCompletion id) s = .next (s.endsWith
      ((({ s.dev with late := s.dev.late.erase id } : Dev).bump (hifCount (fkeyFunc k).link 8)).aerReport (fkeyFunc k) 16 true))) ∧
  (∀ (s : State) (f : Func) (itag addr : Nat), s.live = true →
    (s.dev.bit (reg .hif f.link 0x100) 8 = true → ∀ (l : LinkSt) (d : Dev),
      l = { s.dev.link f.link with invals := (s.dev.link f.link).invals ++ [(f, itag, addr)] } →
      d = (s.dev.setLink f.link l).invalSettle f.link → exec (.invalidateRequest f itag addr) s = .next { s with dev := d }) ∧
    (s.dev.bit (reg .hif f.link 0x100) 8 = false →
      exec (.invalidateRequest f itag addr) s = .next { s with dev := s.dev.emit (.unsupported f.link) })) ∧
  (∀ (d : Dev) (k : Nat), ∀ q ∈ ((d.invalSettle k).link k).invals, d.pageRead q.1 q.2.2 = true) ∧
  (∀ (d : Dev) (k n i x a : Nat), (d.link k).vfMemOn = true → (d.link k).vfEnable = true → 1 ≤ n → n ≤ (d.link k).numVfs →
    x < 0x10000 → i < 2 → a = barBase (d.link k).vfBar i + (n - 1) * 0x10000 + x →
    (∀ j < 3, (d.link k).memOn = true → d.awake (pf0 k) = true → ¬ (barBase (d.link k).bar j ≤ a ∧ a < barBase (d.link k).bar j + d.barSize k j)) →
    (∀ j < i, ¬ (barBase (d.link k).vfBar j ≤ a ∧ a < barBase (d.link k).vfBar j + (d.link k).numVfs * 0x10000)) →
    d.route k a = some (⟨k, n⟩, 2 * i, x))

/-- The aperture on HBM. -/
def Obligations.ApertureReachesHbm : Prop :=
  ∀ (s : State) (link off x a : Nat) (v : BitVec 64), s.live = true → x = off / 8 * 8 → a = s.dev.rd64 (reg .hif link 0x108) + x →
    (s.dev.aptSize link ≤ x → ∀ data, exec (.apertureAccess link off data) s = .next { s with dev := s.dev.emit (.unsupported link) }) ∧
    (x < s.dev.aptSize link →
      (s.dev.aptDenied link a false = false → exec (.apertureAccess link off none) s =
        .next { s with dev := s.dev.emit (.hostData link (BitVec.ofNat 64 (leNat (s.dev.hbmRead a 8)))) }) ∧
      (s.dev.aptDenied link a false = true → exec (.apertureAccess link off none) s =
        .next { s with dev := (s.dev.bump (hifCount link 0x20)).emit (.hostData link 0) }) ∧
      (s.dev.aptDenied link a true = false → exec (.apertureAccess link off (some v)) s =
        .next { s with dev := s.dev.hbmWrite a (toLE 8 v.toNat) }) ∧
      (s.dev.aptDenied link a true = true → exec (.apertureAccess link off (some v)) s =
        .next { s with dev := s.dev.bump (hifCount link 0x20) }))

/-- VF management and mailboxes. -/
def Obligations.VirtualFunctionsComplete : Prop :=
  (∀ (s : State) (r : Nat) (w : Work), s.live = true → s.dev.ringKind r = 7 → w.entry.length = 32 → w.started = false →
    ∀ q ∈ [(Instr.vfmGrant r, 0x60), (.vfmQuiesce r, 0x61), (.vfmResume r, 0x62), (.vfmDirtyStart r, 0x63), (.vfmDirtyHarvest r, 0x64),
        (.vfmDirtyStop r, 0x65), (.vfmInfo r, 0x66)], s.dev.workHead r q.2 = some w →
      exec q.1 s = .next (s.endsWith ((s.dev.setWork r w.id fun x => { x with started := true }).workRead w 0 (mbxAddr w) 64))) ∧
  (∀ (s : State) (r : Nat) (w : Work) (b : List Byte) (f : Func), s.live = true →
    (∀ g : List Byte, s.dev.vfmReady r 0x60 w b → g = grantClean b → f = blockVf g → s.dev.mayManage r f = true →
      ((s.dev.vf f).orders ≠ [] ∨ s.dev.grantCheck g = none → s.dev.orderOpen f r →
        exec (.vfmGrant r) s = .next (s.endsWith (s.dev.withOrder f 0 r w g))) ∧
      (∀ st, (s.dev.vf f).orders = [] → s.dev.grantCheck g = some st →
        exec (.vfmGrant r) s = .next (s.endsWith (s.dev.finish r w.id st)))) ∧
    (s.dev.vfmFor r 0x61 w b f →
      ((s.dev.vf f).state = .active ∨ (s.dev.vf f).state = .quiescing ∨ ((s.dev.vf f).state = .quiesced ∧ (s.dev.vf f).orders ≠ []) →
        s.dev.orderOpen f r →
        exec (.vfmQuiesce r) s = .next (s.endsWith (s.dev.withOrder f 1 r w b))) ∧
      ((s.dev.vf f).state = .quiesced → (s.dev.vf f).orders = [] →
        exec (.vfmQuiesce r) s = .next (s.endsWith (s.dev.finish r w.id 0 (toLE 4 (s.dev.vfHeld f)))))) ∧
    (s.dev.vfmFor r 0x62 w b f → (s.dev.vf f).state = .quiesced ∨ (s.dev.vf f).orders ≠ [] → s.dev.orderOpen f r →
      exec (.vfmResume r) s = .next (s.endsWith (s.dev.withOrder f 2 r w b))) ∧
    (s.dev.vfmFor r 0x63 w b f → leAt b 8 8 % 4096 = 0 → leAt b 16 4 % 64 = 0 → 0 < leAt b 16 4 → leAt b 16 4 ≤ 268435456 →
      leAt b 24 8 % 65536 = 0 → (s.dev.vf f).log = none → ((s.dev.vf f).orders.any fun o => decide (o.kind = 3)) = false →
      s.dev.loggers < 64 → s.dev.orderOpen f r →
      exec (.vfmDirtyStart r) s = .next (s.endsWith (s.dev.withOrder f 3 r w b))) ∧
    (∀ q ∈ [(Instr.vfmDirtyHarvest r, 0x64, false), (.vfmDirtyStop r, 0x65, true)], s.dev.vfmFor r q.2.1 w b f →
      (s.dev.vf f).log.isSome = true ∨ ((s.dev.vf f).orders.any fun o => decide (o.kind = 3)) = true → ((s.dev.vf f).harvests.any (·.stop)) = false →
      exec q.1 s = .next (s.endsWith ((s.dev.setVf f { s.dev.vf f with harvests := (s.dev.vf f).harvests ++
        [{ ring := r, work := w.id, mgr := s.dev.ringFunc r, dest := leAt b 8 8, stop := q.2.2 }] }).setWork r w.id fun x => { x with note := [1] }))) ∧
    (s.dev.vfmReady r 0x66 w b → f = blockVf b → s.dev.mayManage r f = true → f.num ≠ 0 → f.num ≤ 2048 →
      exec (.vfmInfo r) s = .next (s.endsWith (s.dev.finishPut r w.id (leAt b 8 8) (s.dev.grantRecord f ++ toLE 4 (s.dev.vfStateWord f) ++
        toLE 4 (s.dev.flowsOwned f) ++ toLE 4 (s.dev.keysOwned f) ++ zeros 52))))) ∧
  (∀ (s : State) (f : Func), s.live = true →
    (∀ d : Dev, d = s.dev.qrnFlush f Dev.cplWrite → (s.dev.vf f).state = .quiescing →
      ((d.ringsOf f).all fun r => (d.ring r).work.all fun w => w.done.isSome) = true →
      (d.qcmds.all fun c => !(decide (c.func = f) && c.started && c.done.isNone)) = true → (d.reads.all fun h => decide (h.func ≠ f)) = true →
      exec (.vfQuiesced f) s = .next (s.endsWith ((s.dev.vf f).quiesce.foldl (fun e w => e.finishNow w.1 w.2 0 (toLE 4 (d.vfHeld f)))
        (d.setVf f { s.dev.vf f with state := .quiesced, quiesce := [] })))) ∧
    (∀ (lg : DirtyLog) (h : Harvest) (hs : List Harvest), (s.dev.vf f).log = some lg → (s.dev.vf f).harvests = h :: hs → h.switched = true →
      exec (.harvestDone f) s = .next (s.endsWith (s.dev.harvested f lg h hs))) ∧
    (∀ (v : BitVec 32) (t : Tgt),
      (s.permits (.vf f) 0x2080 4 (putBits v.toNat 0 1 1) t → bitsOf t.acc.data 0 2 = 1 → bitOf t.acc.data 0 = true → bitOf t.acc.data 1 = false →
        (s.dev.vf f).outFull = false → exec (.vfMbxSend f v) s = .next (s.endsWith
          ((s.dev.setVf f { s.dev.vf f with outMsg := s.dev.words16 (vfKey f 0x2000), outFull := true }).raise .vfm f.link 0 8))) ∧
      (s.permits (.vf f) 0x2080 4 (putBits v.toNat 1 1 1) t → bitOf t.acc.data 0 = false → bitOf t.acc.data 1 = true →
        (s.dev.vf f).inFull = true → exec (.vfMbxAck f v) s =
          .next (s.endsWith ((s.dev.setVf f { s.dev.vf f with inFull := false }).raise .vfm f.link 0 9))))) ∧
  (∀ (s : State) (pt : Party) (v : BitVec 32) (t : Tgt) (f : Func), f.num = s.dev.fld (reg .vfm f.link 0x300) 0 12 →
    (s.permits pt (reg .vfm f.link 0x304) 4 (putBits v.toNat 0 1 1) t → bitsOf t.acc.data 0 2 = 1 → (s.dev.vf f).inFull = false →
      exec (.vfmMbxSend pt f.link v) s = .next (s.endsWith
        ((s.dev.setVf f { s.dev.vf f with inMsg := s.dev.words16 (reg .vfm f.link 0x380), inFull := true }).vfMessage f))) ∧
    (s.permits pt (reg .vfm f.link 0x304) 4 (putBits v.toNat 1 1 1) t → bitsOf t.acc.data 0 2 = 2 → (s.dev.vf f).outFull = true →
      exec (.vfmMbxAck pt f.link v) s =
        .next (s.endsWith ((s.dev.setVf f { s.dev.vf f with outFull := false }).vfMessage f))))

/-- The pair. -/
def Obligations.PairComplete : Prop :=
  (∀ (s : State) (alt : Bool) (f : List Byte) (d : Dev), s.live = true →
    (s.dev.takeFrame 1 (some alt) = some (f, d) → exec (.heartbeat alt) s = .next (s.endsWith (d.heartbeatTake f))) ∧
    (s.dev.takeFrame 2 none = some (f, d) → exec .mirrorFrame s = .next (s.endsWith (d.mirrorFrame f).blkPump)) ∧
    (s.dev.takeFrame 3 (some alt) = some (f, d) → exec (.ack alt) s = .next (s.endsWith
      ((d.orderAck (pairBody f)).ackBoth (pairBody f)))) ∧
    (s.dev.takeFrame 4 (some alt) = some (f, d) → byteAt (pairBody f) 1 = 1 →
      exec (.role alt) s = .next (s.endsWith (d.orderTake f)))) ∧
  (∀ (s : State) (stream : Nat), s.live = true → (s.dev.pair.stream (stream % 2)).unacked ≠ [] →
    (s.dev.pair.stream (stream % 2)).ackTurn + s.dev.fld (reg .prl 0 0x110) 0 8 ≤ s.dev.bounds →
    exec (.retransmit stream) s = .next (s.endsWith (s.dev.pairResend (stream % 2)))) ∧
  (∀ s : State, s.live = true → s.dev.bit (reg .prl 0 0x100) 0 = true → s.dev.silent s.dev.pair.heard = true →
    (s.dev.silent s.dev.pair.heardAlt = true → s.dev.pair.lost = false →
      exec .partnerLost s = .next (s.endsWith s.dev.partnerLost)) ∧
    (s.dev.silent s.dev.pair.heardAlt = false → exec .pairLinkFramesLost s = .next (s.endsWith s.dev.pairCut))) ∧
  (∀ (s : State) (pt : Party) (v : BitVec 32) (t : Tgt) (g : Nat), g = bitsOf t.acc.data 0 3 →
    (∀ rival fits : Prop, s.permits pt (reg .prl 0 0x128) 4 (putBits v.toNat 4 2 1) t → bitsOf t.acc.data 4 2 = 1 →
      (rival ↔ (s.dev.pair.orders.any fun o => !o.own && decide (o.group = g ∧ o.turn = s.dev.turn)) = true) →
      (fits ↔ s.dev.role g = .active ∧ s.dev.pair.partner.getD g 64 % 8 = 2 ∨
        s.dev.role g = .standby ∧ s.dev.pair.partner.getD g 64 % 8 = 3) →
      ((rival → s.dev.deviceId ≤ s.dev.partnerId) → fits → ∀ os : List RoleOrder,
        os = (s.dev.pair.orders.filter fun o => !(!o.own && decide (o.group = g ∧ o.turn = s.dev.turn))) ++
          [{ group := g, at_ := s.dev.rd64 (reg .prl 0 0x130), acked := false, own := true, turn := s.dev.turn }] →
        exec (.switchRole pt v) s = .next (s.endsWith
          ((({ s.dev with pair := { s.dev.pair with orders := os } } : Dev).pairSend 4 0 0 0
            ([byteN g, 1] ++ toBE 8 (s.dev.rd64 (reg .prl 0 0x130)))).wrN (reg .prl 0 0x138) 0x100))) ∧
      ((rival ∧ s.dev.partnerId < s.dev.deviceId) ∨ ¬ fits →
        exec (.switchRole pt v) s = .next (s.endsWith (s.dev.wrN (reg .prl 0 0x138) 0x05)))) ∧
    (s.permits pt (reg .prl 0 0x128) 4 (putBits v.toNat 4 2 2) t → bitsOf t.acc.data 4 2 = 2 → s.dev.pair.lost = true → s.dev.role g = .stale →
      exec (.forceRole pt v) s = .next (s.endsWith ((s.dev.takeover [g]).wrN (reg .prl 0 0x138) 0)))) ∧
  (∀ (d e : Dev) (o : RoleOrder) (told : Nat → Dev), d.pair.orders = [o] → o.acked = true → o.at_ ≤ d.turn →
    e = { d with pair := { d.pair with orders := [] } } → (told = fun st => if o.own then e.wrN (reg .prl 0 0x138) st else e) →
    (d.role o.group = .active → d.switchDue = (told 0).setRole o.group .standby (decide (o.at_ < d.turn))) ∧
    (d.role o.group = .standby → d.switchDue = ((told 0).setRole o.group .active (decide (o.at_ < d.turn))).takeGroup o.group) ∧
    (d.role o.group ≠ .active → d.role o.group ≠ .standby → d.switchDue = told 0x05)) ∧
  (∀ (s : State) (pt : Party) (g : Nat) (v : BitVec 32) (t : Tgt), s.permits pt (reg .prl 0 (0x140 + 4 * g)) 4 v.toNat t →
    (s.dev.role g ≠ .off → bitsOf t.acc.data 0 3 = 0 →
      exec (.groupKindWrite pt g v) s = .next (s.endsWith ((((s.dev.setRole g .off).store t).volsServed).blkPump))) ∧
    (s.dev.role g = .off → s.dev.groupBad g t.acc.data = false → bitsOf t.acc.data 0 3 ≠ 0 →
      exec (.groupKindWrite pt g v) s =
        .next (s.endsWith ((s.dev.store t).setRole g (if bitOf t.acc.data 3 then .alone else .stale)))))

/-- Firmware, boot, debug and flash. -/
def Obligations.FirmwareCompletes : Prop :=
  (∀ (s : State) (r : Nat) (w : Work), s.live = true → s.dev.fromPrimary r = true →
    (s.dev.mbxReady r 1 w → exec (.fwInfo r) s = .next (s.endsWith (s.dev.finishPut r w.id (mbxAddr w) s.dev.fwInfo))) ∧
    (s.dev.mbxReady r 2 w → s.dev.activation = none → mbxLen w ≤ 0x1000000 →
      (w.started = false → exec (.fwStage r) s = .next (s.endsWith
        ((s.dev.setWork r w.id fun x => { x with started := true }).workRead w 0 (mbxAddr w) (mbxLen w)))) ∧
      (∀ d : Dev, w.started = true → w.waiting = [] →
        d = (s.dev.flashErase (slotBase (1 - s.dev.runSlot)) 0x1000000).flashProgram (slotBase (1 - s.dev.runSlot)) (slice w.allData 0 (mbxLen w)) →
        exec (.fwStage r) s = .next (s.endsWith (match d.imageBad (1 - s.dev.runSlot) with
          | none => d.finish r w.id 0
          | some n => d.finish r w.id 0x01 [byteN n])))) ∧
    (s.dev.mbxReady r 3 w → w.started = false → s.dev.activation = none →
      ∀ d : Dev, d = s.dev.setWork r w.id (fun w => { w with started := true }) →
      exec (.fwActivate r) s = .next (s.endsWith (if s.dev.imageOk (1 - s.dev.runSlot) = true then
          ({ d with activation := some { ring := r, work := w.id, slot := 1 - d.runSlot }, handing := d.handoverFrom 4 } : Dev).setFwState 3
        else s.dev.finish r w.id 0x05))) ∧
    (s.dev.mbxReady r 4 w → exec (.fwRollbackCommit r) s = .next (s.endsWith
      (({ s.dev with rollback := max s.dev.rollback (min 127 (byteAt (s.dev.slotHead s.dev.runSlot) 6)) } : Dev).finish r w.id 0))) ∧
    (s.dev.mbxReady r 5 w → mbxLen w = 160 → w.note = [] → s.dev.entRuns 3 = true →
      (w.started = false → exec (.debugUnlock r) s = .next (s.endsWith
        ((s.dev.setWork r w.id fun x => { x with started := true }).workRead w 0 (mbxAddr w) 160))) ∧
      (∀ (d : Dev) (gens : List Nat), w.started = true → w.waiting = [] →
        s.dev.newChallenge.keyEraseAll = (d, gens) → d.keyHeld gens = false →
        exec (.debugUnlock r) s = .next (s.endsWith (if s.dev.tokenOk (slice w.allData 0 160) = true then
            (d.setDebug true (leAt (slice w.allData 0 160) 28 4 % 8)).finish r w.id 0
          else s.dev.newChallenge.finish r w.id 0x10)))) ∧
    (s.dev.mbxReady r 6 w → exec (.debugLock r) s = .next (s.endsWith ((s.dev.setDebug false 0).finish r w.id 0)))) ∧
  (∀ (s : State) (a : Activation), s.live = true → s.dev.activation = some a →
    (a.waiting = false → s.dev.handing = none → s.dev.quernRunning = false →
      exec .activationComplete s = .next (s.endsWith ((((s.dev.setRunSlot a.slot).activationEnd a 0
        (toLE 4 (s.dev.slotVersion a.slot) ++ zeros 4)).fwEvent 0xA4 0 0 0 (s.dev.slotVersion a.slot)).raise .fwc 0 0 9))) ∧
    (∀ d : Dev, a.waiting = false → s.dev.handing = none → s.dev.quernRunning = true → d = (s.dev.fwHold 0).fwEvent 0xA5 0 0 0 0 →
      (a.defers = 3 → exec .actDeferred s = .next (s.endsWith (d.activationBack a 0x05))) ∧
      (a.defers ≠ 3 → exec .actDeferred s =
        .next (s.endsWith { d with activation := some { a with defers := a.defers + 1, waiting := true } }))) ∧
    (a.waiting = true → exec .activationRetry s =
      .next (s.endsWith (({ s.dev with activation := some { a with waiting := false } } : Dev).fwHold 1)))) ∧
  (∀ (s : State) (pt : Party) (v : BitVec 32) (t : Tgt) (a : Nat), (∀ c, t.acc.pt ≠ .core c) → s.dev.flashOp = none → a = s.dev.rdN (reg .fwc 0 0x10100) →
    (s.permits pt flashCmd 4 (putBits v.toNat 0 1 1) t → t.acc.data % 8 = 1 → exec (.flashRead pt v) s =
      .next (s.endsWith (({ s.dev with flashOp := some (1, a, s.dev.flashData) } : Dev).setFld flashStat 0 2 1))) ∧
    (s.permits pt flashCmd 4 (putBits v.toNat 1 1 1) t → t.acc.data % 8 = 2 → s.dev.touchesRun a 64 = false → exec (.flashProgram pt v) s =
      .next (s.endsWith (({ s.dev with flashOp := some (2, a, s.dev.flashData) } : Dev).setFld flashStat 0 2 1))) ∧
    (s.permits pt flashCmd 4 (putBits v.toNat 2 1 1) t → t.acc.data % 8 = 4 → s.dev.touchesRun (a / 65536 * 65536) 65536 = false →
      exec (.flashErase pt v) s =
        .next (s.endsWith (({ s.dev with flashOp := some (4, a, s.dev.flashData) } : Dev).setFld flashStat 0 2 1)))) ∧
  (∀ (s : State) (op a : Nat) (data : List Byte) (d : Dev), s.live = true → s.dev.flashOp = some (op, a, data) →
    ∀ x, x = (s.dev.drawFree).2 % 2 → d = ({ s.dev with flashOp := none, draws := s.dev.draws + 1 } : Dev).setFld flashStat 0 2 (2 * x) →
    (x = 1 → exec .flashDone s = .next (s.endsWith d)) ∧ (x = 0 →
    (op = 2 → exec .flashDone s = .next (s.endsWith (d.flashProgram a data))) ∧
    (op = 4 → exec .flashDone s = .next (s.endsWith (d.flashErase (a / 65536 * 65536) 65536))) ∧
    (op = 1 → exec .flashDone s = .next (s.endsWith ((rangeFrom 0 16).foldl
      (fun e i => e.wrN (reg .fwc 0 (0x10140 + 4 * i)) (leAt (d.flashRead a 64) (4 * i) 4)) d))))) ∧
  (∀ (s : State) (pt : Party) (v : BitVec 32) (t : Tgt), s.permits pt (reg .fwc 0 0x10C) 4 v.toNat t → bitOf t.acc.data 0 = true →
    s.dev.fwState = 2 → exec (.reboot pt v) s = .next (s.deviceReset false).ends) ∧
  (∀ s : State, s.live = true → s.dev.fwState = 0 → s.dev.refUp = true → exec .bootComplete s = .next (s.endsWith s.dev.boot))

/-- Failures and what they fence. -/
def Obligations.FailedUnitsAreContained : Prop :=
  (∀ (s : State) (p : Nat), s.live = true → p < 8 → s.dev.pipeAlive p = true → (s.dev.pipe p).fault = none →
    exec (.uncorrectableError (.pipeline p)) s = .next (s.endsWith (s.dev.setPipe p { s.dev.pipe p with fault := some 0 })) ∧
    ((∃ x ∈ (s.dev.pipe p).marks ++ (s.dev.pipe p).ready, x.exempt = false ∧ x.admitted + 3 ≤ s.dev.turn) →
      s.dev.bit (reg .clk 0 0x100) 1 = false →
      exec (.transitBoundExceeded p) s = .next (s.endsWith (s.dev.setPipe p { s.dev.pipe p with fault := some 1 })))) ∧
  (∀ (s : State) (e : Nat), s.live = true → e < 4 → s.dev.fenced .blke e = false →
    exec (.uncorrectableError (.engine e)) s = .next (s.endsWith (s.dev.engineFence e 0)) ∧
    ((∃ c ∈ s.dev.flying e, c.moved + 16 ≤ s.dev.bounds) → exec (.engineNoProgress e) s = .next (s.endsWith (s.dev.engineFence e 1)))) ∧
  (∀ (s : State) (c i : Nat), s.live = true → c < 3 → i < laneCount c → (s.dev.lane c i).fenced = none → s.dev.fenced .cip c = false →
    exec (.uncorrectableError (.lane c i)) s = .next (s.endsWith (s.dev.laneFence c i 0)) ∧
    (∀ r, c = 0 → (s.dev.lane 0 i).active = some r → r.started + 2 ≤ s.dev.bounds →
      exec (.laneBoundExceeded c i) s = .next (s.endsWith (s.dev.laneFence 0 i 1)))) ∧
  (∀ (s : State) (c : Nat), s.live = true → c < 4 → s.dev.clusterGone c = false →
    exec (.uncorrectableError (.cluster c)) s = .next (s.endsWith (s.dev.clusterFence c 0)) ∧
    exec (.watchdogExpire c) s = .next (s.endsWith (s.dev.clusterFence c 2))) ∧
  (∀ (s : State) (page : Nat) (l : Loc), s.live = true → locate page = some l → l.off = 0 → l.page = 0 →
    l.blk ∉ [Blk.prs, .cls, .act, .blke] →
    exec (.uncorrectableError (.other page)) s =
      .next (s.endsWith ((s.dev.setError l.blk l.inst).logUncorrectable l.blk l.inst))) ∧
  (∀ (d : Dev) (p cause : Nat), (d.pipe p).fault = some cause → ∀ (e : Dev) (n : Nat),
    (d.setPipe p { d.pipe p with fault := none }).pipeEmpty p = (e, n) →
    ∀ f : Dev, f = ((((e.fenceInst .prs p true).fenceInst .cls p true).fenceInst .act p true).fenceInst .pat p true) →
    (cause = 0 → d.pipeFence p =
      ((((f.logUncorrectable .prs p).logUncorrectable .cls p).logUncorrectable .act p)).fwEvent 0xA0 p cause n 0) ∧
    (cause ≠ 0 → d.pipeFence p = f.fwEvent 0xA0 p cause n 0))

/-- The reference clock. -/
def Obligations.ReferenceIsJudged : Prop :=
  (∀ (s : State) (iosc : Nat) (d : Dev), s.live = true → s.dev.refUp = false → s.dev.locking = false →
    (s.dev.bit clkStatus 1 = true → s.dev.bit clkStatus 2 = true) → d = s.dev.setFld clkStatus 2 1 1 →
    (41524 ≤ iosc → iosc ≤ 42362 →
      (s.dev.windows = 63 → exec (.judgeWindow iosc) s = .next (s.endsWith
        ((({ d with windows := 0, locking := true } : Dev).setFld clkStatus 2 1 0).wrN (reg .clk 0 0x104) 64))) ∧
      (s.dev.windows ≠ 63 → exec (.judgeWindow iosc) s = .next (s.endsWith { d with windows := s.dev.windows + 1 }))) ∧
    (iosc < 41524 ∨ 42362 < iosc → exec (.judgeWindow iosc) s = .next (s.endsWith
      (({ d with windows := 0 } : Dev).wrN (reg .clk 0 0x104) (s.dev.windows + 65536 * (iosc % 65536))).judgeFail))) ∧
  (∀ s : State, s.live = true → s.dev.locking = true →
    exec .pllLockTimeout s =
      .next (s.endsWith ((({ s.dev with locking := false, windows := 0 } : Dev).setFld clkStatus 2 1 1).judgeFail)) ∧
    exec .refAccepted s = .next (State.ends { s.setTime { s.time with
      coast := false, servo := if s.time.servo = .coast then .holdover else s.time.servo } with
        dev := (s.setTime { s.time with coast := false, servo := if s.time.servo = .coast then .holdover else s.time.servo }).dev.accept })) ∧
  (∀ s : State, s.live = true → s.dev.refUp = false → s.dev.bit clkStatus 2 = false → s.dev.locking = false →
    exec .refEdgesResume s = .next (s.endsWith (({ s.dev with windows := 0 } : Dev).setFld clkStatus 2 1 1))) ∧
  (∀ (s u : State) (lost : Prop), s.live = true →
    (lost ↔ s.dev.refUp = true ∨ (s.dev.bit clkStatus 0 = true ∧ (s.dev.bit clkStatus 2 = true ∨ s.dev.locking = true))) →
    u = s.setTime { s.time with coast := true, lossSinceLock := true, servo := if s.time.servo = .host then .host else .coast } →
    (lost → exec .refLost s = .next (State.ends { u with dev := u.dev.judgeLost.loseRef })) ∧
    (¬ lost → exec .refLost s = .next (s.endsWith s.dev.judgeLost))) ∧
  (∀ s : State, s.dev.dead = false → s.dev.resetHeld = true →
    exec .refLost s = .next { s with dev := { s.dev with locking := false, lossSince := true } }) ∧
  (∀ d : Dev, d.bit clkStatus 2 = true ∨ d.locking = true → d.locking = false ∨ d.bit clkStatus 0 = false ∨ d.lossSince = true →
    d.judgeLost = ((({ d with windows := 0, locking := false } : Dev).setFld clkStatus 2 1 0).wrN (reg .clk 0 0x104)
      (if d.locking then 64 else d.windows)).judgeFail)

/-- Supply, temperature, power domains and resets. -/
def Obligations.SupplyAndDomainsComplete : Prop :=
  (∀ (s : State) (mv : Nat), s.live = true →
    (mv < 10800 ∨ 13200 < mv → exec (.vinOutOfRange mv) s = .next (s.endsWith
      (((s.dev.wrN (reg .pwr 0 0x104) (mv % 65536)).pwrBit 0 10 (decide (mv < 10800))).pwrBit 1 10 (decide (13200 < mv))))) ∧
    (10800 ≤ mv → mv ≤ 13200 → exec (.vinReturnToRange mv) s = .next (s.endsWith
      (((s.dev.wrN (reg .pwr 0 0x104) mv).pwrBit 0 10 false).pwrBit 1 10 false)))) ∧
  (∀ (s : State) (mv : Nat), s.dev.dead = true →
    (mv < 10500 → exec (.vinOutOfRange mv) s = .next { s with dev := { s.dev with tripped := false } }) ∧
    (10500 ≤ mv → exec (.vinOutOfRange mv) s = .next s)) ∧
  (∀ (s : State) (ma : Nat) (d : Dev), s.live = true → d = s.dev.wrN (reg .pwr 0 0x108) (ma % 65536) →
    (25000 < ma → exec (.iinWindow ma) s =
      .next (s.endsWith { d.pwrBit 2 11 true with ocLevel := if d.ocLevel = 0 then 1 else 2 })) ∧
    (ma < 23000 → exec (.iinWindow ma) s = .next (s.endsWith { d.pwrBit 2 11 false with ocLevel := 0 })) ∧
    (23000 ≤ ma → ma ≤ 25000 → exec (.iinWindow ma) s = .next (s.endsWith d))) ∧
  (∀ (s : State) (tj : Int), s.live = true →
    exec .vioFault s = .next (s.endsWith (s.dev.pwrBit 3 10 true)) ∧
    exec (.tjWarn tj) s = .next (s.endsWith (s.dev.wrN (reg .pwr 0 0x10C) (BitVec.ofInt 16 tj).toNat).tjCheck)) ∧
  (∀ s : State, (s.dev.dead = false ∨ s.dev.tripped = false → exec .por s = .next (s.porReset false false)) ∧
    (s.dev.dead = true → s.dev.tripped = true → exec .por s = .next s) ∧
    exec .sysRstNRelease s = .next { s with dev := { s.dev with resetHeld := false } } ∧
    (s.dev.dead = true → exec .brownOut s = .next { s with dev := { s.dev with tripped := false } }) ∧
    (s.dev.dead = false → exec .brownOut s = .next (s.porReset true false) ∧
      (∀ tj : Int, 1840 ≤ tj → exec (.thermalTrip tj) s = .next (s.porReset true true)) ∧
      exec .deviceReset s = .next (s.deviceReset true))) ∧
  (∀ (s : State) (pt : Party) (v : BitVec 32) (t : Tgt) (m : Nat), m = bitsOf t.acc.data 0 6 → m ≠ 0 → m ≤ 32 → s.dev.domSwitch = none →
    (s.permits pt (reg .pwr 0 0x120) 4 (putBits (putBits v.toNat 8 1 0) 9 1 1) t → bitOf t.acc.data 8 = false → bitOf t.acc.data 9 = true →
      s.dev.domainOn m = true → s.dev.offRefused m = false → exec (.domainOff pt v) s = .next (s.endsWith
        (({ s.dev with domSwitch := some { dom := m, on := false } } : Dev).wrN (reg .pwr 0 0x124) (256 + 65536 * m)))) ∧
    (s.permits pt (reg .pwr 0 0x120) 4 (putBits (putBits v.toNat 8 1 1) 9 1 0) t → bitOf t.acc.data 8 = true → bitOf t.acc.data 9 = false →
      s.dev.domainOn m = false → exec (.domainOn pt v) s = .next (s.endsWith
        (({ s.dev with domSwitch := some { dom := m, on := true } } : Dev).wrN (reg .pwr 0 0x124) (256 + 65536 * m)))) ∧
    (s.permits pt (reg .pwr 0 0x120) 4 (putBits (putBits v.toNat 8 1 0) 9 1 1) t → bitOf t.acc.data 8 = false → bitOf t.acc.data 9 = true →
      (s.dev.domainOn m = false → exec (.domainOff pt v) s = .next (s.endsWith (s.dev.switchEnd m 0))) ∧
      (s.dev.domainOn m = true → s.dev.offRefused m = true → exec (.domainOff pt v) s = .next (s.endsWith (s.dev.switchEnd m 0x05))))) ∧
  (∀ (s : State) (w : DomSwitch), s.live = true → s.dev.domSwitch = some w →
    (∀ (m : Nat) (d e : Dev), w.on = false → w.withdrawn = true → s.dev.domainQuiet w.dom = true → m = w.dom →
      d = (if 1 ≤ m ∧ m ≤ 8 then s.dev.pipeFence (m - 1) else if 17 ≤ m ∧ m ≤ 19 then s.dev.lanesReset (m - 17) false else s.dev) →
      e = ((domainInsts m).foldl (fun d q => d.fenceInst q.1 q.2 false) d).setDomain m false →
      exec .domainOffComplete s = .next (s.endsWith
        ((if s.dev.coresDead = false ∧ e.coresDead = true then e.fwEvent 0xA6 (m - 23) 0 0 0 else e).switchEnd m 0))) ∧
    (w.on = true → exec .domainOnComplete s = .next (s.endsWith ((s.dev.domainUp w.dom).switchEnd w.dom 0)))) ∧
  (∀ (s : State) (p : Nat), s.live = true → p < 8 → (s.dev.pipe p).inService = false → s.dev.leatsOpen (s.dev.pipe p) = false →
    exec (.leatWithdrawExpire p) s = .next (s.endsWith ((s.dev.pipe p).leats.foldl (fun d x => d.dropPkt x 11)
      (s.dev.setPipe p { s.dev.pipe p with leats := [], leatUntil := none }))))

/-- TAP, management buses, console and output levels.  The order of the scan cells and what SAMPLE and Capture-DR leave open are
the model's choice (logs 166, 167, 204). -/
def Obligations.TestAccessCompletes : Prop :=
  (∀ s : State, s.dev.dead = false →
    exec .idcode s = .next { s with dev := (s.dev.tapLoad 0x01).emit (.tdo (bitList s.dev.idcode 32)) } ∧
    exec .bypass s = .next { s with dev := (s.dev.tapLoad 0xFF).emit (.tdo [false]) } ∧
    (∀ (cells out : List Bool) (d : Dev) (x : Nat), (s.dev.tapLoad 0x02).drawFree = (d, x) → out.length = 310 →
      (∀ (i : Nat) (c : Ball × CellKind), scanCells[i]? = some c → out[i]? = some ((s.sample c).getD (bitOf x i))) →
      exec (.samplePreload cells) s =
        .next { s with dev := ({ d with tap := { d.tap with cells := cells.take 310 } } : Dev).emit (.tdo out) }) ∧
    (∀ q ∈ [(Instr.extest, 3), (.extestPulse, 4), (.extestTrain, 5), (.highz, 6), (.clamp, 7)],
      exec q.1 s = .next { s with dev := (s.dev.tapLoad q.2).serdesLost }) ∧
    (∀ (bus : Nat) (offset : BitVec 8) (len : Nat),
      exec (.mbTransfer bus offset len false) s = .next { s with
        dev := (s.dev.emit (.bytes (mbName bus) ((rangeFrom offset.toNat len).map fun i => (s.dev.mbBytes[i]?).getD 0))) } ∧
      exec (.mbTransfer bus offset len true) s = .next { s with
        dev := ((s.dev.emit (.bytes (mbName bus ++ " NACK") [])).emit
          (.bytes (mbName bus) ((rangeFrom offset.toNat len).map fun i => (s.dev.mbBytes[i]?).getD 0))) }) ∧
    (∀ (bus : Nat) (addr : BitVec 7),
      exec (.dynamicAddressAssign bus addr) s = .next { s with dev := { s.dev with mbus := s.dev.mbus.put bus { dyn := some addr.toNat } } })) ∧
  (∀ (s : State) (dr : BitVec 62), s.dev.dead = false → s.dev.scope 1 = false →
    exec (.regAccess dr) s = .next { s with dev := (s.dev.tapLoad 0xFF).emit (.tdo [false]) }) ∧
  (∀ (s t u : State) (dr : BitVec 62) (off : Nat), s.live = true → s.dev.scope 1 = true → off = bitsOf dr.toNat 32 28 →
    t = { s with dev := (s.dev.tapLoad 0x20).tapCapture } →
    (bitOf dr.toNat 60 = true → u = t.busWrite (.core 0) off 4 (dr.toNat % p32) → exec (.regAccess dr) s =
      .next { State.ends { u with dev := { u.dev with tap := { u.dev.tap with done := true, read := false } } } with pending := s.pending }) ∧
    (∀ x : Nat, bitOf dr.toNat 60 = false → t.busRead (.core 0) off 4 = (u, x) → exec (.regAccess dr) s =
      .next { State.ends { u with dev := { u.dev with tap := { u.dev.tap with done := true, read := true, data := x % p32 } } } with pending := s.pending })) ∧
  (∀ (s : State) (b : Byte), s.live = true →
    (s.dev.scope 2 = true → exec (.uartRx b) s = .next { s with dev := { s.dev with console := s.dev.console ++ [b] } }) ∧
    (s.dev.scope 2 = false → exec (.uartRx b) s = .next s)) ∧
  (∀ d : Dev, ∃ (e : Dev) (x bits : Nat), d.drawFree = (e, x) ∧ d.tapCapture = e.emit (.tdo (bitList bits 62)) ∧
    bitOf bits 61 = d.tap.done ∧ (d.tap.read = true → d.tap.data < p32 → bitsOf bits 0 32 = d.tap.data)) ∧
  scanCells.length = 310 ∧
  (∀ s : State,
    (s.dev.dead = true → s.level .pgOut = .low ∧ (∀ b, b.classA = true → s.level b = .off) ∧ (∀ j, s.level (.drpRefclk j) = .low)) ∧
    (s.dev.dead = false → s.dev.resetHeld = true →
      (∀ b, b = .xspiCs ∨ b = .uartTx → s.level b = .high) ∧
      (∀ b, b.classA = true → b ≠ .xspiCs → b ≠ .uartTx → s.level b = .low) ∧
      (∀ j, s.level (.drpRefclk j) = .low ∧ s.level (.drpPerst j) = .low ∧ s.level (.modRst j) = .low)) ∧
    (s.dev.dead = false → s.dev.resetHeld = false →
      (∀ j, s.level (.drpRefclk j) = if s.dev.domainOn 32 = true ∧ s.dev.refUp = true then .clock else .low) ∧
      (∀ n, s.level (.tpo n) = levelOf (s.tpoLevel n)) ∧ (∀ n, s.level (.modRst n) = pullLow (s.dev.bit (reg .mac n 0x10C) 0)) ∧
      s.level .alert = pullLow s.dev.alert ∧ s.level .pgOut = .off))

/-- Writes of the managers and page ownership. -/
def Obligations.WritesNeedOwnership : Prop :=
  (∀ (d : Dev) (l : Loc) (sp : Space), (d.primary = 0 → mayWrite d .hif0 l sp = true) ∧ (d.primary = 1 → mayWrite d .hif1 l sp = true) ∧
    (l.blk = .hif ∨ l.blk = .vfm → sp = .block ∨ sp = .header →
      (l.inst = 0 → mayWrite d .hif0 l sp = true) ∧ (l.inst = 1 → mayWrite d .hif1 l sp = true))) ∧
  (∀ (s : State) (pt : Party) (off width : Nat) (v : BitVec 64) (l : Loc), s.live = true → pt = .hif0 ∨ pt = .hif1 →
    s.dev.place off = some l → mayWrite s.dev pt l (spaceOf s.dev pt l) = false →
    ∃ n, exec (.registerWrite pt off width v) s = .next (s.endsWith
      (s.dev.logSys { pt := pt, off := off, data := v.toNat, page := l.pageBase, detail := n } 0x0002)))

/-- The first-error log. -/
def Obligations.FirstErrorIsKept : Prop :=
  ∀ (d e : Dev) (page code who off data detail : Nat), page % 0x10000 = 0 → e = d.logRaw page code who off data detail →
    (d.bit (page + 0x40) 31 = true →
      e.fld (page + 0x44) 0 16 = min 65535 (d.fld (page + 0x44) 0 16 + 1) ∧ (∀ k, k ≠ page + 0x44 → e.rd k = d.rd k) ∧ e.out = d.out) ∧
    (d.bit (page + 0x40) 31 = false →
      e.bit (page + 0x40) 31 = true ∧ e.fld (page + 0x40) 0 16 = code % 65536 ∧ e.rd (page + 0x44) = 0 ∧
      e.rdN (page + 0x48) + 4294967296 * e.rdN (page + 0x4C) = d.turn % 18446744073709551616 ∧
      e.rd (page + 0x50) = w32 who ∧ e.rdN (page + 0x54) = off % 0x10000000 ∧ e.rdN (page + 0x58) = data % 4294967296 ∧
      e.rd (page + 0x5C) = w32 detail ∧ e.rd (page + 0x20) = d.rd (page + 0x20) ||| 1 ∧
      (∀ k, (k < page + 0x40 ∨ page + 0x60 ≤ k) → k ≠ page + 0x20 → k ≠ reg .sys 0 0x204 → e.rd k = d.rd k))

/-- Page interrupts. -/
def Obligations.InterruptsMessageOnce : Prop :=
  ∀ (d e : Dev) (page mask n : Nat) (f : Func), e = d.setInt page mask → page % 0x10000 = 0 →
    f = ⟨d.fld (page + 0x2C) 28 1, d.fld (page + 0x2C) 16 12⟩ → n = d.fld (page + 0x2C) 0 11 →
    e.rd (page + 0x20) = d.rd (page + 0x20) ||| w32 mask ∧
    (∀ k, k ≠ page + 0x20 → k ≠ reg .sys 0 0x204 → e.rd k = d.rd k) ∧
    (d.intCond page = true ∨ e.intCond page = false ∨ d.bit (page + 0x2C) 31 = false → e.out = d.out ∧ e.msix = d.msix) ∧
    (d.intCond page = false → e.intCond page = true → d.bit (page + 0x2C) 31 = true → d.fnExists f = true → n < d.msixSize f →
      (d.link f.link).up = true →
      ((d.msix.getD (vecKey f n) {}).unmasked = true → d.msixFn.getD (fkey f) false = true → d.master f = true →
        e.out = d.out ++ [.msix f n] ∧ e.msix = d.msix) ∧
      ((d.msix.getD (vecKey f n) {}).unmasked = false → e.out = d.out ∧ (e.msix.getD (vecKey f n) {}).pending = true))

/-- HBM: read after write, frame, canonical form. -/
def Obligations.HbmReadsBack : Prop :=
  ∀ (d : Dev) (a : Nat) (bs : List Byte),
    (d.hbmWrite a bs).hbmRead a bs.length = bs ∧
    (∀ j n, j + n ≤ a ∨ a + bs.length ≤ j → (d.hbmWrite a bs).hbmRead j n = d.hbmRead j n) ∧
    (Memory.wf d.hbm → Memory.wf (d.hbmWrite a bs).hbm)
end

