-- ==== Sys2Proof/Laws/State.lean ====
section
/-! SUPPORT. One lemma for each field under each update of the state: what an update leaves and what it sets. -/

namespace Sys2Proof.Machine

/-! ### The machine -/

@[simp] theorem State.ends_time (s : State) : (s.ends).time = s.time := by simp only [State.ends]
@[simp] theorem State.ends_pending (s : State) : (s.ends).pending = s.pending := by simp only [State.ends]
@[simp] theorem State.endsWith_time (s : State) (d : Dev) : (s.endsWith d).time = s.time := by simp only [State.endsWith]
@[simp] theorem State.endsWith_pending (s : State) (d : Dev) : (s.endsWith d).pending = s.pending := by simp only [State.endsWith]
@[simp] theorem State.ends_dev (s : State) : s.ends.dev = s.dev.settle := by simp only [State.ends]
@[simp] theorem State.endsWith_dev (s : State) (d : Dev) : (s.endsWith d).dev = d.settle := by simp only [State.endsWith]
@[simp] theorem State.setTime_time (s : State) (t : TimeSt) : (s.setTime t).time = t := rfl
@[simp] theorem State.setTime_pending (s : State) (t : TimeSt) : (s.setTime t).pending = s.pending := rfl

/-! ### The end of a command -/

/-- A command that acts on the device and can end work. -/
theorem State.act_of {s : State} {f : Dev → Dev} {d : Dev} (hl : s.live = true) (h : f s.dev = d) :
    s.act f = .next (s.endsWith d) := by
  simp only [State.act, hl, if_true, h, State.endsWith]

/-- A command that acts on the device and ends no work. -/
theorem State.onDev_of {s : State} {f : Dev → Dev} {d : Dev} (hl : s.live = true) (h : f s.dev = d) :
    s.onDev f = .next { s with dev := d } := by
  simp only [State.onDev, hl, if_true, h]

/-- A command that acts on time and device. -/
theorem State.run_of {s u : State} {f : State → State} (hl : s.live = true) (h : f s = u) (hp : u.pending = s.pending) :
    s.run f = .next u.ends := by
  simp only [State.run, hl, if_true, h, ← hp, State.ends]

/-- A command that acts on time and device, where only the device has changed. -/
theorem State.run_dev {s : State} {f : State → State} {d : Dev} (hl : s.live = true) (h : f s = { s with dev := d }) :
    s.run f = .next (s.endsWith d) := by
  simp only [State.run, hl, if_true, h, State.endsWith]

/-- A device that takes no commands. -/
theorem State.act_dead {s : State} {f : Dev → Dev} (hl : s.live = false) : s.act f = .next s := by
  simp only [State.act, hl, if_false, Bool.false_eq_true]

theorem State.onDev_dead {s : State} {f : Dev → Dev} (hl : s.live = false) : s.onDev f = .next s := by
  simp only [State.onDev, hl, if_false, Bool.false_eq_true]

theorem State.run_dead {s : State} {f : State → State} (hl : s.live = false) : s.run f = .next s := by
  simp only [State.run, hl, if_false, Bool.false_eq_true]

/-! ### `Dev.wr` -/

@[simp] theorem Dev.wr_regs (d : Dev) (k : Nat) (v : Word) : (d.wr k v).regs = d.regs.set k v (regReset k) := rfl
@[simp] theorem Dev.wr_hbm (d : Dev) (k : Nat) (v : Word) : (d.wr k v).hbm = d.hbm := rfl
@[simp] theorem Dev.wr_ecc (d : Dev) (k : Nat) (v : Word) : (d.wr k v).ecc = d.ecc := rfl
@[simp] theorem Dev.wr_flash (d : Dev) (k : Nat) (v : Word) : (d.wr k v).flash = d.flash := rfl
@[simp] theorem Dev.wr_out (d : Dev) (k : Nat) (v : Word) : (d.wr k v).out = d.out := rfl
@[simp] theorem Dev.wr_draws (d : Dev) (k : Nat) (v : Word) : (d.wr k v).draws = d.draws := rfl
@[simp] theorem Dev.wr_nextId (d : Dev) (k : Nat) (v : Word) : (d.wr k v).nextId = d.nextId := rfl
@[simp] theorem Dev.wr_turn (d : Dev) (k : Nat) (v : Word) : (d.wr k v).turn = d.turn := rfl
@[simp] theorem Dev.wr_bounds (d : Dev) (k : Nat) (v : Word) : (d.wr k v).bounds = d.bounds := rfl
@[simp] theorem Dev.wr_extended (d : Dev) (k : Nat) (v : Word) : (d.wr k v).extended = d.extended := rfl
@[simp] theorem Dev.wr_active (d : Dev) (k : Nat) (v : Word) : (d.wr k v).active = d.active := rfl
@[simp] theorem Dev.wr_staged (d : Dev) (k : Nat) (v : Word) : (d.wr k v).staged = d.staged := rfl
@[simp] theorem Dev.wr_retained (d : Dev) (k : Nat) (v : Word) : (d.wr k v).retained = d.retained := rfl
@[simp] theorem Dev.wr_stageFill (d : Dev) (k : Nat) (v : Word) : (d.wr k v).stageFill = d.stageFill := rfl
@[simp] theorem Dev.wr_pipes (d : Dev) (k : Nat) (v : Word) : (d.wr k v).pipes = d.pipes := rfl
@[simp] theorem Dev.wr_ports (d : Dev) (k : Nat) (v : Word) : (d.wr k v).ports = d.ports := rfl
@[simp] theorem Dev.wr_dst (d : Dev) (k : Nat) (v : Word) : (d.wr k v).dst = d.dst := rfl
@[simp] theorem Dev.wr_cells (d : Dev) (k : Nat) (v : Word) : (d.wr k v).cells = d.cells := rfl
@[simp] theorem Dev.wr_priCells (d : Dev) (k : Nat) (v : Word) : (d.wr k v).priCells = d.priCells := rfl
@[simp] theorem Dev.wr_sendWait (d : Dev) (k : Nat) (v : Word) : (d.wr k v).sendWait = d.sendWait := rfl
@[simp] theorem Dev.wr_ft (d : Dev) (k : Nat) (v : Word) : (d.wr k v).ft = d.ft := rfl
@[simp] theorem Dev.wr_rings (d : Dev) (k : Nat) (v : Word) : (d.wr k v).rings = d.rings := rfl
@[simp] theorem Dev.wr_reads (d : Dev) (k : Nat) (v : Word) : (d.wr k v).reads = d.reads := rfl
@[simp] theorem Dev.wr_msix (d : Dev) (k : Nat) (v : Word) : (d.wr k v).msix = d.msix := rfl
@[simp] theorem Dev.wr_msixFn (d : Dev) (k : Nat) (v : Word) : (d.wr k v).msixFn = d.msixFn := rfl
@[simp] theorem Dev.wr_links (d : Dev) (k : Nat) (v : Word) : (d.wr k v).links = d.links := rfl
@[simp] theorem Dev.wr_bme (d : Dev) (k : Nat) (v : Word) : (d.wr k v).bme = d.bme := rfl
@[simp] theorem Dev.wr_devCtl (d : Dev) (k : Nat) (v : Word) : (d.wr k v).devCtl = d.devCtl := rfl
@[simp] theorem Dev.wr_devCtl2 (d : Dev) (k : Nat) (v : Word) : (d.wr k v).devCtl2 = d.devCtl2 := rfl
@[simp] theorem Dev.wr_caps (d : Dev) (k : Nat) (v : Word) : (d.wr k v).caps = d.caps := rfl
@[simp] theorem Dev.wr_vfs (d : Dev) (k : Nat) (v : Word) : (d.wr k v).vfs = d.vfs := rfl
@[simp] theorem Dev.wr_tables (d : Dev) (k : Nat) (v : Word) : (d.wr k v).tables = d.tables := rfl
@[simp] theorem Dev.wr_owned (d : Dev) (k : Nat) (v : Word) : (d.wr k v).owned = d.owned := rfl
@[simp] theorem Dev.wr_scrubs (d : Dev) (k : Nat) (v : Word) : (d.wr k v).scrubs = d.scrubs := rfl
@[simp] theorem Dev.wr_sweeps (d : Dev) (k : Nat) (v : Word) : (d.wr k v).sweeps = d.sweeps := rfl
@[simp] theorem Dev.wr_faults (d : Dev) (k : Nat) (v : Word) : (d.wr k v).faults = d.faults := rfl
@[simp] theorem Dev.wr_filter (d : Dev) (k : Nat) (v : Word) : (d.wr k v).filter = d.filter := rfl
@[simp] theorem Dev.wr_lrn (d : Dev) (k : Nat) (v : Word) : (d.wr k v).lrn = d.lrn := rfl
@[simp] theorem Dev.wr_images (d : Dev) (k : Nat) (v : Word) : (d.wr k v).images = d.images := rfl
@[simp] theorem Dev.wr_autos (d : Dev) (k : Nat) (v : Word) : (d.wr k v).autos = d.autos := rfl
@[simp] theorem Dev.wr_ind (d : Dev) (k : Nat) (v : Word) : (d.wr k v).ind = d.ind := rfl
@[simp] theorem Dev.wr_coresFenced (d : Dev) (k : Nat) (v : Word) : (d.wr k v).coresFenced = d.coresFenced := rfl
@[simp] theorem Dev.wr_handing (d : Dev) (k : Nat) (v : Word) : (d.wr k v).handing = d.handing := rfl
@[simp] theorem Dev.wr_pair (d : Dev) (k : Nat) (v : Word) : (d.wr k v).pair = d.pair := rfl
@[simp] theorem Dev.wr_localOnly (d : Dev) (k : Nat) (v : Word) : (d.wr k v).localOnly = d.localOnly := rfl
@[simp] theorem Dev.wr_lanes (d : Dev) (k : Nat) (v : Word) : (d.wr k v).lanes = d.lanes := rfl
@[simp] theorem Dev.wr_entReqs (d : Dev) (k : Nat) (v : Word) : (d.wr k v).entReqs = d.entReqs := rfl
@[simp] theorem Dev.wr_entSeeds (d : Dev) (k : Nat) (v : Word) : (d.wr k v).entSeeds = d.entSeeds := rfl
@[simp] theorem Dev.wr_keys (d : Dev) (k : Nat) (v : Word) : (d.wr k v).keys = d.keys := rfl
@[simp] theorem Dev.wr_keks (d : Dev) (k : Nat) (v : Word) : (d.wr k v).keks = d.keks := rfl
@[simp] theorem Dev.wr_keyHolds (d : Dev) (k : Nat) (v : Word) : (d.wr k v).keyHolds = d.keyHolds := rfl
@[simp] theorem Dev.wr_wrapKey (d : Dev) (k : Nat) (v : Word) : (d.wr k v).wrapKey = d.wrapKey := rfl
@[simp] theorem Dev.wr_keyBusy (d : Dev) (k : Nat) (v : Word) : (d.wr k v).keyBusy = d.keyBusy := rfl
@[simp] theorem Dev.wr_keyPend (d : Dev) (k : Nat) (v : Word) : (d.wr k v).keyPend = d.keyPend := rfl
@[simp] theorem Dev.wr_keyLoadAt (d : Dev) (k : Nat) (v : Word) : (d.wr k v).keyLoadAt = d.keyLoadAt := rfl
@[simp] theorem Dev.wr_saHigh (d : Dev) (k : Nat) (v : Word) : (d.wr k v).saHigh = d.saHigh := rfl
@[simp] theorem Dev.wr_saHighReq (d : Dev) (k : Nat) (v : Word) : (d.wr k v).saHighReq = d.saHighReq := rfl
@[simp] theorem Dev.wr_saLimit (d : Dev) (k : Nat) (v : Word) : (d.wr k v).saLimit = d.saLimit := rfl
@[simp] theorem Dev.wr_saDone (d : Dev) (k : Nat) (v : Word) : (d.wr k v).saDone = d.saDone := rfl
@[simp] theorem Dev.wr_saTaken (d : Dev) (k : Nat) (v : Word) : (d.wr k v).saTaken = d.saTaken := rfl
@[simp] theorem Dev.wr_vols (d : Dev) (k : Nat) (v : Word) : (d.wr k v).vols = d.vols := rfl
@[simp] theorem Dev.wr_stores (d : Dev) (k : Nat) (v : Word) : (d.wr k v).stores = d.stores := rfl
@[simp] theorem Dev.wr_media (d : Dev) (k : Nat) (v : Word) : (d.wr k v).media = d.media := rfl
@[simp] theorem Dev.wr_tasks (d : Dev) (k : Nat) (v : Word) : (d.wr k v).tasks = d.tasks := rfl
@[simp] theorem Dev.wr_logs (d : Dev) (k : Nat) (v : Word) : (d.wr k v).logs = d.logs := rfl
@[simp] theorem Dev.wr_sreads (d : Dev) (k : Nat) (v : Word) : (d.wr k v).sreads = d.sreads := rfl
@[simp] theorem Dev.wr_swrites (d : Dev) (k : Nat) (v : Word) : (d.wr k v).swrites = d.swrites := rfl
@[simp] theorem Dev.wr_scrubVol (d : Dev) (k : Nat) (v : Word) : (d.wr k v).scrubVol = d.scrubVol := rfl
@[simp] theorem Dev.wr_scrubWin (d : Dev) (k : Nat) (v : Word) : (d.wr k v).scrubWin = d.scrubWin := rfl
@[simp] theorem Dev.wr_scrubCount (d : Dev) (k : Nat) (v : Word) : (d.wr k v).scrubCount = d.scrubCount := rfl
@[simp] theorem Dev.wr_queues (d : Dev) (k : Nat) (v : Word) : (d.wr k v).queues = d.queues := rfl
@[simp] theorem Dev.wr_qcmds (d : Dev) (k : Nat) (v : Word) : (d.wr k v).qcmds = d.qcmds := rfl
@[simp] theorem Dev.wr_qidle (d : Dev) (k : Nat) (v : Word) : (d.wr k v).qidle = d.qidle := rfl
@[simp] theorem Dev.wr_engServing (d : Dev) (k : Nat) (v : Word) : (d.wr k v).engServing = d.engServing := rfl
@[simp] theorem Dev.wr_flr (d : Dev) (k : Nat) (v : Word) : (d.wr k v).flr = d.flr := rfl
@[simp] theorem Dev.wr_late (d : Dev) (k : Nat) (v : Word) : (d.wr k v).late = d.late := rfl
@[simp] theorem Dev.wr_ownerMove (d : Dev) (k : Nat) (v : Word) : (d.wr k v).ownerMove = d.ownerMove := rfl
@[simp] theorem Dev.wr_activation (d : Dev) (k : Nat) (v : Word) : (d.wr k v).activation = d.activation := rfl
@[simp] theorem Dev.wr_flashOp (d : Dev) (k : Nat) (v : Word) : (d.wr k v).flashOp = d.flashOp := rfl
@[simp] theorem Dev.wr_rollback (d : Dev) (k : Nat) (v : Word) : (d.wr k v).rollback = d.rollback := rfl
@[simp] theorem Dev.wr_windows (d : Dev) (k : Nat) (v : Word) : (d.wr k v).windows = d.windows := rfl
@[simp] theorem Dev.wr_locking (d : Dev) (k : Nat) (v : Word) : (d.wr k v).locking = d.locking := rfl
@[simp] theorem Dev.wr_lossSince (d : Dev) (k : Nat) (v : Word) : (d.wr k v).lossSince = d.lossSince := rfl
@[simp] theorem Dev.wr_domSwitch (d : Dev) (k : Nat) (v : Word) : (d.wr k v).domSwitch = d.domSwitch := rfl
@[simp] theorem Dev.wr_ocLevel (d : Dev) (k : Nat) (v : Word) : (d.wr k v).ocLevel = d.ocLevel := rfl
@[simp] theorem Dev.wr_dead (d : Dev) (k : Nat) (v : Word) : (d.wr k v).dead = d.dead := rfl
@[simp] theorem Dev.wr_resetHeld (d : Dev) (k : Nat) (v : Word) : (d.wr k v).resetHeld = d.resetHeld := rfl
@[simp] theorem Dev.wr_tripped (d : Dev) (k : Nat) (v : Word) : (d.wr k v).tripped = d.tripped := rfl
@[simp] theorem Dev.wr_tap (d : Dev) (k : Nat) (v : Word) : (d.wr k v).tap = d.tap := rfl
@[simp] theorem Dev.wr_mbus (d : Dev) (k : Nat) (v : Word) : (d.wr k v).mbus = d.mbus := rfl
@[simp] theorem Dev.wr_bootRec (d : Dev) (k : Nat) (v : Word) : (d.wr k v).bootRec = d.bootRec := rfl
@[simp] theorem Dev.wr_drpCfg (d : Dev) (k : Nat) (v : Word) : (d.wr k v).drpCfg = d.drpCfg := rfl
@[simp] theorem Dev.wr_drives (d : Dev) (k : Nat) (v : Word) : (d.wr k v).drives = d.drives := rfl
@[simp] theorem Dev.wr_console (d : Dev) (k : Nat) (v : Word) : (d.wr k v).console = d.console := rfl
@[simp] theorem Dev.wr_txUsed (d : Dev) (k : Nat) (v : Word) : (d.wr k v).txUsed = d.txUsed := rfl
@[simp] theorem Dev.wr_blkDeficit (d : Dev) (k : Nat) (v : Word) : (d.wr k v).blkDeficit = d.blkDeficit := rfl
@[simp] theorem Dev.wr_qTaken (d : Dev) (k : Nat) (v : Word) : (d.wr k v).qTaken = d.qTaken := rfl

/-! ### `Dev.setLink` -/

@[simp] theorem Dev.setLink_regs (d : Dev) (k : Nat) (l : LinkSt) : (d.setLink k l).regs = d.regs := rfl
@[simp] theorem Dev.setLink_hbm (d : Dev) (k : Nat) (l : LinkSt) : (d.setLink k l).hbm = d.hbm := rfl
@[simp] theorem Dev.setLink_ecc (d : Dev) (k : Nat) (l : LinkSt) : (d.setLink k l).ecc = d.ecc := rfl
@[simp] theorem Dev.setLink_flash (d : Dev) (k : Nat) (l : LinkSt) : (d.setLink k l).flash = d.flash := rfl
@[simp] theorem Dev.setLink_out (d : Dev) (k : Nat) (l : LinkSt) : (d.setLink k l).out = d.out := rfl
@[simp] theorem Dev.setLink_draws (d : Dev) (k : Nat) (l : LinkSt) : (d.setLink k l).draws = d.draws := rfl
@[simp] theorem Dev.setLink_nextId (d : Dev) (k : Nat) (l : LinkSt) : (d.setLink k l).nextId = d.nextId := rfl
@[simp] theorem Dev.setLink_turn (d : Dev) (k : Nat) (l : LinkSt) : (d.setLink k l).turn = d.turn := rfl
@[simp] theorem Dev.setLink_bounds (d : Dev) (k : Nat) (l : LinkSt) : (d.setLink k l).bounds = d.bounds := rfl
@[simp] theorem Dev.setLink_extended (d : Dev) (k : Nat) (l : LinkSt) : (d.setLink k l).extended = d.extended := rfl
@[simp] theorem Dev.setLink_active (d : Dev) (k : Nat) (l : LinkSt) : (d.setLink k l).active = d.active := rfl
@[simp] theorem Dev.setLink_staged (d : Dev) (k : Nat) (l : LinkSt) : (d.setLink k l).staged = d.staged := rfl
@[simp] theorem Dev.setLink_retained (d : Dev) (k : Nat) (l : LinkSt) : (d.setLink k l).retained = d.retained := rfl
@[simp] theorem Dev.setLink_stageFill (d : Dev) (k : Nat) (l : LinkSt) : (d.setLink k l).stageFill = d.stageFill := rfl
@[simp] theorem Dev.setLink_pipes (d : Dev) (k : Nat) (l : LinkSt) : (d.setLink k l).pipes = d.pipes := rfl
@[simp] theorem Dev.setLink_ports (d : Dev) (k : Nat) (l : LinkSt) : (d.setLink k l).ports = d.ports := rfl
@[simp] theorem Dev.setLink_dst (d : Dev) (k : Nat) (l : LinkSt) : (d.setLink k l).dst = d.dst := rfl
@[simp] theorem Dev.setLink_cells (d : Dev) (k : Nat) (l : LinkSt) : (d.setLink k l).cells = d.cells := rfl
@[simp] theorem Dev.setLink_priCells (d : Dev) (k : Nat) (l : LinkSt) : (d.setLink k l).priCells = d.priCells := rfl
@[simp] theorem Dev.setLink_sendWait (d : Dev) (k : Nat) (l : LinkSt) : (d.setLink k l).sendWait = d.sendWait := rfl
@[simp] theorem Dev.setLink_ft (d : Dev) (k : Nat) (l : LinkSt) : (d.setLink k l).ft = d.ft := rfl
@[simp] theorem Dev.setLink_rings (d : Dev) (k : Nat) (l : LinkSt) : (d.setLink k l).rings = d.rings := rfl
@[simp] theorem Dev.setLink_reads (d : Dev) (k : Nat) (l : LinkSt) : (d.setLink k l).reads = d.reads := rfl
@[simp] theorem Dev.setLink_msix (d : Dev) (k : Nat) (l : LinkSt) : (d.setLink k l).msix = d.msix := rfl
@[simp] theorem Dev.setLink_msixFn (d : Dev) (k : Nat) (l : LinkSt) : (d.setLink k l).msixFn = d.msixFn := rfl
@[simp] theorem Dev.setLink_links (d : Dev) (k : Nat) (l : LinkSt) : (d.setLink k l).links = d.links.set k l {} := rfl
@[simp] theorem Dev.setLink_bme (d : Dev) (k : Nat) (l : LinkSt) : (d.setLink k l).bme = d.bme := rfl
@[simp] theorem Dev.setLink_devCtl (d : Dev) (k : Nat) (l : LinkSt) : (d.setLink k l).devCtl = d.devCtl := rfl
@[simp] theorem Dev.setLink_devCtl2 (d : Dev) (k : Nat) (l : LinkSt) : (d.setLink k l).devCtl2 = d.devCtl2 := rfl
@[simp] theorem Dev.setLink_caps (d : Dev) (k : Nat) (l : LinkSt) : (d.setLink k l).caps = d.caps := rfl
@[simp] theorem Dev.setLink_vfs (d : Dev) (k : Nat) (l : LinkSt) : (d.setLink k l).vfs = d.vfs := rfl
@[simp] theorem Dev.setLink_tables (d : Dev) (k : Nat) (l : LinkSt) : (d.setLink k l).tables = d.tables := rfl
@[simp] theorem Dev.setLink_owned (d : Dev) (k : Nat) (l : LinkSt) : (d.setLink k l).owned = d.owned := rfl
@[simp] theorem Dev.setLink_scrubs (d : Dev) (k : Nat) (l : LinkSt) : (d.setLink k l).scrubs = d.scrubs := rfl
@[simp] theorem Dev.setLink_sweeps (d : Dev) (k : Nat) (l : LinkSt) : (d.setLink k l).sweeps = d.sweeps := rfl
@[simp] theorem Dev.setLink_faults (d : Dev) (k : Nat) (l : LinkSt) : (d.setLink k l).faults = d.faults := rfl
@[simp] theorem Dev.setLink_filter (d : Dev) (k : Nat) (l : LinkSt) : (d.setLink k l).filter = d.filter := rfl
@[simp] theorem Dev.setLink_lrn (d : Dev) (k : Nat) (l : LinkSt) : (d.setLink k l).lrn = d.lrn := rfl
@[simp] theorem Dev.setLink_images (d : Dev) (k : Nat) (l : LinkSt) : (d.setLink k l).images = d.images := rfl
@[simp] theorem Dev.setLink_autos (d : Dev) (k : Nat) (l : LinkSt) : (d.setLink k l).autos = d.autos := rfl
@[simp] theorem Dev.setLink_ind (d : Dev) (k : Nat) (l : LinkSt) : (d.setLink k l).ind = d.ind := rfl
@[simp] theorem Dev.setLink_coresFenced (d : Dev) (k : Nat) (l : LinkSt) : (d.setLink k l).coresFenced = d.coresFenced := rfl
@[simp] theorem Dev.setLink_handing (d : Dev) (k : Nat) (l : LinkSt) : (d.setLink k l).handing = d.handing := rfl
@[simp] theorem Dev.setLink_pair (d : Dev) (k : Nat) (l : LinkSt) : (d.setLink k l).pair = d.pair := rfl
@[simp] theorem Dev.setLink_localOnly (d : Dev) (k : Nat) (l : LinkSt) : (d.setLink k l).localOnly = d.localOnly := rfl
@[simp] theorem Dev.setLink_lanes (d : Dev) (k : Nat) (l : LinkSt) : (d.setLink k l).lanes = d.lanes := rfl
@[simp] theorem Dev.setLink_entReqs (d : Dev) (k : Nat) (l : LinkSt) : (d.setLink k l).entReqs = d.entReqs := rfl
@[simp] theorem Dev.setLink_entSeeds (d : Dev) (k : Nat) (l : LinkSt) : (d.setLink k l).entSeeds = d.entSeeds := rfl
@[simp] theorem Dev.setLink_keys (d : Dev) (k : Nat) (l : LinkSt) : (d.setLink k l).keys = d.keys := rfl
@[simp] theorem Dev.setLink_keks (d : Dev) (k : Nat) (l : LinkSt) : (d.setLink k l).keks = d.keks := rfl
@[simp] theorem Dev.setLink_keyHolds (d : Dev) (k : Nat) (l : LinkSt) : (d.setLink k l).keyHolds = d.keyHolds := rfl
@[simp] theorem Dev.setLink_wrapKey (d : Dev) (k : Nat) (l : LinkSt) : (d.setLink k l).wrapKey = d.wrapKey := rfl
@[simp] theorem Dev.setLink_keyBusy (d : Dev) (k : Nat) (l : LinkSt) : (d.setLink k l).keyBusy = d.keyBusy := rfl
@[simp] theorem Dev.setLink_keyPend (d : Dev) (k : Nat) (l : LinkSt) : (d.setLink k l).keyPend = d.keyPend := rfl
@[simp] theorem Dev.setLink_keyLoadAt (d : Dev) (k : Nat) (l : LinkSt) : (d.setLink k l).keyLoadAt = d.keyLoadAt := rfl
@[simp] theorem Dev.setLink_saHigh (d : Dev) (k : Nat) (l : LinkSt) : (d.setLink k l).saHigh = d.saHigh := rfl
@[simp] theorem Dev.setLink_saHighReq (d : Dev) (k : Nat) (l : LinkSt) : (d.setLink k l).saHighReq = d.saHighReq := rfl
@[simp] theorem Dev.setLink_saLimit (d : Dev) (k : Nat) (l : LinkSt) : (d.setLink k l).saLimit = d.saLimit := rfl
@[simp] theorem Dev.setLink_saDone (d : Dev) (k : Nat) (l : LinkSt) : (d.setLink k l).saDone = d.saDone := rfl
@[simp] theorem Dev.setLink_saTaken (d : Dev) (k : Nat) (l : LinkSt) : (d.setLink k l).saTaken = d.saTaken := rfl
@[simp] theorem Dev.setLink_vols (d : Dev) (k : Nat) (l : LinkSt) : (d.setLink k l).vols = d.vols := rfl
@[simp] theorem Dev.setLink_stores (d : Dev) (k : Nat) (l : LinkSt) : (d.setLink k l).stores = d.stores := rfl
@[simp] theorem Dev.setLink_media (d : Dev) (k : Nat) (l : LinkSt) : (d.setLink k l).media = d.media := rfl
@[simp] theorem Dev.setLink_tasks (d : Dev) (k : Nat) (l : LinkSt) : (d.setLink k l).tasks = d.tasks := rfl
@[simp] theorem Dev.setLink_logs (d : Dev) (k : Nat) (l : LinkSt) : (d.setLink k l).logs = d.logs := rfl
@[simp] theorem Dev.setLink_sreads (d : Dev) (k : Nat) (l : LinkSt) : (d.setLink k l).sreads = d.sreads := rfl
@[simp] theorem Dev.setLink_swrites (d : Dev) (k : Nat) (l : LinkSt) : (d.setLink k l).swrites = d.swrites := rfl
@[simp] theorem Dev.setLink_scrubVol (d : Dev) (k : Nat) (l : LinkSt) : (d.setLink k l).scrubVol = d.scrubVol := rfl
@[simp] theorem Dev.setLink_scrubWin (d : Dev) (k : Nat) (l : LinkSt) : (d.setLink k l).scrubWin = d.scrubWin := rfl
@[simp] theorem Dev.setLink_scrubCount (d : Dev) (k : Nat) (l : LinkSt) : (d.setLink k l).scrubCount = d.scrubCount := rfl
@[simp] theorem Dev.setLink_queues (d : Dev) (k : Nat) (l : LinkSt) : (d.setLink k l).queues = d.queues := rfl
@[simp] theorem Dev.setLink_qcmds (d : Dev) (k : Nat) (l : LinkSt) : (d.setLink k l).qcmds = d.qcmds := rfl
@[simp] theorem Dev.setLink_qidle (d : Dev) (k : Nat) (l : LinkSt) : (d.setLink k l).qidle = d.qidle := rfl
@[simp] theorem Dev.setLink_engServing (d : Dev) (k : Nat) (l : LinkSt) : (d.setLink k l).engServing = d.engServing := rfl
@[simp] theorem Dev.setLink_flr (d : Dev) (k : Nat) (l : LinkSt) : (d.setLink k l).flr = d.flr := rfl
@[simp] theorem Dev.setLink_late (d : Dev) (k : Nat) (l : LinkSt) : (d.setLink k l).late = d.late := rfl
@[simp] theorem Dev.setLink_ownerMove (d : Dev) (k : Nat) (l : LinkSt) : (d.setLink k l).ownerMove = d.ownerMove := rfl
@[simp] theorem Dev.setLink_activation (d : Dev) (k : Nat) (l : LinkSt) : (d.setLink k l).activation = d.activation := rfl
@[simp] theorem Dev.setLink_flashOp (d : Dev) (k : Nat) (l : LinkSt) : (d.setLink k l).flashOp = d.flashOp := rfl
@[simp] theorem Dev.setLink_rollback (d : Dev) (k : Nat) (l : LinkSt) : (d.setLink k l).rollback = d.rollback := rfl
@[simp] theorem Dev.setLink_windows (d : Dev) (k : Nat) (l : LinkSt) : (d.setLink k l).windows = d.windows := rfl
@[simp] theorem Dev.setLink_locking (d : Dev) (k : Nat) (l : LinkSt) : (d.setLink k l).locking = d.locking := rfl
@[simp] theorem Dev.setLink_lossSince (d : Dev) (k : Nat) (l : LinkSt) : (d.setLink k l).lossSince = d.lossSince := rfl
@[simp] theorem Dev.setLink_domSwitch (d : Dev) (k : Nat) (l : LinkSt) : (d.setLink k l).domSwitch = d.domSwitch := rfl
@[simp] theorem Dev.setLink_ocLevel (d : Dev) (k : Nat) (l : LinkSt) : (d.setLink k l).ocLevel = d.ocLevel := rfl
@[simp] theorem Dev.setLink_dead (d : Dev) (k : Nat) (l : LinkSt) : (d.setLink k l).dead = d.dead := rfl
@[simp] theorem Dev.setLink_resetHeld (d : Dev) (k : Nat) (l : LinkSt) : (d.setLink k l).resetHeld = d.resetHeld := rfl
@[simp] theorem Dev.setLink_tripped (d : Dev) (k : Nat) (l : LinkSt) : (d.setLink k l).tripped = d.tripped := rfl
@[simp] theorem Dev.setLink_tap (d : Dev) (k : Nat) (l : LinkSt) : (d.setLink k l).tap = d.tap := rfl
@[simp] theorem Dev.setLink_mbus (d : Dev) (k : Nat) (l : LinkSt) : (d.setLink k l).mbus = d.mbus := rfl
@[simp] theorem Dev.setLink_bootRec (d : Dev) (k : Nat) (l : LinkSt) : (d.setLink k l).bootRec = d.bootRec := rfl
@[simp] theorem Dev.setLink_drpCfg (d : Dev) (k : Nat) (l : LinkSt) : (d.setLink k l).drpCfg = d.drpCfg := rfl
@[simp] theorem Dev.setLink_drives (d : Dev) (k : Nat) (l : LinkSt) : (d.setLink k l).drives = d.drives := rfl
@[simp] theorem Dev.setLink_console (d : Dev) (k : Nat) (l : LinkSt) : (d.setLink k l).console = d.console := rfl
@[simp] theorem Dev.setLink_txUsed (d : Dev) (k : Nat) (l : LinkSt) : (d.setLink k l).txUsed = d.txUsed := rfl
@[simp] theorem Dev.setLink_blkDeficit (d : Dev) (k : Nat) (l : LinkSt) : (d.setLink k l).blkDeficit = d.blkDeficit := rfl
@[simp] theorem Dev.setLink_qTaken (d : Dev) (k : Nat) (l : LinkSt) : (d.setLink k l).qTaken = d.qTaken := rfl

/-! ### `Dev.setVf` -/

@[simp] theorem Dev.setVf_regs (d : Dev) (f : Func) (v : VfSt) : (d.setVf f v).regs = d.regs := rfl
@[simp] theorem Dev.setVf_hbm (d : Dev) (f : Func) (v : VfSt) : (d.setVf f v).hbm = d.hbm := rfl
@[simp] theorem Dev.setVf_ecc (d : Dev) (f : Func) (v : VfSt) : (d.setVf f v).ecc = d.ecc := rfl
@[simp] theorem Dev.setVf_flash (d : Dev) (f : Func) (v : VfSt) : (d.setVf f v).flash = d.flash := rfl
@[simp] theorem Dev.setVf_out (d : Dev) (f : Func) (v : VfSt) : (d.setVf f v).out = d.out := rfl
@[simp] theorem Dev.setVf_draws (d : Dev) (f : Func) (v : VfSt) : (d.setVf f v).draws = d.draws := rfl
@[simp] theorem Dev.setVf_nextId (d : Dev) (f : Func) (v : VfSt) : (d.setVf f v).nextId = d.nextId := rfl
@[simp] theorem Dev.setVf_turn (d : Dev) (f : Func) (v : VfSt) : (d.setVf f v).turn = d.turn := rfl
@[simp] theorem Dev.setVf_bounds (d : Dev) (f : Func) (v : VfSt) : (d.setVf f v).bounds = d.bounds := rfl
@[simp] theorem Dev.setVf_extended (d : Dev) (f : Func) (v : VfSt) : (d.setVf f v).extended = d.extended := rfl
@[simp] theorem Dev.setVf_active (d : Dev) (f : Func) (v : VfSt) : (d.setVf f v).active = d.active := rfl
@[simp] theorem Dev.setVf_staged (d : Dev) (f : Func) (v : VfSt) : (d.setVf f v).staged = d.staged := rfl
@[simp] theorem Dev.setVf_retained (d : Dev) (f : Func) (v : VfSt) : (d.setVf f v).retained = d.retained := rfl
@[simp] theorem Dev.setVf_stageFill (d : Dev) (f : Func) (v : VfSt) : (d.setVf f v).stageFill = d.stageFill := rfl
@[simp] theorem Dev.setVf_pipes (d : Dev) (f : Func) (v : VfSt) : (d.setVf f v).pipes = d.pipes := rfl
@[simp] theorem Dev.setVf_ports (d : Dev) (f : Func) (v : VfSt) : (d.setVf f v).ports = d.ports := rfl
@[simp] theorem Dev.setVf_dst (d : Dev) (f : Func) (v : VfSt) : (d.setVf f v).dst = d.dst := rfl
@[simp] theorem Dev.setVf_cells (d : Dev) (f : Func) (v : VfSt) : (d.setVf f v).cells = d.cells := rfl
@[simp] theorem Dev.setVf_priCells (d : Dev) (f : Func) (v : VfSt) : (d.setVf f v).priCells = d.priCells := rfl
@[simp] theorem Dev.setVf_sendWait (d : Dev) (f : Func) (v : VfSt) : (d.setVf f v).sendWait = d.sendWait := rfl
@[simp] theorem Dev.setVf_ft (d : Dev) (f : Func) (v : VfSt) : (d.setVf f v).ft = d.ft := rfl
@[simp] theorem Dev.setVf_rings (d : Dev) (f : Func) (v : VfSt) : (d.setVf f v).rings = d.rings := rfl
@[simp] theorem Dev.setVf_reads (d : Dev) (f : Func) (v : VfSt) : (d.setVf f v).reads = d.reads := rfl
@[simp] theorem Dev.setVf_msix (d : Dev) (f : Func) (v : VfSt) : (d.setVf f v).msix = d.msix := rfl
@[simp] theorem Dev.setVf_msixFn (d : Dev) (f : Func) (v : VfSt) : (d.setVf f v).msixFn = d.msixFn := rfl
@[simp] theorem Dev.setVf_links (d : Dev) (f : Func) (v : VfSt) : (d.setVf f v).links = d.links := rfl
@[simp] theorem Dev.setVf_bme (d : Dev) (f : Func) (v : VfSt) : (d.setVf f v).bme = d.bme := rfl
@[simp] theorem Dev.setVf_devCtl (d : Dev) (f : Func) (v : VfSt) : (d.setVf f v).devCtl = d.devCtl := rfl
@[simp] theorem Dev.setVf_devCtl2 (d : Dev) (f : Func) (v : VfSt) : (d.setVf f v).devCtl2 = d.devCtl2 := rfl
@[simp] theorem Dev.setVf_caps (d : Dev) (f : Func) (v : VfSt) : (d.setVf f v).caps = d.caps := rfl
@[simp] theorem Dev.setVf_vfs (d : Dev) (f : Func) (v : VfSt) : (d.setVf f v).vfs = d.vfs.set (fkey f) v {} := rfl
@[simp] theorem Dev.setVf_tables (d : Dev) (f : Func) (v : VfSt) : (d.setVf f v).tables = d.tables := rfl
@[simp] theorem Dev.setVf_owned (d : Dev) (f : Func) (v : VfSt) : (d.setVf f v).owned = d.owned := rfl
@[simp] theorem Dev.setVf_scrubs (d : Dev) (f : Func) (v : VfSt) : (d.setVf f v).scrubs = d.scrubs := rfl
@[simp] theorem Dev.setVf_sweeps (d : Dev) (f : Func) (v : VfSt) : (d.setVf f v).sweeps = d.sweeps := rfl
@[simp] theorem Dev.setVf_faults (d : Dev) (f : Func) (v : VfSt) : (d.setVf f v).faults = d.faults := rfl
@[simp] theorem Dev.setVf_filter (d : Dev) (f : Func) (v : VfSt) : (d.setVf f v).filter = d.filter := rfl
@[simp] theorem Dev.setVf_lrn (d : Dev) (f : Func) (v : VfSt) : (d.setVf f v).lrn = d.lrn := rfl
@[simp] theorem Dev.setVf_images (d : Dev) (f : Func) (v : VfSt) : (d.setVf f v).images = d.images := rfl
@[simp] theorem Dev.setVf_autos (d : Dev) (f : Func) (v : VfSt) : (d.setVf f v).autos = d.autos := rfl
@[simp] theorem Dev.setVf_ind (d : Dev) (f : Func) (v : VfSt) : (d.setVf f v).ind = d.ind := rfl
@[simp] theorem Dev.setVf_coresFenced (d : Dev) (f : Func) (v : VfSt) : (d.setVf f v).coresFenced = d.coresFenced := rfl
@[simp] theorem Dev.setVf_handing (d : Dev) (f : Func) (v : VfSt) : (d.setVf f v).handing = d.handing := rfl
@[simp] theorem Dev.setVf_pair (d : Dev) (f : Func) (v : VfSt) : (d.setVf f v).pair = d.pair := rfl
@[simp] theorem Dev.setVf_localOnly (d : Dev) (f : Func) (v : VfSt) : (d.setVf f v).localOnly = d.localOnly := rfl
@[simp] theorem Dev.setVf_lanes (d : Dev) (f : Func) (v : VfSt) : (d.setVf f v).lanes = d.lanes := rfl
@[simp] theorem Dev.setVf_entReqs (d : Dev) (f : Func) (v : VfSt) : (d.setVf f v).entReqs = d.entReqs := rfl
@[simp] theorem Dev.setVf_entSeeds (d : Dev) (f : Func) (v : VfSt) : (d.setVf f v).entSeeds = d.entSeeds := rfl
@[simp] theorem Dev.setVf_keys (d : Dev) (f : Func) (v : VfSt) : (d.setVf f v).keys = d.keys := rfl
@[simp] theorem Dev.setVf_keks (d : Dev) (f : Func) (v : VfSt) : (d.setVf f v).keks = d.keks := rfl
@[simp] theorem Dev.setVf_keyHolds (d : Dev) (f : Func) (v : VfSt) : (d.setVf f v).keyHolds = d.keyHolds := rfl
@[simp] theorem Dev.setVf_wrapKey (d : Dev) (f : Func) (v : VfSt) : (d.setVf f v).wrapKey = d.wrapKey := rfl
@[simp] theorem Dev.setVf_keyBusy (d : Dev) (f : Func) (v : VfSt) : (d.setVf f v).keyBusy = d.keyBusy := rfl
@[simp] theorem Dev.setVf_keyPend (d : Dev) (f : Func) (v : VfSt) : (d.setVf f v).keyPend = d.keyPend := rfl
@[simp] theorem Dev.setVf_keyLoadAt (d : Dev) (f : Func) (v : VfSt) : (d.setVf f v).keyLoadAt = d.keyLoadAt := rfl
@[simp] theorem Dev.setVf_saHigh (d : Dev) (f : Func) (v : VfSt) : (d.setVf f v).saHigh = d.saHigh := rfl
@[simp] theorem Dev.setVf_saHighReq (d : Dev) (f : Func) (v : VfSt) : (d.setVf f v).saHighReq = d.saHighReq := rfl
@[simp] theorem Dev.setVf_saLimit (d : Dev) (f : Func) (v : VfSt) : (d.setVf f v).saLimit = d.saLimit := rfl
@[simp] theorem Dev.setVf_saDone (d : Dev) (f : Func) (v : VfSt) : (d.setVf f v).saDone = d.saDone := rfl
@[simp] theorem Dev.setVf_saTaken (d : Dev) (f : Func) (v : VfSt) : (d.setVf f v).saTaken = d.saTaken := rfl
@[simp] theorem Dev.setVf_vols (d : Dev) (f : Func) (v : VfSt) : (d.setVf f v).vols = d.vols := rfl
@[simp] theorem Dev.setVf_stores (d : Dev) (f : Func) (v : VfSt) : (d.setVf f v).stores = d.stores := rfl
@[simp] theorem Dev.setVf_media (d : Dev) (f : Func) (v : VfSt) : (d.setVf f v).media = d.media := rfl
@[simp] theorem Dev.setVf_tasks (d : Dev) (f : Func) (v : VfSt) : (d.setVf f v).tasks = d.tasks := rfl
@[simp] theorem Dev.setVf_logs (d : Dev) (f : Func) (v : VfSt) : (d.setVf f v).logs = d.logs := rfl
@[simp] theorem Dev.setVf_sreads (d : Dev) (f : Func) (v : VfSt) : (d.setVf f v).sreads = d.sreads := rfl
@[simp] theorem Dev.setVf_swrites (d : Dev) (f : Func) (v : VfSt) : (d.setVf f v).swrites = d.swrites := rfl
@[simp] theorem Dev.setVf_scrubVol (d : Dev) (f : Func) (v : VfSt) : (d.setVf f v).scrubVol = d.scrubVol := rfl
@[simp] theorem Dev.setVf_scrubWin (d : Dev) (f : Func) (v : VfSt) : (d.setVf f v).scrubWin = d.scrubWin := rfl
@[simp] theorem Dev.setVf_scrubCount (d : Dev) (f : Func) (v : VfSt) : (d.setVf f v).scrubCount = d.scrubCount := rfl
@[simp] theorem Dev.setVf_queues (d : Dev) (f : Func) (v : VfSt) : (d.setVf f v).queues = d.queues := rfl
@[simp] theorem Dev.setVf_qcmds (d : Dev) (f : Func) (v : VfSt) : (d.setVf f v).qcmds = d.qcmds := rfl
@[simp] theorem Dev.setVf_qidle (d : Dev) (f : Func) (v : VfSt) : (d.setVf f v).qidle = d.qidle := rfl
@[simp] theorem Dev.setVf_engServing (d : Dev) (f : Func) (v : VfSt) : (d.setVf f v).engServing = d.engServing := rfl
@[simp] theorem Dev.setVf_flr (d : Dev) (f : Func) (v : VfSt) : (d.setVf f v).flr = d.flr := rfl
@[simp] theorem Dev.setVf_late (d : Dev) (f : Func) (v : VfSt) : (d.setVf f v).late = d.late := rfl
@[simp] theorem Dev.setVf_ownerMove (d : Dev) (f : Func) (v : VfSt) : (d.setVf f v).ownerMove = d.ownerMove := rfl
@[simp] theorem Dev.setVf_activation (d : Dev) (f : Func) (v : VfSt) : (d.setVf f v).activation = d.activation := rfl
@[simp] theorem Dev.setVf_flashOp (d : Dev) (f : Func) (v : VfSt) : (d.setVf f v).flashOp = d.flashOp := rfl
@[simp] theorem Dev.setVf_rollback (d : Dev) (f : Func) (v : VfSt) : (d.setVf f v).rollback = d.rollback := rfl
@[simp] theorem Dev.setVf_windows (d : Dev) (f : Func) (v : VfSt) : (d.setVf f v).windows = d.windows := rfl
@[simp] theorem Dev.setVf_locking (d : Dev) (f : Func) (v : VfSt) : (d.setVf f v).locking = d.locking := rfl
@[simp] theorem Dev.setVf_lossSince (d : Dev) (f : Func) (v : VfSt) : (d.setVf f v).lossSince = d.lossSince := rfl
@[simp] theorem Dev.setVf_domSwitch (d : Dev) (f : Func) (v : VfSt) : (d.setVf f v).domSwitch = d.domSwitch := rfl
@[simp] theorem Dev.setVf_ocLevel (d : Dev) (f : Func) (v : VfSt) : (d.setVf f v).ocLevel = d.ocLevel := rfl
@[simp] theorem Dev.setVf_dead (d : Dev) (f : Func) (v : VfSt) : (d.setVf f v).dead = d.dead := rfl
@[simp] theorem Dev.setVf_resetHeld (d : Dev) (f : Func) (v : VfSt) : (d.setVf f v).resetHeld = d.resetHeld := rfl
@[simp] theorem Dev.setVf_tripped (d : Dev) (f : Func) (v : VfSt) : (d.setVf f v).tripped = d.tripped := rfl
@[simp] theorem Dev.setVf_tap (d : Dev) (f : Func) (v : VfSt) : (d.setVf f v).tap = d.tap := rfl
@[simp] theorem Dev.setVf_mbus (d : Dev) (f : Func) (v : VfSt) : (d.setVf f v).mbus = d.mbus := rfl
@[simp] theorem Dev.setVf_bootRec (d : Dev) (f : Func) (v : VfSt) : (d.setVf f v).bootRec = d.bootRec := rfl
@[simp] theorem Dev.setVf_drpCfg (d : Dev) (f : Func) (v : VfSt) : (d.setVf f v).drpCfg = d.drpCfg := rfl
@[simp] theorem Dev.setVf_drives (d : Dev) (f : Func) (v : VfSt) : (d.setVf f v).drives = d.drives := rfl
@[simp] theorem Dev.setVf_console (d : Dev) (f : Func) (v : VfSt) : (d.setVf f v).console = d.console := rfl
@[simp] theorem Dev.setVf_txUsed (d : Dev) (f : Func) (v : VfSt) : (d.setVf f v).txUsed = d.txUsed := rfl
@[simp] theorem Dev.setVf_blkDeficit (d : Dev) (f : Func) (v : VfSt) : (d.setVf f v).blkDeficit = d.blkDeficit := rfl
@[simp] theorem Dev.setVf_qTaken (d : Dev) (f : Func) (v : VfSt) : (d.setVf f v).qTaken = d.qTaken := rfl

/-! ### `Dev.setRing` -/

@[simp] theorem Dev.setRing_regs (d : Dev) (r : Nat) (s : RingSt) : (d.setRing r s).regs = d.regs := rfl
@[simp] theorem Dev.setRing_hbm (d : Dev) (r : Nat) (s : RingSt) : (d.setRing r s).hbm = d.hbm := rfl
@[simp] theorem Dev.setRing_ecc (d : Dev) (r : Nat) (s : RingSt) : (d.setRing r s).ecc = d.ecc := rfl
@[simp] theorem Dev.setRing_flash (d : Dev) (r : Nat) (s : RingSt) : (d.setRing r s).flash = d.flash := rfl
@[simp] theorem Dev.setRing_out (d : Dev) (r : Nat) (s : RingSt) : (d.setRing r s).out = d.out := rfl
@[simp] theorem Dev.setRing_draws (d : Dev) (r : Nat) (s : RingSt) : (d.setRing r s).draws = d.draws := rfl
@[simp] theorem Dev.setRing_nextId (d : Dev) (r : Nat) (s : RingSt) : (d.setRing r s).nextId = d.nextId := rfl
@[simp] theorem Dev.setRing_turn (d : Dev) (r : Nat) (s : RingSt) : (d.setRing r s).turn = d.turn := rfl
@[simp] theorem Dev.setRing_bounds (d : Dev) (r : Nat) (s : RingSt) : (d.setRing r s).bounds = d.bounds := rfl
@[simp] theorem Dev.setRing_extended (d : Dev) (r : Nat) (s : RingSt) : (d.setRing r s).extended = d.extended := rfl
@[simp] theorem Dev.setRing_active (d : Dev) (r : Nat) (s : RingSt) : (d.setRing r s).active = d.active := rfl
@[simp] theorem Dev.setRing_staged (d : Dev) (r : Nat) (s : RingSt) : (d.setRing r s).staged = d.staged := rfl
@[simp] theorem Dev.setRing_retained (d : Dev) (r : Nat) (s : RingSt) : (d.setRing r s).retained = d.retained := rfl
@[simp] theorem Dev.setRing_stageFill (d : Dev) (r : Nat) (s : RingSt) : (d.setRing r s).stageFill = d.stageFill := rfl
@[simp] theorem Dev.setRing_pipes (d : Dev) (r : Nat) (s : RingSt) : (d.setRing r s).pipes = d.pipes := rfl
@[simp] theorem Dev.setRing_ports (d : Dev) (r : Nat) (s : RingSt) : (d.setRing r s).ports = d.ports := rfl
@[simp] theorem Dev.setRing_dst (d : Dev) (r : Nat) (s : RingSt) : (d.setRing r s).dst = d.dst := rfl
@[simp] theorem Dev.setRing_cells (d : Dev) (r : Nat) (s : RingSt) : (d.setRing r s).cells = d.cells := rfl
@[simp] theorem Dev.setRing_priCells (d : Dev) (r : Nat) (s : RingSt) : (d.setRing r s).priCells = d.priCells := rfl
@[simp] theorem Dev.setRing_sendWait (d : Dev) (r : Nat) (s : RingSt) : (d.setRing r s).sendWait = d.sendWait := rfl
@[simp] theorem Dev.setRing_ft (d : Dev) (r : Nat) (s : RingSt) : (d.setRing r s).ft = d.ft := rfl
@[simp] theorem Dev.setRing_rings (d : Dev) (r : Nat) (s : RingSt) : (d.setRing r s).rings = d.rings.set r s {} := rfl
@[simp] theorem Dev.setRing_reads (d : Dev) (r : Nat) (s : RingSt) : (d.setRing r s).reads = d.reads := rfl
@[simp] theorem Dev.setRing_msix (d : Dev) (r : Nat) (s : RingSt) : (d.setRing r s).msix = d.msix := rfl
@[simp] theorem Dev.setRing_msixFn (d : Dev) (r : Nat) (s : RingSt) : (d.setRing r s).msixFn = d.msixFn := rfl
@[simp] theorem Dev.setRing_links (d : Dev) (r : Nat) (s : RingSt) : (d.setRing r s).links = d.links := rfl
@[simp] theorem Dev.setRing_bme (d : Dev) (r : Nat) (s : RingSt) : (d.setRing r s).bme = d.bme := rfl
@[simp] theorem Dev.setRing_devCtl (d : Dev) (r : Nat) (s : RingSt) : (d.setRing r s).devCtl = d.devCtl := rfl
@[simp] theorem Dev.setRing_devCtl2 (d : Dev) (r : Nat) (s : RingSt) : (d.setRing r s).devCtl2 = d.devCtl2 := rfl
@[simp] theorem Dev.setRing_caps (d : Dev) (r : Nat) (s : RingSt) : (d.setRing r s).caps = d.caps := rfl
@[simp] theorem Dev.setRing_vfs (d : Dev) (r : Nat) (s : RingSt) : (d.setRing r s).vfs = d.vfs := rfl
@[simp] theorem Dev.setRing_tables (d : Dev) (r : Nat) (s : RingSt) : (d.setRing r s).tables = d.tables := rfl
@[simp] theorem Dev.setRing_owned (d : Dev) (r : Nat) (s : RingSt) : (d.setRing r s).owned = d.owned := rfl
@[simp] theorem Dev.setRing_scrubs (d : Dev) (r : Nat) (s : RingSt) : (d.setRing r s).scrubs = d.scrubs := rfl
@[simp] theorem Dev.setRing_sweeps (d : Dev) (r : Nat) (s : RingSt) : (d.setRing r s).sweeps = d.sweeps := rfl
@[simp] theorem Dev.setRing_faults (d : Dev) (r : Nat) (s : RingSt) : (d.setRing r s).faults = d.faults := rfl
@[simp] theorem Dev.setRing_filter (d : Dev) (r : Nat) (s : RingSt) : (d.setRing r s).filter = d.filter := rfl
@[simp] theorem Dev.setRing_lrn (d : Dev) (r : Nat) (s : RingSt) : (d.setRing r s).lrn = d.lrn := rfl
@[simp] theorem Dev.setRing_images (d : Dev) (r : Nat) (s : RingSt) : (d.setRing r s).images = d.images := rfl
@[simp] theorem Dev.setRing_autos (d : Dev) (r : Nat) (s : RingSt) : (d.setRing r s).autos = d.autos := rfl
@[simp] theorem Dev.setRing_ind (d : Dev) (r : Nat) (s : RingSt) : (d.setRing r s).ind = d.ind := rfl
@[simp] theorem Dev.setRing_coresFenced (d : Dev) (r : Nat) (s : RingSt) : (d.setRing r s).coresFenced = d.coresFenced := rfl
@[simp] theorem Dev.setRing_handing (d : Dev) (r : Nat) (s : RingSt) : (d.setRing r s).handing = d.handing := rfl
@[simp] theorem Dev.setRing_pair (d : Dev) (r : Nat) (s : RingSt) : (d.setRing r s).pair = d.pair := rfl
@[simp] theorem Dev.setRing_localOnly (d : Dev) (r : Nat) (s : RingSt) : (d.setRing r s).localOnly = d.localOnly := rfl
@[simp] theorem Dev.setRing_lanes (d : Dev) (r : Nat) (s : RingSt) : (d.setRing r s).lanes = d.lanes := rfl
@[simp] theorem Dev.setRing_entReqs (d : Dev) (r : Nat) (s : RingSt) : (d.setRing r s).entReqs = d.entReqs := rfl
@[simp] theorem Dev.setRing_entSeeds (d : Dev) (r : Nat) (s : RingSt) : (d.setRing r s).entSeeds = d.entSeeds := rfl
@[simp] theorem Dev.setRing_keys (d : Dev) (r : Nat) (s : RingSt) : (d.setRing r s).keys = d.keys := rfl
@[simp] theorem Dev.setRing_keks (d : Dev) (r : Nat) (s : RingSt) : (d.setRing r s).keks = d.keks := rfl
@[simp] theorem Dev.setRing_keyHolds (d : Dev) (r : Nat) (s : RingSt) : (d.setRing r s).keyHolds = d.keyHolds := rfl
@[simp] theorem Dev.setRing_wrapKey (d : Dev) (r : Nat) (s : RingSt) : (d.setRing r s).wrapKey = d.wrapKey := rfl
@[simp] theorem Dev.setRing_keyBusy (d : Dev) (r : Nat) (s : RingSt) : (d.setRing r s).keyBusy = d.keyBusy := rfl
@[simp] theorem Dev.setRing_keyPend (d : Dev) (r : Nat) (s : RingSt) : (d.setRing r s).keyPend = d.keyPend := rfl
@[simp] theorem Dev.setRing_keyLoadAt (d : Dev) (r : Nat) (s : RingSt) : (d.setRing r s).keyLoadAt = d.keyLoadAt := rfl
@[simp] theorem Dev.setRing_saHigh (d : Dev) (r : Nat) (s : RingSt) : (d.setRing r s).saHigh = d.saHigh := rfl
@[simp] theorem Dev.setRing_saHighReq (d : Dev) (r : Nat) (s : RingSt) : (d.setRing r s).saHighReq = d.saHighReq := rfl
@[simp] theorem Dev.setRing_saLimit (d : Dev) (r : Nat) (s : RingSt) : (d.setRing r s).saLimit = d.saLimit := rfl
@[simp] theorem Dev.setRing_saDone (d : Dev) (r : Nat) (s : RingSt) : (d.setRing r s).saDone = d.saDone := rfl
@[simp] theorem Dev.setRing_saTaken (d : Dev) (r : Nat) (s : RingSt) : (d.setRing r s).saTaken = d.saTaken := rfl
@[simp] theorem Dev.setRing_vols (d : Dev) (r : Nat) (s : RingSt) : (d.setRing r s).vols = d.vols := rfl
@[simp] theorem Dev.setRing_stores (d : Dev) (r : Nat) (s : RingSt) : (d.setRing r s).stores = d.stores := rfl
@[simp] theorem Dev.setRing_media (d : Dev) (r : Nat) (s : RingSt) : (d.setRing r s).media = d.media := rfl
@[simp] theorem Dev.setRing_tasks (d : Dev) (r : Nat) (s : RingSt) : (d.setRing r s).tasks = d.tasks := rfl
@[simp] theorem Dev.setRing_logs (d : Dev) (r : Nat) (s : RingSt) : (d.setRing r s).logs = d.logs := rfl
@[simp] theorem Dev.setRing_sreads (d : Dev) (r : Nat) (s : RingSt) : (d.setRing r s).sreads = d.sreads := rfl
@[simp] theorem Dev.setRing_swrites (d : Dev) (r : Nat) (s : RingSt) : (d.setRing r s).swrites = d.swrites := rfl
@[simp] theorem Dev.setRing_scrubVol (d : Dev) (r : Nat) (s : RingSt) : (d.setRing r s).scrubVol = d.scrubVol := rfl
@[simp] theorem Dev.setRing_scrubWin (d : Dev) (r : Nat) (s : RingSt) : (d.setRing r s).scrubWin = d.scrubWin := rfl
@[simp] theorem Dev.setRing_scrubCount (d : Dev) (r : Nat) (s : RingSt) : (d.setRing r s).scrubCount = d.scrubCount := rfl
@[simp] theorem Dev.setRing_queues (d : Dev) (r : Nat) (s : RingSt) : (d.setRing r s).queues = d.queues := rfl
@[simp] theorem Dev.setRing_qcmds (d : Dev) (r : Nat) (s : RingSt) : (d.setRing r s).qcmds = d.qcmds := rfl
@[simp] theorem Dev.setRing_qidle (d : Dev) (r : Nat) (s : RingSt) : (d.setRing r s).qidle = d.qidle := rfl
@[simp] theorem Dev.setRing_engServing (d : Dev) (r : Nat) (s : RingSt) : (d.setRing r s).engServing = d.engServing := rfl
@[simp] theorem Dev.setRing_flr (d : Dev) (r : Nat) (s : RingSt) : (d.setRing r s).flr = d.flr := rfl
@[simp] theorem Dev.setRing_late (d : Dev) (r : Nat) (s : RingSt) : (d.setRing r s).late = d.late := rfl
@[simp] theorem Dev.setRing_ownerMove (d : Dev) (r : Nat) (s : RingSt) : (d.setRing r s).ownerMove = d.ownerMove := rfl
@[simp] theorem Dev.setRing_activation (d : Dev) (r : Nat) (s : RingSt) : (d.setRing r s).activation = d.activation := rfl
@[simp] theorem Dev.setRing_flashOp (d : Dev) (r : Nat) (s : RingSt) : (d.setRing r s).flashOp = d.flashOp := rfl
@[simp] theorem Dev.setRing_rollback (d : Dev) (r : Nat) (s : RingSt) : (d.setRing r s).rollback = d.rollback := rfl
@[simp] theorem Dev.setRing_windows (d : Dev) (r : Nat) (s : RingSt) : (d.setRing r s).windows = d.windows := rfl
@[simp] theorem Dev.setRing_locking (d : Dev) (r : Nat) (s : RingSt) : (d.setRing r s).locking = d.locking := rfl
@[simp] theorem Dev.setRing_lossSince (d : Dev) (r : Nat) (s : RingSt) : (d.setRing r s).lossSince = d.lossSince := rfl
@[simp] theorem Dev.setRing_domSwitch (d : Dev) (r : Nat) (s : RingSt) : (d.setRing r s).domSwitch = d.domSwitch := rfl
@[simp] theorem Dev.setRing_ocLevel (d : Dev) (r : Nat) (s : RingSt) : (d.setRing r s).ocLevel = d.ocLevel := rfl
@[simp] theorem Dev.setRing_dead (d : Dev) (r : Nat) (s : RingSt) : (d.setRing r s).dead = d.dead := rfl
@[simp] theorem Dev.setRing_resetHeld (d : Dev) (r : Nat) (s : RingSt) : (d.setRing r s).resetHeld = d.resetHeld := rfl
@[simp] theorem Dev.setRing_tripped (d : Dev) (r : Nat) (s : RingSt) : (d.setRing r s).tripped = d.tripped := rfl
@[simp] theorem Dev.setRing_tap (d : Dev) (r : Nat) (s : RingSt) : (d.setRing r s).tap = d.tap := rfl
@[simp] theorem Dev.setRing_mbus (d : Dev) (r : Nat) (s : RingSt) : (d.setRing r s).mbus = d.mbus := rfl
@[simp] theorem Dev.setRing_bootRec (d : Dev) (r : Nat) (s : RingSt) : (d.setRing r s).bootRec = d.bootRec := rfl
@[simp] theorem Dev.setRing_drpCfg (d : Dev) (r : Nat) (s : RingSt) : (d.setRing r s).drpCfg = d.drpCfg := rfl
@[simp] theorem Dev.setRing_drives (d : Dev) (r : Nat) (s : RingSt) : (d.setRing r s).drives = d.drives := rfl
@[simp] theorem Dev.setRing_console (d : Dev) (r : Nat) (s : RingSt) : (d.setRing r s).console = d.console := rfl
@[simp] theorem Dev.setRing_txUsed (d : Dev) (r : Nat) (s : RingSt) : (d.setRing r s).txUsed = d.txUsed := rfl
@[simp] theorem Dev.setRing_blkDeficit (d : Dev) (r : Nat) (s : RingSt) : (d.setRing r s).blkDeficit = d.blkDeficit := rfl
@[simp] theorem Dev.setRing_qTaken (d : Dev) (r : Nat) (s : RingSt) : (d.setRing r s).qTaken = d.qTaken := rfl

/-! ### `Dev.setQueue` -/

@[simp] theorem Dev.setQueue_regs (d : Dev) (q : Nat) (s : QueueSt) : (d.setQueue q s).regs = d.regs := rfl
@[simp] theorem Dev.setQueue_hbm (d : Dev) (q : Nat) (s : QueueSt) : (d.setQueue q s).hbm = d.hbm := rfl
@[simp] theorem Dev.setQueue_ecc (d : Dev) (q : Nat) (s : QueueSt) : (d.setQueue q s).ecc = d.ecc := rfl
@[simp] theorem Dev.setQueue_flash (d : Dev) (q : Nat) (s : QueueSt) : (d.setQueue q s).flash = d.flash := rfl
@[simp] theorem Dev.setQueue_out (d : Dev) (q : Nat) (s : QueueSt) : (d.setQueue q s).out = d.out := rfl
@[simp] theorem Dev.setQueue_draws (d : Dev) (q : Nat) (s : QueueSt) : (d.setQueue q s).draws = d.draws := rfl
@[simp] theorem Dev.setQueue_nextId (d : Dev) (q : Nat) (s : QueueSt) : (d.setQueue q s).nextId = d.nextId := rfl
@[simp] theorem Dev.setQueue_turn (d : Dev) (q : Nat) (s : QueueSt) : (d.setQueue q s).turn = d.turn := rfl
@[simp] theorem Dev.setQueue_bounds (d : Dev) (q : Nat) (s : QueueSt) : (d.setQueue q s).bounds = d.bounds := rfl
@[simp] theorem Dev.setQueue_extended (d : Dev) (q : Nat) (s : QueueSt) : (d.setQueue q s).extended = d.extended := rfl
@[simp] theorem Dev.setQueue_active (d : Dev) (q : Nat) (s : QueueSt) : (d.setQueue q s).active = d.active := rfl
@[simp] theorem Dev.setQueue_staged (d : Dev) (q : Nat) (s : QueueSt) : (d.setQueue q s).staged = d.staged := rfl
@[simp] theorem Dev.setQueue_retained (d : Dev) (q : Nat) (s : QueueSt) : (d.setQueue q s).retained = d.retained := rfl
@[simp] theorem Dev.setQueue_stageFill (d : Dev) (q : Nat) (s : QueueSt) : (d.setQueue q s).stageFill = d.stageFill := rfl
@[simp] theorem Dev.setQueue_pipes (d : Dev) (q : Nat) (s : QueueSt) : (d.setQueue q s).pipes = d.pipes := rfl
@[simp] theorem Dev.setQueue_ports (d : Dev) (q : Nat) (s : QueueSt) : (d.setQueue q s).ports = d.ports := rfl
@[simp] theorem Dev.setQueue_dst (d : Dev) (q : Nat) (s : QueueSt) : (d.setQueue q s).dst = d.dst := rfl
@[simp] theorem Dev.setQueue_cells (d : Dev) (q : Nat) (s : QueueSt) : (d.setQueue q s).cells = d.cells := rfl
@[simp] theorem Dev.setQueue_priCells (d : Dev) (q : Nat) (s : QueueSt) : (d.setQueue q s).priCells = d.priCells := rfl
@[simp] theorem Dev.setQueue_sendWait (d : Dev) (q : Nat) (s : QueueSt) : (d.setQueue q s).sendWait = d.sendWait := rfl
@[simp] theorem Dev.setQueue_ft (d : Dev) (q : Nat) (s : QueueSt) : (d.setQueue q s).ft = d.ft := rfl
@[simp] theorem Dev.setQueue_rings (d : Dev) (q : Nat) (s : QueueSt) : (d.setQueue q s).rings = d.rings := rfl
@[simp] theorem Dev.setQueue_reads (d : Dev) (q : Nat) (s : QueueSt) : (d.setQueue q s).reads = d.reads := rfl
@[simp] theorem Dev.setQueue_msix (d : Dev) (q : Nat) (s : QueueSt) : (d.setQueue q s).msix = d.msix := rfl
@[simp] theorem Dev.setQueue_msixFn (d : Dev) (q : Nat) (s : QueueSt) : (d.setQueue q s).msixFn = d.msixFn := rfl
@[simp] theorem Dev.setQueue_links (d : Dev) (q : Nat) (s : QueueSt) : (d.setQueue q s).links = d.links := rfl
@[simp] theorem Dev.setQueue_bme (d : Dev) (q : Nat) (s : QueueSt) : (d.setQueue q s).bme = d.bme := rfl
@[simp] theorem Dev.setQueue_devCtl (d : Dev) (q : Nat) (s : QueueSt) : (d.setQueue q s).devCtl = d.devCtl := rfl
@[simp] theorem Dev.setQueue_devCtl2 (d : Dev) (q : Nat) (s : QueueSt) : (d.setQueue q s).devCtl2 = d.devCtl2 := rfl
@[simp] theorem Dev.setQueue_caps (d : Dev) (q : Nat) (s : QueueSt) : (d.setQueue q s).caps = d.caps := rfl
@[simp] theorem Dev.setQueue_vfs (d : Dev) (q : Nat) (s : QueueSt) : (d.setQueue q s).vfs = d.vfs := rfl
@[simp] theorem Dev.setQueue_tables (d : Dev) (q : Nat) (s : QueueSt) : (d.setQueue q s).tables = d.tables := rfl
@[simp] theorem Dev.setQueue_owned (d : Dev) (q : Nat) (s : QueueSt) : (d.setQueue q s).owned = d.owned := rfl
@[simp] theorem Dev.setQueue_scrubs (d : Dev) (q : Nat) (s : QueueSt) : (d.setQueue q s).scrubs = d.scrubs := rfl
@[simp] theorem Dev.setQueue_sweeps (d : Dev) (q : Nat) (s : QueueSt) : (d.setQueue q s).sweeps = d.sweeps := rfl
@[simp] theorem Dev.setQueue_faults (d : Dev) (q : Nat) (s : QueueSt) : (d.setQueue q s).faults = d.faults := rfl
@[simp] theorem Dev.setQueue_filter (d : Dev) (q : Nat) (s : QueueSt) : (d.setQueue q s).filter = d.filter := rfl
@[simp] theorem Dev.setQueue_lrn (d : Dev) (q : Nat) (s : QueueSt) : (d.setQueue q s).lrn = d.lrn := rfl
@[simp] theorem Dev.setQueue_images (d : Dev) (q : Nat) (s : QueueSt) : (d.setQueue q s).images = d.images := rfl
@[simp] theorem Dev.setQueue_autos (d : Dev) (q : Nat) (s : QueueSt) : (d.setQueue q s).autos = d.autos := rfl
@[simp] theorem Dev.setQueue_ind (d : Dev) (q : Nat) (s : QueueSt) : (d.setQueue q s).ind = d.ind := rfl
@[simp] theorem Dev.setQueue_coresFenced (d : Dev) (q : Nat) (s : QueueSt) : (d.setQueue q s).coresFenced = d.coresFenced := rfl
@[simp] theorem Dev.setQueue_handing (d : Dev) (q : Nat) (s : QueueSt) : (d.setQueue q s).handing = d.handing := rfl
@[simp] theorem Dev.setQueue_pair (d : Dev) (q : Nat) (s : QueueSt) : (d.setQueue q s).pair = d.pair := rfl
@[simp] theorem Dev.setQueue_localOnly (d : Dev) (q : Nat) (s : QueueSt) : (d.setQueue q s).localOnly = d.localOnly := rfl
@[simp] theorem Dev.setQueue_lanes (d : Dev) (q : Nat) (s : QueueSt) : (d.setQueue q s).lanes = d.lanes := rfl
@[simp] theorem Dev.setQueue_entReqs (d : Dev) (q : Nat) (s : QueueSt) : (d.setQueue q s).entReqs = d.entReqs := rfl
@[simp] theorem Dev.setQueue_entSeeds (d : Dev) (q : Nat) (s : QueueSt) : (d.setQueue q s).entSeeds = d.entSeeds := rfl
@[simp] theorem Dev.setQueue_keys (d : Dev) (q : Nat) (s : QueueSt) : (d.setQueue q s).keys = d.keys := rfl
@[simp] theorem Dev.setQueue_keks (d : Dev) (q : Nat) (s : QueueSt) : (d.setQueue q s).keks = d.keks := rfl
@[simp] theorem Dev.setQueue_keyHolds (d : Dev) (q : Nat) (s : QueueSt) : (d.setQueue q s).keyHolds = d.keyHolds := rfl
@[simp] theorem Dev.setQueue_wrapKey (d : Dev) (q : Nat) (s : QueueSt) : (d.setQueue q s).wrapKey = d.wrapKey := rfl
@[simp] theorem Dev.setQueue_keyBusy (d : Dev) (q : Nat) (s : QueueSt) : (d.setQueue q s).keyBusy = d.keyBusy := rfl
@[simp] theorem Dev.setQueue_keyPend (d : Dev) (q : Nat) (s : QueueSt) : (d.setQueue q s).keyPend = d.keyPend := rfl
@[simp] theorem Dev.setQueue_keyLoadAt (d : Dev) (q : Nat) (s : QueueSt) : (d.setQueue q s).keyLoadAt = d.keyLoadAt := rfl
@[simp] theorem Dev.setQueue_saHigh (d : Dev) (q : Nat) (s : QueueSt) : (d.setQueue q s).saHigh = d.saHigh := rfl
@[simp] theorem Dev.setQueue_saHighReq (d : Dev) (q : Nat) (s : QueueSt) : (d.setQueue q s).saHighReq = d.saHighReq := rfl
@[simp] theorem Dev.setQueue_saLimit (d : Dev) (q : Nat) (s : QueueSt) : (d.setQueue q s).saLimit = d.saLimit := rfl
@[simp] theorem Dev.setQueue_saDone (d : Dev) (q : Nat) (s : QueueSt) : (d.setQueue q s).saDone = d.saDone := rfl
@[simp] theorem Dev.setQueue_saTaken (d : Dev) (q : Nat) (s : QueueSt) : (d.setQueue q s).saTaken = d.saTaken := rfl
@[simp] theorem Dev.setQueue_vols (d : Dev) (q : Nat) (s : QueueSt) : (d.setQueue q s).vols = d.vols := rfl
@[simp] theorem Dev.setQueue_stores (d : Dev) (q : Nat) (s : QueueSt) : (d.setQueue q s).stores = d.stores := rfl
@[simp] theorem Dev.setQueue_media (d : Dev) (q : Nat) (s : QueueSt) : (d.setQueue q s).media = d.media := rfl
@[simp] theorem Dev.setQueue_tasks (d : Dev) (q : Nat) (s : QueueSt) : (d.setQueue q s).tasks = d.tasks := rfl
@[simp] theorem Dev.setQueue_logs (d : Dev) (q : Nat) (s : QueueSt) : (d.setQueue q s).logs = d.logs := rfl
@[simp] theorem Dev.setQueue_sreads (d : Dev) (q : Nat) (s : QueueSt) : (d.setQueue q s).sreads = d.sreads := rfl
@[simp] theorem Dev.setQueue_swrites (d : Dev) (q : Nat) (s : QueueSt) : (d.setQueue q s).swrites = d.swrites := rfl
@[simp] theorem Dev.setQueue_scrubVol (d : Dev) (q : Nat) (s : QueueSt) : (d.setQueue q s).scrubVol = d.scrubVol := rfl
@[simp] theorem Dev.setQueue_scrubWin (d : Dev) (q : Nat) (s : QueueSt) : (d.setQueue q s).scrubWin = d.scrubWin := rfl
@[simp] theorem Dev.setQueue_scrubCount (d : Dev) (q : Nat) (s : QueueSt) : (d.setQueue q s).scrubCount = d.scrubCount := rfl
@[simp] theorem Dev.setQueue_queues (d : Dev) (q : Nat) (s : QueueSt) : (d.setQueue q s).queues = d.queues.set q s {} := rfl
@[simp] theorem Dev.setQueue_qcmds (d : Dev) (q : Nat) (s : QueueSt) : (d.setQueue q s).qcmds = d.qcmds := rfl
@[simp] theorem Dev.setQueue_qidle (d : Dev) (q : Nat) (s : QueueSt) : (d.setQueue q s).qidle = d.qidle := rfl
@[simp] theorem Dev.setQueue_engServing (d : Dev) (q : Nat) (s : QueueSt) : (d.setQueue q s).engServing = d.engServing := rfl
@[simp] theorem Dev.setQueue_flr (d : Dev) (q : Nat) (s : QueueSt) : (d.setQueue q s).flr = d.flr := rfl
@[simp] theorem Dev.setQueue_late (d : Dev) (q : Nat) (s : QueueSt) : (d.setQueue q s).late = d.late := rfl
@[simp] theorem Dev.setQueue_ownerMove (d : Dev) (q : Nat) (s : QueueSt) : (d.setQueue q s).ownerMove = d.ownerMove := rfl
@[simp] theorem Dev.setQueue_activation (d : Dev) (q : Nat) (s : QueueSt) : (d.setQueue q s).activation = d.activation := rfl
@[simp] theorem Dev.setQueue_flashOp (d : Dev) (q : Nat) (s : QueueSt) : (d.setQueue q s).flashOp = d.flashOp := rfl
@[simp] theorem Dev.setQueue_rollback (d : Dev) (q : Nat) (s : QueueSt) : (d.setQueue q s).rollback = d.rollback := rfl
@[simp] theorem Dev.setQueue_windows (d : Dev) (q : Nat) (s : QueueSt) : (d.setQueue q s).windows = d.windows := rfl
@[simp] theorem Dev.setQueue_locking (d : Dev) (q : Nat) (s : QueueSt) : (d.setQueue q s).locking = d.locking := rfl
@[simp] theorem Dev.setQueue_lossSince (d : Dev) (q : Nat) (s : QueueSt) : (d.setQueue q s).lossSince = d.lossSince := rfl
@[simp] theorem Dev.setQueue_domSwitch (d : Dev) (q : Nat) (s : QueueSt) : (d.setQueue q s).domSwitch = d.domSwitch := rfl
@[simp] theorem Dev.setQueue_ocLevel (d : Dev) (q : Nat) (s : QueueSt) : (d.setQueue q s).ocLevel = d.ocLevel := rfl
@[simp] theorem Dev.setQueue_dead (d : Dev) (q : Nat) (s : QueueSt) : (d.setQueue q s).dead = d.dead := rfl
@[simp] theorem Dev.setQueue_resetHeld (d : Dev) (q : Nat) (s : QueueSt) : (d.setQueue q s).resetHeld = d.resetHeld := rfl
@[simp] theorem Dev.setQueue_tripped (d : Dev) (q : Nat) (s : QueueSt) : (d.setQueue q s).tripped = d.tripped := rfl
@[simp] theorem Dev.setQueue_tap (d : Dev) (q : Nat) (s : QueueSt) : (d.setQueue q s).tap = d.tap := rfl
@[simp] theorem Dev.setQueue_mbus (d : Dev) (q : Nat) (s : QueueSt) : (d.setQueue q s).mbus = d.mbus := rfl
@[simp] theorem Dev.setQueue_bootRec (d : Dev) (q : Nat) (s : QueueSt) : (d.setQueue q s).bootRec = d.bootRec := rfl
@[simp] theorem Dev.setQueue_drpCfg (d : Dev) (q : Nat) (s : QueueSt) : (d.setQueue q s).drpCfg = d.drpCfg := rfl
@[simp] theorem Dev.setQueue_drives (d : Dev) (q : Nat) (s : QueueSt) : (d.setQueue q s).drives = d.drives := rfl
@[simp] theorem Dev.setQueue_console (d : Dev) (q : Nat) (s : QueueSt) : (d.setQueue q s).console = d.console := rfl
@[simp] theorem Dev.setQueue_txUsed (d : Dev) (q : Nat) (s : QueueSt) : (d.setQueue q s).txUsed = d.txUsed := rfl
@[simp] theorem Dev.setQueue_blkDeficit (d : Dev) (q : Nat) (s : QueueSt) : (d.setQueue q s).blkDeficit = d.blkDeficit := rfl
@[simp] theorem Dev.setQueue_qTaken (d : Dev) (q : Nat) (s : QueueSt) : (d.setQueue q s).qTaken = d.qTaken := rfl

/-! ### `Dev.setPort` -/

@[simp] theorem Dev.setPort_regs (d : Dev) (n : Nat) (p : PortSt) : (d.setPort n p).regs = d.regs := rfl
@[simp] theorem Dev.setPort_hbm (d : Dev) (n : Nat) (p : PortSt) : (d.setPort n p).hbm = d.hbm := rfl
@[simp] theorem Dev.setPort_ecc (d : Dev) (n : Nat) (p : PortSt) : (d.setPort n p).ecc = d.ecc := rfl
@[simp] theorem Dev.setPort_flash (d : Dev) (n : Nat) (p : PortSt) : (d.setPort n p).flash = d.flash := rfl
@[simp] theorem Dev.setPort_out (d : Dev) (n : Nat) (p : PortSt) : (d.setPort n p).out = d.out := rfl
@[simp] theorem Dev.setPort_draws (d : Dev) (n : Nat) (p : PortSt) : (d.setPort n p).draws = d.draws := rfl
@[simp] theorem Dev.setPort_nextId (d : Dev) (n : Nat) (p : PortSt) : (d.setPort n p).nextId = d.nextId := rfl
@[simp] theorem Dev.setPort_turn (d : Dev) (n : Nat) (p : PortSt) : (d.setPort n p).turn = d.turn := rfl
@[simp] theorem Dev.setPort_bounds (d : Dev) (n : Nat) (p : PortSt) : (d.setPort n p).bounds = d.bounds := rfl
@[simp] theorem Dev.setPort_extended (d : Dev) (n : Nat) (p : PortSt) : (d.setPort n p).extended = d.extended := rfl
@[simp] theorem Dev.setPort_active (d : Dev) (n : Nat) (p : PortSt) : (d.setPort n p).active = d.active := rfl
@[simp] theorem Dev.setPort_staged (d : Dev) (n : Nat) (p : PortSt) : (d.setPort n p).staged = d.staged := rfl
@[simp] theorem Dev.setPort_retained (d : Dev) (n : Nat) (p : PortSt) : (d.setPort n p).retained = d.retained := rfl
@[simp] theorem Dev.setPort_stageFill (d : Dev) (n : Nat) (p : PortSt) : (d.setPort n p).stageFill = d.stageFill := rfl
@[simp] theorem Dev.setPort_pipes (d : Dev) (n : Nat) (p : PortSt) : (d.setPort n p).pipes = d.pipes := rfl
@[simp] theorem Dev.setPort_ports (d : Dev) (n : Nat) (p : PortSt) : (d.setPort n p).ports = d.ports.set n p {} := rfl
@[simp] theorem Dev.setPort_dst (d : Dev) (n : Nat) (p : PortSt) : (d.setPort n p).dst = d.dst := rfl
@[simp] theorem Dev.setPort_cells (d : Dev) (n : Nat) (p : PortSt) : (d.setPort n p).cells = d.cells := rfl
@[simp] theorem Dev.setPort_priCells (d : Dev) (n : Nat) (p : PortSt) : (d.setPort n p).priCells = d.priCells := rfl
@[simp] theorem Dev.setPort_sendWait (d : Dev) (n : Nat) (p : PortSt) : (d.setPort n p).sendWait = d.sendWait := rfl
@[simp] theorem Dev.setPort_ft (d : Dev) (n : Nat) (p : PortSt) : (d.setPort n p).ft = d.ft := rfl
@[simp] theorem Dev.setPort_rings (d : Dev) (n : Nat) (p : PortSt) : (d.setPort n p).rings = d.rings := rfl
@[simp] theorem Dev.setPort_reads (d : Dev) (n : Nat) (p : PortSt) : (d.setPort n p).reads = d.reads := rfl
@[simp] theorem Dev.setPort_msix (d : Dev) (n : Nat) (p : PortSt) : (d.setPort n p).msix = d.msix := rfl
@[simp] theorem Dev.setPort_msixFn (d : Dev) (n : Nat) (p : PortSt) : (d.setPort n p).msixFn = d.msixFn := rfl
@[simp] theorem Dev.setPort_links (d : Dev) (n : Nat) (p : PortSt) : (d.setPort n p).links = d.links := rfl
@[simp] theorem Dev.setPort_bme (d : Dev) (n : Nat) (p : PortSt) : (d.setPort n p).bme = d.bme := rfl
@[simp] theorem Dev.setPort_devCtl (d : Dev) (n : Nat) (p : PortSt) : (d.setPort n p).devCtl = d.devCtl := rfl
@[simp] theorem Dev.setPort_devCtl2 (d : Dev) (n : Nat) (p : PortSt) : (d.setPort n p).devCtl2 = d.devCtl2 := rfl
@[simp] theorem Dev.setPort_caps (d : Dev) (n : Nat) (p : PortSt) : (d.setPort n p).caps = d.caps := rfl
@[simp] theorem Dev.setPort_vfs (d : Dev) (n : Nat) (p : PortSt) : (d.setPort n p).vfs = d.vfs := rfl
@[simp] theorem Dev.setPort_tables (d : Dev) (n : Nat) (p : PortSt) : (d.setPort n p).tables = d.tables := rfl
@[simp] theorem Dev.setPort_owned (d : Dev) (n : Nat) (p : PortSt) : (d.setPort n p).owned = d.owned := rfl
@[simp] theorem Dev.setPort_scrubs (d : Dev) (n : Nat) (p : PortSt) : (d.setPort n p).scrubs = d.scrubs := rfl
@[simp] theorem Dev.setPort_sweeps (d : Dev) (n : Nat) (p : PortSt) : (d.setPort n p).sweeps = d.sweeps := rfl
@[simp] theorem Dev.setPort_faults (d : Dev) (n : Nat) (p : PortSt) : (d.setPort n p).faults = d.faults := rfl
@[simp] theorem Dev.setPort_filter (d : Dev) (n : Nat) (p : PortSt) : (d.setPort n p).filter = d.filter := rfl
@[simp] theorem Dev.setPort_lrn (d : Dev) (n : Nat) (p : PortSt) : (d.setPort n p).lrn = d.lrn := rfl
@[simp] theorem Dev.setPort_images (d : Dev) (n : Nat) (p : PortSt) : (d.setPort n p).images = d.images := rfl
@[simp] theorem Dev.setPort_autos (d : Dev) (n : Nat) (p : PortSt) : (d.setPort n p).autos = d.autos := rfl
@[simp] theorem Dev.setPort_ind (d : Dev) (n : Nat) (p : PortSt) : (d.setPort n p).ind = d.ind := rfl
@[simp] theorem Dev.setPort_coresFenced (d : Dev) (n : Nat) (p : PortSt) : (d.setPort n p).coresFenced = d.coresFenced := rfl
@[simp] theorem Dev.setPort_handing (d : Dev) (n : Nat) (p : PortSt) : (d.setPort n p).handing = d.handing := rfl
@[simp] theorem Dev.setPort_pair (d : Dev) (n : Nat) (p : PortSt) : (d.setPort n p).pair = d.pair := rfl
@[simp] theorem Dev.setPort_localOnly (d : Dev) (n : Nat) (p : PortSt) : (d.setPort n p).localOnly = d.localOnly := rfl
@[simp] theorem Dev.setPort_lanes (d : Dev) (n : Nat) (p : PortSt) : (d.setPort n p).lanes = d.lanes := rfl
@[simp] theorem Dev.setPort_entReqs (d : Dev) (n : Nat) (p : PortSt) : (d.setPort n p).entReqs = d.entReqs := rfl
@[simp] theorem Dev.setPort_entSeeds (d : Dev) (n : Nat) (p : PortSt) : (d.setPort n p).entSeeds = d.entSeeds := rfl
@[simp] theorem Dev.setPort_keys (d : Dev) (n : Nat) (p : PortSt) : (d.setPort n p).keys = d.keys := rfl
@[simp] theorem Dev.setPort_keks (d : Dev) (n : Nat) (p : PortSt) : (d.setPort n p).keks = d.keks := rfl
@[simp] theorem Dev.setPort_keyHolds (d : Dev) (n : Nat) (p : PortSt) : (d.setPort n p).keyHolds = d.keyHolds := rfl
@[simp] theorem Dev.setPort_wrapKey (d : Dev) (n : Nat) (p : PortSt) : (d.setPort n p).wrapKey = d.wrapKey := rfl
@[simp] theorem Dev.setPort_keyBusy (d : Dev) (n : Nat) (p : PortSt) : (d.setPort n p).keyBusy = d.keyBusy := rfl
@[simp] theorem Dev.setPort_keyPend (d : Dev) (n : Nat) (p : PortSt) : (d.setPort n p).keyPend = d.keyPend := rfl
@[simp] theorem Dev.setPort_keyLoadAt (d : Dev) (n : Nat) (p : PortSt) : (d.setPort n p).keyLoadAt = d.keyLoadAt := rfl
@[simp] theorem Dev.setPort_saHigh (d : Dev) (n : Nat) (p : PortSt) : (d.setPort n p).saHigh = d.saHigh := rfl
@[simp] theorem Dev.setPort_saHighReq (d : Dev) (n : Nat) (p : PortSt) : (d.setPort n p).saHighReq = d.saHighReq := rfl
@[simp] theorem Dev.setPort_saLimit (d : Dev) (n : Nat) (p : PortSt) : (d.setPort n p).saLimit = d.saLimit := rfl
@[simp] theorem Dev.setPort_saDone (d : Dev) (n : Nat) (p : PortSt) : (d.setPort n p).saDone = d.saDone := rfl
@[simp] theorem Dev.setPort_saTaken (d : Dev) (n : Nat) (p : PortSt) : (d.setPort n p).saTaken = d.saTaken := rfl
@[simp] theorem Dev.setPort_vols (d : Dev) (n : Nat) (p : PortSt) : (d.setPort n p).vols = d.vols := rfl
@[simp] theorem Dev.setPort_stores (d : Dev) (n : Nat) (p : PortSt) : (d.setPort n p).stores = d.stores := rfl
@[simp] theorem Dev.setPort_media (d : Dev) (n : Nat) (p : PortSt) : (d.setPort n p).media = d.media := rfl
@[simp] theorem Dev.setPort_tasks (d : Dev) (n : Nat) (p : PortSt) : (d.setPort n p).tasks = d.tasks := rfl
@[simp] theorem Dev.setPort_logs (d : Dev) (n : Nat) (p : PortSt) : (d.setPort n p).logs = d.logs := rfl
@[simp] theorem Dev.setPort_sreads (d : Dev) (n : Nat) (p : PortSt) : (d.setPort n p).sreads = d.sreads := rfl
@[simp] theorem Dev.setPort_swrites (d : Dev) (n : Nat) (p : PortSt) : (d.setPort n p).swrites = d.swrites := rfl
@[simp] theorem Dev.setPort_scrubVol (d : Dev) (n : Nat) (p : PortSt) : (d.setPort n p).scrubVol = d.scrubVol := rfl
@[simp] theorem Dev.setPort_scrubWin (d : Dev) (n : Nat) (p : PortSt) : (d.setPort n p).scrubWin = d.scrubWin := rfl
@[simp] theorem Dev.setPort_scrubCount (d : Dev) (n : Nat) (p : PortSt) : (d.setPort n p).scrubCount = d.scrubCount := rfl
@[simp] theorem Dev.setPort_queues (d : Dev) (n : Nat) (p : PortSt) : (d.setPort n p).queues = d.queues := rfl
@[simp] theorem Dev.setPort_qcmds (d : Dev) (n : Nat) (p : PortSt) : (d.setPort n p).qcmds = d.qcmds := rfl
@[simp] theorem Dev.setPort_qidle (d : Dev) (n : Nat) (p : PortSt) : (d.setPort n p).qidle = d.qidle := rfl
@[simp] theorem Dev.setPort_engServing (d : Dev) (n : Nat) (p : PortSt) : (d.setPort n p).engServing = d.engServing := rfl
@[simp] theorem Dev.setPort_flr (d : Dev) (n : Nat) (p : PortSt) : (d.setPort n p).flr = d.flr := rfl
@[simp] theorem Dev.setPort_late (d : Dev) (n : Nat) (p : PortSt) : (d.setPort n p).late = d.late := rfl
@[simp] theorem Dev.setPort_ownerMove (d : Dev) (n : Nat) (p : PortSt) : (d.setPort n p).ownerMove = d.ownerMove := rfl
@[simp] theorem Dev.setPort_activation (d : Dev) (n : Nat) (p : PortSt) : (d.setPort n p).activation = d.activation := rfl
@[simp] theorem Dev.setPort_flashOp (d : Dev) (n : Nat) (p : PortSt) : (d.setPort n p).flashOp = d.flashOp := rfl
@[simp] theorem Dev.setPort_rollback (d : Dev) (n : Nat) (p : PortSt) : (d.setPort n p).rollback = d.rollback := rfl
@[simp] theorem Dev.setPort_windows (d : Dev) (n : Nat) (p : PortSt) : (d.setPort n p).windows = d.windows := rfl
@[simp] theorem Dev.setPort_locking (d : Dev) (n : Nat) (p : PortSt) : (d.setPort n p).locking = d.locking := rfl
@[simp] theorem Dev.setPort_lossSince (d : Dev) (n : Nat) (p : PortSt) : (d.setPort n p).lossSince = d.lossSince := rfl
@[simp] theorem Dev.setPort_domSwitch (d : Dev) (n : Nat) (p : PortSt) : (d.setPort n p).domSwitch = d.domSwitch := rfl
@[simp] theorem Dev.setPort_ocLevel (d : Dev) (n : Nat) (p : PortSt) : (d.setPort n p).ocLevel = d.ocLevel := rfl
@[simp] theorem Dev.setPort_dead (d : Dev) (n : Nat) (p : PortSt) : (d.setPort n p).dead = d.dead := rfl
@[simp] theorem Dev.setPort_resetHeld (d : Dev) (n : Nat) (p : PortSt) : (d.setPort n p).resetHeld = d.resetHeld := rfl
@[simp] theorem Dev.setPort_tripped (d : Dev) (n : Nat) (p : PortSt) : (d.setPort n p).tripped = d.tripped := rfl
@[simp] theorem Dev.setPort_tap (d : Dev) (n : Nat) (p : PortSt) : (d.setPort n p).tap = d.tap := rfl
@[simp] theorem Dev.setPort_mbus (d : Dev) (n : Nat) (p : PortSt) : (d.setPort n p).mbus = d.mbus := rfl
@[simp] theorem Dev.setPort_bootRec (d : Dev) (n : Nat) (p : PortSt) : (d.setPort n p).bootRec = d.bootRec := rfl
@[simp] theorem Dev.setPort_drpCfg (d : Dev) (n : Nat) (p : PortSt) : (d.setPort n p).drpCfg = d.drpCfg := rfl
@[simp] theorem Dev.setPort_drives (d : Dev) (n : Nat) (p : PortSt) : (d.setPort n p).drives = d.drives := rfl
@[simp] theorem Dev.setPort_console (d : Dev) (n : Nat) (p : PortSt) : (d.setPort n p).console = d.console := rfl
@[simp] theorem Dev.setPort_txUsed (d : Dev) (n : Nat) (p : PortSt) : (d.setPort n p).txUsed = d.txUsed := rfl
@[simp] theorem Dev.setPort_blkDeficit (d : Dev) (n : Nat) (p : PortSt) : (d.setPort n p).blkDeficit = d.blkDeficit := rfl
@[simp] theorem Dev.setPort_qTaken (d : Dev) (n : Nat) (p : PortSt) : (d.setPort n p).qTaken = d.qTaken := rfl

/-! ### `Dev.setPipe` -/

@[simp] theorem Dev.setPipe_regs (d : Dev) (n : Nat) (p : Pipe) : (d.setPipe n p).regs = d.regs := rfl
@[simp] theorem Dev.setPipe_hbm (d : Dev) (n : Nat) (p : Pipe) : (d.setPipe n p).hbm = d.hbm := rfl
@[simp] theorem Dev.setPipe_ecc (d : Dev) (n : Nat) (p : Pipe) : (d.setPipe n p).ecc = d.ecc := rfl
@[simp] theorem Dev.setPipe_flash (d : Dev) (n : Nat) (p : Pipe) : (d.setPipe n p).flash = d.flash := rfl
@[simp] theorem Dev.setPipe_out (d : Dev) (n : Nat) (p : Pipe) : (d.setPipe n p).out = d.out := rfl
@[simp] theorem Dev.setPipe_draws (d : Dev) (n : Nat) (p : Pipe) : (d.setPipe n p).draws = d.draws := rfl
@[simp] theorem Dev.setPipe_nextId (d : Dev) (n : Nat) (p : Pipe) : (d.setPipe n p).nextId = d.nextId := rfl
@[simp] theorem Dev.setPipe_turn (d : Dev) (n : Nat) (p : Pipe) : (d.setPipe n p).turn = d.turn := rfl
@[simp] theorem Dev.setPipe_bounds (d : Dev) (n : Nat) (p : Pipe) : (d.setPipe n p).bounds = d.bounds := rfl
@[simp] theorem Dev.setPipe_extended (d : Dev) (n : Nat) (p : Pipe) : (d.setPipe n p).extended = d.extended := rfl
@[simp] theorem Dev.setPipe_active (d : Dev) (n : Nat) (p : Pipe) : (d.setPipe n p).active = d.active := rfl
@[simp] theorem Dev.setPipe_staged (d : Dev) (n : Nat) (p : Pipe) : (d.setPipe n p).staged = d.staged := rfl
@[simp] theorem Dev.setPipe_retained (d : Dev) (n : Nat) (p : Pipe) : (d.setPipe n p).retained = d.retained := rfl
@[simp] theorem Dev.setPipe_stageFill (d : Dev) (n : Nat) (p : Pipe) : (d.setPipe n p).stageFill = d.stageFill := rfl
@[simp] theorem Dev.setPipe_pipes (d : Dev) (n : Nat) (p : Pipe) : (d.setPipe n p).pipes = d.pipes.set n p {} := rfl
@[simp] theorem Dev.setPipe_ports (d : Dev) (n : Nat) (p : Pipe) : (d.setPipe n p).ports = d.ports := rfl
@[simp] theorem Dev.setPipe_dst (d : Dev) (n : Nat) (p : Pipe) : (d.setPipe n p).dst = d.dst := rfl
@[simp] theorem Dev.setPipe_cells (d : Dev) (n : Nat) (p : Pipe) : (d.setPipe n p).cells = d.cells := rfl
@[simp] theorem Dev.setPipe_priCells (d : Dev) (n : Nat) (p : Pipe) : (d.setPipe n p).priCells = d.priCells := rfl
@[simp] theorem Dev.setPipe_sendWait (d : Dev) (n : Nat) (p : Pipe) : (d.setPipe n p).sendWait = d.sendWait := rfl
@[simp] theorem Dev.setPipe_ft (d : Dev) (n : Nat) (p : Pipe) : (d.setPipe n p).ft = d.ft := rfl
@[simp] theorem Dev.setPipe_rings (d : Dev) (n : Nat) (p : Pipe) : (d.setPipe n p).rings = d.rings := rfl
@[simp] theorem Dev.setPipe_reads (d : Dev) (n : Nat) (p : Pipe) : (d.setPipe n p).reads = d.reads := rfl
@[simp] theorem Dev.setPipe_msix (d : Dev) (n : Nat) (p : Pipe) : (d.setPipe n p).msix = d.msix := rfl
@[simp] theorem Dev.setPipe_msixFn (d : Dev) (n : Nat) (p : Pipe) : (d.setPipe n p).msixFn = d.msixFn := rfl
@[simp] theorem Dev.setPipe_links (d : Dev) (n : Nat) (p : Pipe) : (d.setPipe n p).links = d.links := rfl
@[simp] theorem Dev.setPipe_bme (d : Dev) (n : Nat) (p : Pipe) : (d.setPipe n p).bme = d.bme := rfl
@[simp] theorem Dev.setPipe_devCtl (d : Dev) (n : Nat) (p : Pipe) : (d.setPipe n p).devCtl = d.devCtl := rfl
@[simp] theorem Dev.setPipe_devCtl2 (d : Dev) (n : Nat) (p : Pipe) : (d.setPipe n p).devCtl2 = d.devCtl2 := rfl
@[simp] theorem Dev.setPipe_caps (d : Dev) (n : Nat) (p : Pipe) : (d.setPipe n p).caps = d.caps := rfl
@[simp] theorem Dev.setPipe_vfs (d : Dev) (n : Nat) (p : Pipe) : (d.setPipe n p).vfs = d.vfs := rfl
@[simp] theorem Dev.setPipe_tables (d : Dev) (n : Nat) (p : Pipe) : (d.setPipe n p).tables = d.tables := rfl
@[simp] theorem Dev.setPipe_owned (d : Dev) (n : Nat) (p : Pipe) : (d.setPipe n p).owned = d.owned := rfl
@[simp] theorem Dev.setPipe_scrubs (d : Dev) (n : Nat) (p : Pipe) : (d.setPipe n p).scrubs = d.scrubs := rfl
@[simp] theorem Dev.setPipe_sweeps (d : Dev) (n : Nat) (p : Pipe) : (d.setPipe n p).sweeps = d.sweeps := rfl
@[simp] theorem Dev.setPipe_faults (d : Dev) (n : Nat) (p : Pipe) : (d.setPipe n p).faults = d.faults := rfl
@[simp] theorem Dev.setPipe_filter (d : Dev) (n : Nat) (p : Pipe) : (d.setPipe n p).filter = d.filter := rfl
@[simp] theorem Dev.setPipe_lrn (d : Dev) (n : Nat) (p : Pipe) : (d.setPipe n p).lrn = d.lrn := rfl
@[simp] theorem Dev.setPipe_images (d : Dev) (n : Nat) (p : Pipe) : (d.setPipe n p).images = d.images := rfl
@[simp] theorem Dev.setPipe_autos (d : Dev) (n : Nat) (p : Pipe) : (d.setPipe n p).autos = d.autos := rfl
@[simp] theorem Dev.setPipe_ind (d : Dev) (n : Nat) (p : Pipe) : (d.setPipe n p).ind = d.ind := rfl
@[simp] theorem Dev.setPipe_coresFenced (d : Dev) (n : Nat) (p : Pipe) : (d.setPipe n p).coresFenced = d.coresFenced := rfl
@[simp] theorem Dev.setPipe_handing (d : Dev) (n : Nat) (p : Pipe) : (d.setPipe n p).handing = d.handing := rfl
@[simp] theorem Dev.setPipe_pair (d : Dev) (n : Nat) (p : Pipe) : (d.setPipe n p).pair = d.pair := rfl
@[simp] theorem Dev.setPipe_localOnly (d : Dev) (n : Nat) (p : Pipe) : (d.setPipe n p).localOnly = d.localOnly := rfl
@[simp] theorem Dev.setPipe_lanes (d : Dev) (n : Nat) (p : Pipe) : (d.setPipe n p).lanes = d.lanes := rfl
@[simp] theorem Dev.setPipe_entReqs (d : Dev) (n : Nat) (p : Pipe) : (d.setPipe n p).entReqs = d.entReqs := rfl
@[simp] theorem Dev.setPipe_entSeeds (d : Dev) (n : Nat) (p : Pipe) : (d.setPipe n p).entSeeds = d.entSeeds := rfl
@[simp] theorem Dev.setPipe_keys (d : Dev) (n : Nat) (p : Pipe) : (d.setPipe n p).keys = d.keys := rfl
@[simp] theorem Dev.setPipe_keks (d : Dev) (n : Nat) (p : Pipe) : (d.setPipe n p).keks = d.keks := rfl
@[simp] theorem Dev.setPipe_keyHolds (d : Dev) (n : Nat) (p : Pipe) : (d.setPipe n p).keyHolds = d.keyHolds := rfl
@[simp] theorem Dev.setPipe_wrapKey (d : Dev) (n : Nat) (p : Pipe) : (d.setPipe n p).wrapKey = d.wrapKey := rfl
@[simp] theorem Dev.setPipe_keyBusy (d : Dev) (n : Nat) (p : Pipe) : (d.setPipe n p).keyBusy = d.keyBusy := rfl
@[simp] theorem Dev.setPipe_keyPend (d : Dev) (n : Nat) (p : Pipe) : (d.setPipe n p).keyPend = d.keyPend := rfl
@[simp] theorem Dev.setPipe_keyLoadAt (d : Dev) (n : Nat) (p : Pipe) : (d.setPipe n p).keyLoadAt = d.keyLoadAt := rfl
@[simp] theorem Dev.setPipe_saHigh (d : Dev) (n : Nat) (p : Pipe) : (d.setPipe n p).saHigh = d.saHigh := rfl
@[simp] theorem Dev.setPipe_saHighReq (d : Dev) (n : Nat) (p : Pipe) : (d.setPipe n p).saHighReq = d.saHighReq := rfl
@[simp] theorem Dev.setPipe_saLimit (d : Dev) (n : Nat) (p : Pipe) : (d.setPipe n p).saLimit = d.saLimit := rfl
@[simp] theorem Dev.setPipe_saDone (d : Dev) (n : Nat) (p : Pipe) : (d.setPipe n p).saDone = d.saDone := rfl
@[simp] theorem Dev.setPipe_saTaken (d : Dev) (n : Nat) (p : Pipe) : (d.setPipe n p).saTaken = d.saTaken := rfl
@[simp] theorem Dev.setPipe_vols (d : Dev) (n : Nat) (p : Pipe) : (d.setPipe n p).vols = d.vols := rfl
@[simp] theorem Dev.setPipe_stores (d : Dev) (n : Nat) (p : Pipe) : (d.setPipe n p).stores = d.stores := rfl
@[simp] theorem Dev.setPipe_media (d : Dev) (n : Nat) (p : Pipe) : (d.setPipe n p).media = d.media := rfl
@[simp] theorem Dev.setPipe_tasks (d : Dev) (n : Nat) (p : Pipe) : (d.setPipe n p).tasks = d.tasks := rfl
@[simp] theorem Dev.setPipe_logs (d : Dev) (n : Nat) (p : Pipe) : (d.setPipe n p).logs = d.logs := rfl
@[simp] theorem Dev.setPipe_sreads (d : Dev) (n : Nat) (p : Pipe) : (d.setPipe n p).sreads = d.sreads := rfl
@[simp] theorem Dev.setPipe_swrites (d : Dev) (n : Nat) (p : Pipe) : (d.setPipe n p).swrites = d.swrites := rfl
@[simp] theorem Dev.setPipe_scrubVol (d : Dev) (n : Nat) (p : Pipe) : (d.setPipe n p).scrubVol = d.scrubVol := rfl
@[simp] theorem Dev.setPipe_scrubWin (d : Dev) (n : Nat) (p : Pipe) : (d.setPipe n p).scrubWin = d.scrubWin := rfl
@[simp] theorem Dev.setPipe_scrubCount (d : Dev) (n : Nat) (p : Pipe) : (d.setPipe n p).scrubCount = d.scrubCount := rfl
@[simp] theorem Dev.setPipe_queues (d : Dev) (n : Nat) (p : Pipe) : (d.setPipe n p).queues = d.queues := rfl
@[simp] theorem Dev.setPipe_qcmds (d : Dev) (n : Nat) (p : Pipe) : (d.setPipe n p).qcmds = d.qcmds := rfl
@[simp] theorem Dev.setPipe_qidle (d : Dev) (n : Nat) (p : Pipe) : (d.setPipe n p).qidle = d.qidle := rfl
@[simp] theorem Dev.setPipe_engServing (d : Dev) (n : Nat) (p : Pipe) : (d.setPipe n p).engServing = d.engServing := rfl
@[simp] theorem Dev.setPipe_flr (d : Dev) (n : Nat) (p : Pipe) : (d.setPipe n p).flr = d.flr := rfl
@[simp] theorem Dev.setPipe_late (d : Dev) (n : Nat) (p : Pipe) : (d.setPipe n p).late = d.late := rfl
@[simp] theorem Dev.setPipe_ownerMove (d : Dev) (n : Nat) (p : Pipe) : (d.setPipe n p).ownerMove = d.ownerMove := rfl
@[simp] theorem Dev.setPipe_activation (d : Dev) (n : Nat) (p : Pipe) : (d.setPipe n p).activation = d.activation := rfl
@[simp] theorem Dev.setPipe_flashOp (d : Dev) (n : Nat) (p : Pipe) : (d.setPipe n p).flashOp = d.flashOp := rfl
@[simp] theorem Dev.setPipe_rollback (d : Dev) (n : Nat) (p : Pipe) : (d.setPipe n p).rollback = d.rollback := rfl
@[simp] theorem Dev.setPipe_windows (d : Dev) (n : Nat) (p : Pipe) : (d.setPipe n p).windows = d.windows := rfl
@[simp] theorem Dev.setPipe_locking (d : Dev) (n : Nat) (p : Pipe) : (d.setPipe n p).locking = d.locking := rfl
@[simp] theorem Dev.setPipe_lossSince (d : Dev) (n : Nat) (p : Pipe) : (d.setPipe n p).lossSince = d.lossSince := rfl
@[simp] theorem Dev.setPipe_domSwitch (d : Dev) (n : Nat) (p : Pipe) : (d.setPipe n p).domSwitch = d.domSwitch := rfl
@[simp] theorem Dev.setPipe_ocLevel (d : Dev) (n : Nat) (p : Pipe) : (d.setPipe n p).ocLevel = d.ocLevel := rfl
@[simp] theorem Dev.setPipe_dead (d : Dev) (n : Nat) (p : Pipe) : (d.setPipe n p).dead = d.dead := rfl
@[simp] theorem Dev.setPipe_resetHeld (d : Dev) (n : Nat) (p : Pipe) : (d.setPipe n p).resetHeld = d.resetHeld := rfl
@[simp] theorem Dev.setPipe_tripped (d : Dev) (n : Nat) (p : Pipe) : (d.setPipe n p).tripped = d.tripped := rfl
@[simp] theorem Dev.setPipe_tap (d : Dev) (n : Nat) (p : Pipe) : (d.setPipe n p).tap = d.tap := rfl
@[simp] theorem Dev.setPipe_mbus (d : Dev) (n : Nat) (p : Pipe) : (d.setPipe n p).mbus = d.mbus := rfl
@[simp] theorem Dev.setPipe_bootRec (d : Dev) (n : Nat) (p : Pipe) : (d.setPipe n p).bootRec = d.bootRec := rfl
@[simp] theorem Dev.setPipe_drpCfg (d : Dev) (n : Nat) (p : Pipe) : (d.setPipe n p).drpCfg = d.drpCfg := rfl
@[simp] theorem Dev.setPipe_drives (d : Dev) (n : Nat) (p : Pipe) : (d.setPipe n p).drives = d.drives := rfl
@[simp] theorem Dev.setPipe_console (d : Dev) (n : Nat) (p : Pipe) : (d.setPipe n p).console = d.console := rfl
@[simp] theorem Dev.setPipe_txUsed (d : Dev) (n : Nat) (p : Pipe) : (d.setPipe n p).txUsed = d.txUsed := rfl
@[simp] theorem Dev.setPipe_blkDeficit (d : Dev) (n : Nat) (p : Pipe) : (d.setPipe n p).blkDeficit = d.blkDeficit := rfl
@[simp] theorem Dev.setPipe_qTaken (d : Dev) (n : Nat) (p : Pipe) : (d.setPipe n p).qTaken = d.qTaken := rfl

/-! ### `Dev.emit` -/

@[simp] theorem Dev.emit_regs (d : Dev) (o : Out) : (d.emit o).regs = d.regs := rfl
@[simp] theorem Dev.emit_hbm (d : Dev) (o : Out) : (d.emit o).hbm = d.hbm := rfl
@[simp] theorem Dev.emit_ecc (d : Dev) (o : Out) : (d.emit o).ecc = d.ecc := rfl
@[simp] theorem Dev.emit_flash (d : Dev) (o : Out) : (d.emit o).flash = d.flash := rfl
@[simp] theorem Dev.emit_out (d : Dev) (o : Out) : (d.emit o).out = d.out ++ [o] := rfl
@[simp] theorem Dev.emit_draws (d : Dev) (o : Out) : (d.emit o).draws = d.draws := rfl
@[simp] theorem Dev.emit_nextId (d : Dev) (o : Out) : (d.emit o).nextId = d.nextId := rfl
@[simp] theorem Dev.emit_turn (d : Dev) (o : Out) : (d.emit o).turn = d.turn := rfl
@[simp] theorem Dev.emit_bounds (d : Dev) (o : Out) : (d.emit o).bounds = d.bounds := rfl
@[simp] theorem Dev.emit_extended (d : Dev) (o : Out) : (d.emit o).extended = d.extended := rfl
@[simp] theorem Dev.emit_active (d : Dev) (o : Out) : (d.emit o).active = d.active := rfl
@[simp] theorem Dev.emit_staged (d : Dev) (o : Out) : (d.emit o).staged = d.staged := rfl
@[simp] theorem Dev.emit_retained (d : Dev) (o : Out) : (d.emit o).retained = d.retained := rfl
@[simp] theorem Dev.emit_stageFill (d : Dev) (o : Out) : (d.emit o).stageFill = d.stageFill := rfl
@[simp] theorem Dev.emit_pipes (d : Dev) (o : Out) : (d.emit o).pipes = d.pipes := rfl
@[simp] theorem Dev.emit_ports (d : Dev) (o : Out) : (d.emit o).ports = d.ports := rfl
@[simp] theorem Dev.emit_dst (d : Dev) (o : Out) : (d.emit o).dst = d.dst := rfl
@[simp] theorem Dev.emit_cells (d : Dev) (o : Out) : (d.emit o).cells = d.cells := rfl
@[simp] theorem Dev.emit_priCells (d : Dev) (o : Out) : (d.emit o).priCells = d.priCells := rfl
@[simp] theorem Dev.emit_sendWait (d : Dev) (o : Out) : (d.emit o).sendWait = d.sendWait := rfl
@[simp] theorem Dev.emit_ft (d : Dev) (o : Out) : (d.emit o).ft = d.ft := rfl
@[simp] theorem Dev.emit_rings (d : Dev) (o : Out) : (d.emit o).rings = d.rings := rfl
@[simp] theorem Dev.emit_reads (d : Dev) (o : Out) : (d.emit o).reads = d.reads := rfl
@[simp] theorem Dev.emit_msix (d : Dev) (o : Out) : (d.emit o).msix = d.msix := rfl
@[simp] theorem Dev.emit_msixFn (d : Dev) (o : Out) : (d.emit o).msixFn = d.msixFn := rfl
@[simp] theorem Dev.emit_links (d : Dev) (o : Out) : (d.emit o).links = d.links := rfl
@[simp] theorem Dev.emit_bme (d : Dev) (o : Out) : (d.emit o).bme = d.bme := rfl
@[simp] theorem Dev.emit_devCtl (d : Dev) (o : Out) : (d.emit o).devCtl = d.devCtl := rfl
@[simp] theorem Dev.emit_devCtl2 (d : Dev) (o : Out) : (d.emit o).devCtl2 = d.devCtl2 := rfl
@[simp] theorem Dev.emit_caps (d : Dev) (o : Out) : (d.emit o).caps = d.caps := rfl
@[simp] theorem Dev.emit_vfs (d : Dev) (o : Out) : (d.emit o).vfs = d.vfs := rfl
@[simp] theorem Dev.emit_tables (d : Dev) (o : Out) : (d.emit o).tables = d.tables := rfl
@[simp] theorem Dev.emit_owned (d : Dev) (o : Out) : (d.emit o).owned = d.owned := rfl
@[simp] theorem Dev.emit_scrubs (d : Dev) (o : Out) : (d.emit o).scrubs = d.scrubs := rfl
@[simp] theorem Dev.emit_sweeps (d : Dev) (o : Out) : (d.emit o).sweeps = d.sweeps := rfl
@[simp] theorem Dev.emit_faults (d : Dev) (o : Out) : (d.emit o).faults = d.faults := rfl
@[simp] theorem Dev.emit_filter (d : Dev) (o : Out) : (d.emit o).filter = d.filter := rfl
@[simp] theorem Dev.emit_lrn (d : Dev) (o : Out) : (d.emit o).lrn = d.lrn := rfl
@[simp] theorem Dev.emit_images (d : Dev) (o : Out) : (d.emit o).images = d.images := rfl
@[simp] theorem Dev.emit_autos (d : Dev) (o : Out) : (d.emit o).autos = d.autos := rfl
@[simp] theorem Dev.emit_ind (d : Dev) (o : Out) : (d.emit o).ind = d.ind := rfl
@[simp] theorem Dev.emit_coresFenced (d : Dev) (o : Out) : (d.emit o).coresFenced = d.coresFenced := rfl
@[simp] theorem Dev.emit_handing (d : Dev) (o : Out) : (d.emit o).handing = d.handing := rfl
@[simp] theorem Dev.emit_pair (d : Dev) (o : Out) : (d.emit o).pair = d.pair := rfl
@[simp] theorem Dev.emit_localOnly (d : Dev) (o : Out) : (d.emit o).localOnly = d.localOnly := rfl
@[simp] theorem Dev.emit_lanes (d : Dev) (o : Out) : (d.emit o).lanes = d.lanes := rfl
@[simp] theorem Dev.emit_entReqs (d : Dev) (o : Out) : (d.emit o).entReqs = d.entReqs := rfl
@[simp] theorem Dev.emit_entSeeds (d : Dev) (o : Out) : (d.emit o).entSeeds = d.entSeeds := rfl
@[simp] theorem Dev.emit_keys (d : Dev) (o : Out) : (d.emit o).keys = d.keys := rfl
@[simp] theorem Dev.emit_keks (d : Dev) (o : Out) : (d.emit o).keks = d.keks := rfl
@[simp] theorem Dev.emit_keyHolds (d : Dev) (o : Out) : (d.emit o).keyHolds = d.keyHolds := rfl
@[simp] theorem Dev.emit_wrapKey (d : Dev) (o : Out) : (d.emit o).wrapKey = d.wrapKey := rfl
@[simp] theorem Dev.emit_keyBusy (d : Dev) (o : Out) : (d.emit o).keyBusy = d.keyBusy := rfl
@[simp] theorem Dev.emit_keyPend (d : Dev) (o : Out) : (d.emit o).keyPend = d.keyPend := rfl
@[simp] theorem Dev.emit_keyLoadAt (d : Dev) (o : Out) : (d.emit o).keyLoadAt = d.keyLoadAt := rfl
@[simp] theorem Dev.emit_saHigh (d : Dev) (o : Out) : (d.emit o).saHigh = d.saHigh := rfl
@[simp] theorem Dev.emit_saHighReq (d : Dev) (o : Out) : (d.emit o).saHighReq = d.saHighReq := rfl
@[simp] theorem Dev.emit_saLimit (d : Dev) (o : Out) : (d.emit o).saLimit = d.saLimit := rfl
@[simp] theorem Dev.emit_saDone (d : Dev) (o : Out) : (d.emit o).saDone = d.saDone := rfl
@[simp] theorem Dev.emit_saTaken (d : Dev) (o : Out) : (d.emit o).saTaken = d.saTaken := rfl
@[simp] theorem Dev.emit_vols (d : Dev) (o : Out) : (d.emit o).vols = d.vols := rfl
@[simp] theorem Dev.emit_stores (d : Dev) (o : Out) : (d.emit o).stores = d.stores := rfl
@[simp] theorem Dev.emit_media (d : Dev) (o : Out) : (d.emit o).media = d.media := rfl
@[simp] theorem Dev.emit_tasks (d : Dev) (o : Out) : (d.emit o).tasks = d.tasks := rfl
@[simp] theorem Dev.emit_logs (d : Dev) (o : Out) : (d.emit o).logs = d.logs := rfl
@[simp] theorem Dev.emit_sreads (d : Dev) (o : Out) : (d.emit o).sreads = d.sreads := rfl
@[simp] theorem Dev.emit_swrites (d : Dev) (o : Out) : (d.emit o).swrites = d.swrites := rfl
@[simp] theorem Dev.emit_scrubVol (d : Dev) (o : Out) : (d.emit o).scrubVol = d.scrubVol := rfl
@[simp] theorem Dev.emit_scrubWin (d : Dev) (o : Out) : (d.emit o).scrubWin = d.scrubWin := rfl
@[simp] theorem Dev.emit_scrubCount (d : Dev) (o : Out) : (d.emit o).scrubCount = d.scrubCount := rfl
@[simp] theorem Dev.emit_queues (d : Dev) (o : Out) : (d.emit o).queues = d.queues := rfl
@[simp] theorem Dev.emit_qcmds (d : Dev) (o : Out) : (d.emit o).qcmds = d.qcmds := rfl
@[simp] theorem Dev.emit_qidle (d : Dev) (o : Out) : (d.emit o).qidle = d.qidle := rfl
@[simp] theorem Dev.emit_engServing (d : Dev) (o : Out) : (d.emit o).engServing = d.engServing := rfl
@[simp] theorem Dev.emit_flr (d : Dev) (o : Out) : (d.emit o).flr = d.flr := rfl
@[simp] theorem Dev.emit_late (d : Dev) (o : Out) : (d.emit o).late = d.late := rfl
@[simp] theorem Dev.emit_ownerMove (d : Dev) (o : Out) : (d.emit o).ownerMove = d.ownerMove := rfl
@[simp] theorem Dev.emit_activation (d : Dev) (o : Out) : (d.emit o).activation = d.activation := rfl
@[simp] theorem Dev.emit_flashOp (d : Dev) (o : Out) : (d.emit o).flashOp = d.flashOp := rfl
@[simp] theorem Dev.emit_rollback (d : Dev) (o : Out) : (d.emit o).rollback = d.rollback := rfl
@[simp] theorem Dev.emit_windows (d : Dev) (o : Out) : (d.emit o).windows = d.windows := rfl
@[simp] theorem Dev.emit_locking (d : Dev) (o : Out) : (d.emit o).locking = d.locking := rfl
@[simp] theorem Dev.emit_lossSince (d : Dev) (o : Out) : (d.emit o).lossSince = d.lossSince := rfl
@[simp] theorem Dev.emit_domSwitch (d : Dev) (o : Out) : (d.emit o).domSwitch = d.domSwitch := rfl
@[simp] theorem Dev.emit_ocLevel (d : Dev) (o : Out) : (d.emit o).ocLevel = d.ocLevel := rfl
@[simp] theorem Dev.emit_dead (d : Dev) (o : Out) : (d.emit o).dead = d.dead := rfl
@[simp] theorem Dev.emit_resetHeld (d : Dev) (o : Out) : (d.emit o).resetHeld = d.resetHeld := rfl
@[simp] theorem Dev.emit_tripped (d : Dev) (o : Out) : (d.emit o).tripped = d.tripped := rfl
@[simp] theorem Dev.emit_tap (d : Dev) (o : Out) : (d.emit o).tap = d.tap := rfl
@[simp] theorem Dev.emit_mbus (d : Dev) (o : Out) : (d.emit o).mbus = d.mbus := rfl
@[simp] theorem Dev.emit_bootRec (d : Dev) (o : Out) : (d.emit o).bootRec = d.bootRec := rfl
@[simp] theorem Dev.emit_drpCfg (d : Dev) (o : Out) : (d.emit o).drpCfg = d.drpCfg := rfl
@[simp] theorem Dev.emit_drives (d : Dev) (o : Out) : (d.emit o).drives = d.drives := rfl
@[simp] theorem Dev.emit_console (d : Dev) (o : Out) : (d.emit o).console = d.console := rfl
@[simp] theorem Dev.emit_txUsed (d : Dev) (o : Out) : (d.emit o).txUsed = d.txUsed := rfl
@[simp] theorem Dev.emit_blkDeficit (d : Dev) (o : Out) : (d.emit o).blkDeficit = d.blkDeficit := rfl
@[simp] theorem Dev.emit_qTaken (d : Dev) (o : Out) : (d.emit o).qTaken = d.qTaken := rfl

/-! ### `Dev.hbmWrite` -/

@[simp] theorem Dev.hbmWrite_regs (d : Dev) (a : Nat) (bs : List Byte) : (d.hbmWrite a bs).regs = d.regs := rfl
@[simp] theorem Dev.hbmWrite_hbm (d : Dev) (a : Nat) (bs : List Byte) : (d.hbmWrite a bs).hbm = hbmPut d.hbm a bs := rfl
@[simp] theorem Dev.hbmWrite_ecc (d : Dev) (a : Nat) (bs : List Byte) : (d.hbmWrite a bs).ecc = d.ecc := rfl
@[simp] theorem Dev.hbmWrite_flash (d : Dev) (a : Nat) (bs : List Byte) : (d.hbmWrite a bs).flash = d.flash := rfl
@[simp] theorem Dev.hbmWrite_out (d : Dev) (a : Nat) (bs : List Byte) : (d.hbmWrite a bs).out = d.out := rfl
@[simp] theorem Dev.hbmWrite_draws (d : Dev) (a : Nat) (bs : List Byte) : (d.hbmWrite a bs).draws = d.draws := rfl
@[simp] theorem Dev.hbmWrite_nextId (d : Dev) (a : Nat) (bs : List Byte) : (d.hbmWrite a bs).nextId = d.nextId := rfl
@[simp] theorem Dev.hbmWrite_turn (d : Dev) (a : Nat) (bs : List Byte) : (d.hbmWrite a bs).turn = d.turn := rfl
@[simp] theorem Dev.hbmWrite_bounds (d : Dev) (a : Nat) (bs : List Byte) : (d.hbmWrite a bs).bounds = d.bounds := rfl
@[simp] theorem Dev.hbmWrite_extended (d : Dev) (a : Nat) (bs : List Byte) : (d.hbmWrite a bs).extended = d.extended := rfl
@[simp] theorem Dev.hbmWrite_active (d : Dev) (a : Nat) (bs : List Byte) : (d.hbmWrite a bs).active = d.active := rfl
@[simp] theorem Dev.hbmWrite_staged (d : Dev) (a : Nat) (bs : List Byte) : (d.hbmWrite a bs).staged = d.staged := rfl
@[simp] theorem Dev.hbmWrite_retained (d : Dev) (a : Nat) (bs : List Byte) : (d.hbmWrite a bs).retained = d.retained := rfl
@[simp] theorem Dev.hbmWrite_stageFill (d : Dev) (a : Nat) (bs : List Byte) : (d.hbmWrite a bs).stageFill = d.stageFill := rfl
@[simp] theorem Dev.hbmWrite_pipes (d : Dev) (a : Nat) (bs : List Byte) : (d.hbmWrite a bs).pipes = d.pipes := rfl
@[simp] theorem Dev.hbmWrite_ports (d : Dev) (a : Nat) (bs : List Byte) : (d.hbmWrite a bs).ports = d.ports := rfl
@[simp] theorem Dev.hbmWrite_dst (d : Dev) (a : Nat) (bs : List Byte) : (d.hbmWrite a bs).dst = d.dst := rfl
@[simp] theorem Dev.hbmWrite_cells (d : Dev) (a : Nat) (bs : List Byte) : (d.hbmWrite a bs).cells = d.cells := rfl
@[simp] theorem Dev.hbmWrite_priCells (d : Dev) (a : Nat) (bs : List Byte) : (d.hbmWrite a bs).priCells = d.priCells := rfl
@[simp] theorem Dev.hbmWrite_sendWait (d : Dev) (a : Nat) (bs : List Byte) : (d.hbmWrite a bs).sendWait = d.sendWait := rfl
@[simp] theorem Dev.hbmWrite_ft (d : Dev) (a : Nat) (bs : List Byte) : (d.hbmWrite a bs).ft = d.ft := rfl
@[simp] theorem Dev.hbmWrite_rings (d : Dev) (a : Nat) (bs : List Byte) : (d.hbmWrite a bs).rings = d.rings := rfl
@[simp] theorem Dev.hbmWrite_reads (d : Dev) (a : Nat) (bs : List Byte) : (d.hbmWrite a bs).reads = d.reads := rfl
@[simp] theorem Dev.hbmWrite_msix (d : Dev) (a : Nat) (bs : List Byte) : (d.hbmWrite a bs).msix = d.msix := rfl
@[simp] theorem Dev.hbmWrite_msixFn (d : Dev) (a : Nat) (bs : List Byte) : (d.hbmWrite a bs).msixFn = d.msixFn := rfl
@[simp] theorem Dev.hbmWrite_links (d : Dev) (a : Nat) (bs : List Byte) : (d.hbmWrite a bs).links = d.links := rfl
@[simp] theorem Dev.hbmWrite_bme (d : Dev) (a : Nat) (bs : List Byte) : (d.hbmWrite a bs).bme = d.bme := rfl
@[simp] theorem Dev.hbmWrite_devCtl (d : Dev) (a : Nat) (bs : List Byte) : (d.hbmWrite a bs).devCtl = d.devCtl := rfl
@[simp] theorem Dev.hbmWrite_devCtl2 (d : Dev) (a : Nat) (bs : List Byte) : (d.hbmWrite a bs).devCtl2 = d.devCtl2 := rfl
@[simp] theorem Dev.hbmWrite_caps (d : Dev) (a : Nat) (bs : List Byte) : (d.hbmWrite a bs).caps = d.caps := rfl
@[simp] theorem Dev.hbmWrite_vfs (d : Dev) (a : Nat) (bs : List Byte) : (d.hbmWrite a bs).vfs = d.vfs := rfl
@[simp] theorem Dev.hbmWrite_tables (d : Dev) (a : Nat) (bs : List Byte) : (d.hbmWrite a bs).tables = d.tables := rfl
@[simp] theorem Dev.hbmWrite_owned (d : Dev) (a : Nat) (bs : List Byte) : (d.hbmWrite a bs).owned = d.owned := rfl
@[simp] theorem Dev.hbmWrite_scrubs (d : Dev) (a : Nat) (bs : List Byte) : (d.hbmWrite a bs).scrubs = d.scrubs := rfl
@[simp] theorem Dev.hbmWrite_sweeps (d : Dev) (a : Nat) (bs : List Byte) : (d.hbmWrite a bs).sweeps = d.sweeps := rfl
@[simp] theorem Dev.hbmWrite_faults (d : Dev) (a : Nat) (bs : List Byte) : (d.hbmWrite a bs).faults = d.faults := rfl
@[simp] theorem Dev.hbmWrite_filter (d : Dev) (a : Nat) (bs : List Byte) : (d.hbmWrite a bs).filter = d.filter := rfl
@[simp] theorem Dev.hbmWrite_lrn (d : Dev) (a : Nat) (bs : List Byte) : (d.hbmWrite a bs).lrn = d.lrn := rfl
@[simp] theorem Dev.hbmWrite_images (d : Dev) (a : Nat) (bs : List Byte) : (d.hbmWrite a bs).images = d.images := rfl
@[simp] theorem Dev.hbmWrite_autos (d : Dev) (a : Nat) (bs : List Byte) : (d.hbmWrite a bs).autos = d.autos := rfl
@[simp] theorem Dev.hbmWrite_ind (d : Dev) (a : Nat) (bs : List Byte) : (d.hbmWrite a bs).ind = d.ind := rfl
@[simp] theorem Dev.hbmWrite_coresFenced (d : Dev) (a : Nat) (bs : List Byte) : (d.hbmWrite a bs).coresFenced = d.coresFenced := rfl
@[simp] theorem Dev.hbmWrite_handing (d : Dev) (a : Nat) (bs : List Byte) : (d.hbmWrite a bs).handing = d.handing := rfl
@[simp] theorem Dev.hbmWrite_pair (d : Dev) (a : Nat) (bs : List Byte) : (d.hbmWrite a bs).pair = d.pair := rfl
@[simp] theorem Dev.hbmWrite_localOnly (d : Dev) (a : Nat) (bs : List Byte) : (d.hbmWrite a bs).localOnly = d.localOnly := rfl
@[simp] theorem Dev.hbmWrite_lanes (d : Dev) (a : Nat) (bs : List Byte) : (d.hbmWrite a bs).lanes = d.lanes := rfl
@[simp] theorem Dev.hbmWrite_entReqs (d : Dev) (a : Nat) (bs : List Byte) : (d.hbmWrite a bs).entReqs = d.entReqs := rfl
@[simp] theorem Dev.hbmWrite_entSeeds (d : Dev) (a : Nat) (bs : List Byte) : (d.hbmWrite a bs).entSeeds = d.entSeeds := rfl
@[simp] theorem Dev.hbmWrite_keys (d : Dev) (a : Nat) (bs : List Byte) : (d.hbmWrite a bs).keys = d.keys := rfl
@[simp] theorem Dev.hbmWrite_keks (d : Dev) (a : Nat) (bs : List Byte) : (d.hbmWrite a bs).keks = d.keks := rfl
@[simp] theorem Dev.hbmWrite_keyHolds (d : Dev) (a : Nat) (bs : List Byte) : (d.hbmWrite a bs).keyHolds = d.keyHolds := rfl
@[simp] theorem Dev.hbmWrite_wrapKey (d : Dev) (a : Nat) (bs : List Byte) : (d.hbmWrite a bs).wrapKey = d.wrapKey := rfl
@[simp] theorem Dev.hbmWrite_keyBusy (d : Dev) (a : Nat) (bs : List Byte) : (d.hbmWrite a bs).keyBusy = d.keyBusy := rfl
@[simp] theorem Dev.hbmWrite_keyPend (d : Dev) (a : Nat) (bs : List Byte) : (d.hbmWrite a bs).keyPend = d.keyPend := rfl
@[simp] theorem Dev.hbmWrite_keyLoadAt (d : Dev) (a : Nat) (bs : List Byte) : (d.hbmWrite a bs).keyLoadAt = d.keyLoadAt := rfl
@[simp] theorem Dev.hbmWrite_saHigh (d : Dev) (a : Nat) (bs : List Byte) : (d.hbmWrite a bs).saHigh = d.saHigh := rfl
@[simp] theorem Dev.hbmWrite_saHighReq (d : Dev) (a : Nat) (bs : List Byte) : (d.hbmWrite a bs).saHighReq = d.saHighReq := rfl
@[simp] theorem Dev.hbmWrite_saLimit (d : Dev) (a : Nat) (bs : List Byte) : (d.hbmWrite a bs).saLimit = d.saLimit := rfl
@[simp] theorem Dev.hbmWrite_saDone (d : Dev) (a : Nat) (bs : List Byte) : (d.hbmWrite a bs).saDone = d.saDone := rfl
@[simp] theorem Dev.hbmWrite_saTaken (d : Dev) (a : Nat) (bs : List Byte) : (d.hbmWrite a bs).saTaken = d.saTaken := rfl
@[simp] theorem Dev.hbmWrite_vols (d : Dev) (a : Nat) (bs : List Byte) : (d.hbmWrite a bs).vols = d.vols := rfl
@[simp] theorem Dev.hbmWrite_stores (d : Dev) (a : Nat) (bs : List Byte) : (d.hbmWrite a bs).stores = d.stores := rfl
@[simp] theorem Dev.hbmWrite_media (d : Dev) (a : Nat) (bs : List Byte) : (d.hbmWrite a bs).media = d.media := rfl
@[simp] theorem Dev.hbmWrite_tasks (d : Dev) (a : Nat) (bs : List Byte) : (d.hbmWrite a bs).tasks = d.tasks := rfl
@[simp] theorem Dev.hbmWrite_logs (d : Dev) (a : Nat) (bs : List Byte) : (d.hbmWrite a bs).logs = d.logs := rfl
@[simp] theorem Dev.hbmWrite_sreads (d : Dev) (a : Nat) (bs : List Byte) : (d.hbmWrite a bs).sreads = d.sreads := rfl
@[simp] theorem Dev.hbmWrite_swrites (d : Dev) (a : Nat) (bs : List Byte) : (d.hbmWrite a bs).swrites = d.swrites := rfl
@[simp] theorem Dev.hbmWrite_scrubVol (d : Dev) (a : Nat) (bs : List Byte) : (d.hbmWrite a bs).scrubVol = d.scrubVol := rfl
@[simp] theorem Dev.hbmWrite_scrubWin (d : Dev) (a : Nat) (bs : List Byte) : (d.hbmWrite a bs).scrubWin = d.scrubWin := rfl
@[simp] theorem Dev.hbmWrite_scrubCount (d : Dev) (a : Nat) (bs : List Byte) : (d.hbmWrite a bs).scrubCount = d.scrubCount := rfl
@[simp] theorem Dev.hbmWrite_queues (d : Dev) (a : Nat) (bs : List Byte) : (d.hbmWrite a bs).queues = d.queues := rfl
@[simp] theorem Dev.hbmWrite_qcmds (d : Dev) (a : Nat) (bs : List Byte) : (d.hbmWrite a bs).qcmds = d.qcmds := rfl
@[simp] theorem Dev.hbmWrite_qidle (d : Dev) (a : Nat) (bs : List Byte) : (d.hbmWrite a bs).qidle = d.qidle := rfl
@[simp] theorem Dev.hbmWrite_engServing (d : Dev) (a : Nat) (bs : List Byte) : (d.hbmWrite a bs).engServing = d.engServing := rfl
@[simp] theorem Dev.hbmWrite_flr (d : Dev) (a : Nat) (bs : List Byte) : (d.hbmWrite a bs).flr = d.flr := rfl
@[simp] theorem Dev.hbmWrite_late (d : Dev) (a : Nat) (bs : List Byte) : (d.hbmWrite a bs).late = d.late := rfl
@[simp] theorem Dev.hbmWrite_ownerMove (d : Dev) (a : Nat) (bs : List Byte) : (d.hbmWrite a bs).ownerMove = d.ownerMove := rfl
@[simp] theorem Dev.hbmWrite_activation (d : Dev) (a : Nat) (bs : List Byte) : (d.hbmWrite a bs).activation = d.activation := rfl
@[simp] theorem Dev.hbmWrite_flashOp (d : Dev) (a : Nat) (bs : List Byte) : (d.hbmWrite a bs).flashOp = d.flashOp := rfl
@[simp] theorem Dev.hbmWrite_rollback (d : Dev) (a : Nat) (bs : List Byte) : (d.hbmWrite a bs).rollback = d.rollback := rfl
@[simp] theorem Dev.hbmWrite_windows (d : Dev) (a : Nat) (bs : List Byte) : (d.hbmWrite a bs).windows = d.windows := rfl
@[simp] theorem Dev.hbmWrite_locking (d : Dev) (a : Nat) (bs : List Byte) : (d.hbmWrite a bs).locking = d.locking := rfl
@[simp] theorem Dev.hbmWrite_lossSince (d : Dev) (a : Nat) (bs : List Byte) : (d.hbmWrite a bs).lossSince = d.lossSince := rfl
@[simp] theorem Dev.hbmWrite_domSwitch (d : Dev) (a : Nat) (bs : List Byte) : (d.hbmWrite a bs).domSwitch = d.domSwitch := rfl
@[simp] theorem Dev.hbmWrite_ocLevel (d : Dev) (a : Nat) (bs : List Byte) : (d.hbmWrite a bs).ocLevel = d.ocLevel := rfl
@[simp] theorem Dev.hbmWrite_dead (d : Dev) (a : Nat) (bs : List Byte) : (d.hbmWrite a bs).dead = d.dead := rfl
@[simp] theorem Dev.hbmWrite_resetHeld (d : Dev) (a : Nat) (bs : List Byte) : (d.hbmWrite a bs).resetHeld = d.resetHeld := rfl
@[simp] theorem Dev.hbmWrite_tripped (d : Dev) (a : Nat) (bs : List Byte) : (d.hbmWrite a bs).tripped = d.tripped := rfl
@[simp] theorem Dev.hbmWrite_tap (d : Dev) (a : Nat) (bs : List Byte) : (d.hbmWrite a bs).tap = d.tap := rfl
@[simp] theorem Dev.hbmWrite_mbus (d : Dev) (a : Nat) (bs : List Byte) : (d.hbmWrite a bs).mbus = d.mbus := rfl
@[simp] theorem Dev.hbmWrite_bootRec (d : Dev) (a : Nat) (bs : List Byte) : (d.hbmWrite a bs).bootRec = d.bootRec := rfl
@[simp] theorem Dev.hbmWrite_drpCfg (d : Dev) (a : Nat) (bs : List Byte) : (d.hbmWrite a bs).drpCfg = d.drpCfg := rfl
@[simp] theorem Dev.hbmWrite_drives (d : Dev) (a : Nat) (bs : List Byte) : (d.hbmWrite a bs).drives = d.drives := rfl
@[simp] theorem Dev.hbmWrite_console (d : Dev) (a : Nat) (bs : List Byte) : (d.hbmWrite a bs).console = d.console := rfl
@[simp] theorem Dev.hbmWrite_txUsed (d : Dev) (a : Nat) (bs : List Byte) : (d.hbmWrite a bs).txUsed = d.txUsed := rfl
@[simp] theorem Dev.hbmWrite_blkDeficit (d : Dev) (a : Nat) (bs : List Byte) : (d.hbmWrite a bs).blkDeficit = d.blkDeficit := rfl
@[simp] theorem Dev.hbmWrite_qTaken (d : Dev) (a : Nat) (bs : List Byte) : (d.hbmWrite a bs).qTaken = d.qTaken := rfl

/-! ### `Dev.cellFree` -/

@[simp] theorem Dev.cellFree_regs (d : Dev) (s n : Nat) : (d.cellFree s n).regs = d.regs := rfl
@[simp] theorem Dev.cellFree_hbm (d : Dev) (s n : Nat) : (d.cellFree s n).hbm = d.hbm := rfl
@[simp] theorem Dev.cellFree_ecc (d : Dev) (s n : Nat) : (d.cellFree s n).ecc = d.ecc := rfl
@[simp] theorem Dev.cellFree_flash (d : Dev) (s n : Nat) : (d.cellFree s n).flash = d.flash := rfl
@[simp] theorem Dev.cellFree_out (d : Dev) (s n : Nat) : (d.cellFree s n).out = d.out := rfl
@[simp] theorem Dev.cellFree_draws (d : Dev) (s n : Nat) : (d.cellFree s n).draws = d.draws := rfl
@[simp] theorem Dev.cellFree_nextId (d : Dev) (s n : Nat) : (d.cellFree s n).nextId = d.nextId := rfl
@[simp] theorem Dev.cellFree_turn (d : Dev) (s n : Nat) : (d.cellFree s n).turn = d.turn := rfl
@[simp] theorem Dev.cellFree_bounds (d : Dev) (s n : Nat) : (d.cellFree s n).bounds = d.bounds := rfl
@[simp] theorem Dev.cellFree_extended (d : Dev) (s n : Nat) : (d.cellFree s n).extended = d.extended := rfl
@[simp] theorem Dev.cellFree_active (d : Dev) (s n : Nat) : (d.cellFree s n).active = d.active := rfl
@[simp] theorem Dev.cellFree_staged (d : Dev) (s n : Nat) : (d.cellFree s n).staged = d.staged := rfl
@[simp] theorem Dev.cellFree_retained (d : Dev) (s n : Nat) : (d.cellFree s n).retained = d.retained := rfl
@[simp] theorem Dev.cellFree_stageFill (d : Dev) (s n : Nat) : (d.cellFree s n).stageFill = d.stageFill := rfl
@[simp] theorem Dev.cellFree_pipes (d : Dev) (s n : Nat) : (d.cellFree s n).pipes = d.pipes := rfl
@[simp] theorem Dev.cellFree_ports (d : Dev) (s n : Nat) : (d.cellFree s n).ports = d.ports := rfl
@[simp] theorem Dev.cellFree_dst (d : Dev) (s n : Nat) : (d.cellFree s n).dst = d.dst := rfl
@[simp] theorem Dev.cellFree_cells (d : Dev) (s n : Nat) : (d.cellFree s n).cells = d.cells.set s (d.cellsUsed s - n) 0 := rfl
@[simp] theorem Dev.cellFree_priCells (d : Dev) (s n : Nat) : (d.cellFree s n).priCells = d.priCells := rfl
@[simp] theorem Dev.cellFree_sendWait (d : Dev) (s n : Nat) : (d.cellFree s n).sendWait = d.sendWait := rfl
@[simp] theorem Dev.cellFree_ft (d : Dev) (s n : Nat) : (d.cellFree s n).ft = d.ft := rfl
@[simp] theorem Dev.cellFree_rings (d : Dev) (s n : Nat) : (d.cellFree s n).rings = d.rings := rfl
@[simp] theorem Dev.cellFree_reads (d : Dev) (s n : Nat) : (d.cellFree s n).reads = d.reads := rfl
@[simp] theorem Dev.cellFree_msix (d : Dev) (s n : Nat) : (d.cellFree s n).msix = d.msix := rfl
@[simp] theorem Dev.cellFree_msixFn (d : Dev) (s n : Nat) : (d.cellFree s n).msixFn = d.msixFn := rfl
@[simp] theorem Dev.cellFree_links (d : Dev) (s n : Nat) : (d.cellFree s n).links = d.links := rfl
@[simp] theorem Dev.cellFree_bme (d : Dev) (s n : Nat) : (d.cellFree s n).bme = d.bme := rfl
@[simp] theorem Dev.cellFree_devCtl (d : Dev) (s n : Nat) : (d.cellFree s n).devCtl = d.devCtl := rfl
@[simp] theorem Dev.cellFree_devCtl2 (d : Dev) (s n : Nat) : (d.cellFree s n).devCtl2 = d.devCtl2 := rfl
@[simp] theorem Dev.cellFree_caps (d : Dev) (s n : Nat) : (d.cellFree s n).caps = d.caps := rfl
@[simp] theorem Dev.cellFree_vfs (d : Dev) (s n : Nat) : (d.cellFree s n).vfs = d.vfs := rfl
@[simp] theorem Dev.cellFree_tables (d : Dev) (s n : Nat) : (d.cellFree s n).tables = d.tables := rfl
@[simp] theorem Dev.cellFree_owned (d : Dev) (s n : Nat) : (d.cellFree s n).owned = d.owned := rfl
@[simp] theorem Dev.cellFree_scrubs (d : Dev) (s n : Nat) : (d.cellFree s n).scrubs = d.scrubs := rfl
@[simp] theorem Dev.cellFree_sweeps (d : Dev) (s n : Nat) : (d.cellFree s n).sweeps = d.sweeps := rfl
@[simp] theorem Dev.cellFree_faults (d : Dev) (s n : Nat) : (d.cellFree s n).faults = d.faults := rfl
@[simp] theorem Dev.cellFree_filter (d : Dev) (s n : Nat) : (d.cellFree s n).filter = d.filter := rfl
@[simp] theorem Dev.cellFree_lrn (d : Dev) (s n : Nat) : (d.cellFree s n).lrn = d.lrn := rfl
@[simp] theorem Dev.cellFree_images (d : Dev) (s n : Nat) : (d.cellFree s n).images = d.images := rfl
@[simp] theorem Dev.cellFree_autos (d : Dev) (s n : Nat) : (d.cellFree s n).autos = d.autos := rfl
@[simp] theorem Dev.cellFree_ind (d : Dev) (s n : Nat) : (d.cellFree s n).ind = d.ind := rfl
@[simp] theorem Dev.cellFree_coresFenced (d : Dev) (s n : Nat) : (d.cellFree s n).coresFenced = d.coresFenced := rfl
@[simp] theorem Dev.cellFree_handing (d : Dev) (s n : Nat) : (d.cellFree s n).handing = d.handing := rfl
@[simp] theorem Dev.cellFree_pair (d : Dev) (s n : Nat) : (d.cellFree s n).pair = d.pair := rfl
@[simp] theorem Dev.cellFree_localOnly (d : Dev) (s n : Nat) : (d.cellFree s n).localOnly = d.localOnly := rfl
@[simp] theorem Dev.cellFree_lanes (d : Dev) (s n : Nat) : (d.cellFree s n).lanes = d.lanes := rfl
@[simp] theorem Dev.cellFree_entReqs (d : Dev) (s n : Nat) : (d.cellFree s n).entReqs = d.entReqs := rfl
@[simp] theorem Dev.cellFree_entSeeds (d : Dev) (s n : Nat) : (d.cellFree s n).entSeeds = d.entSeeds := rfl
@[simp] theorem Dev.cellFree_keys (d : Dev) (s n : Nat) : (d.cellFree s n).keys = d.keys := rfl
@[simp] theorem Dev.cellFree_keks (d : Dev) (s n : Nat) : (d.cellFree s n).keks = d.keks := rfl
@[simp] theorem Dev.cellFree_keyHolds (d : Dev) (s n : Nat) : (d.cellFree s n).keyHolds = d.keyHolds := rfl
@[simp] theorem Dev.cellFree_wrapKey (d : Dev) (s n : Nat) : (d.cellFree s n).wrapKey = d.wrapKey := rfl
@[simp] theorem Dev.cellFree_keyBusy (d : Dev) (s n : Nat) : (d.cellFree s n).keyBusy = d.keyBusy := rfl
@[simp] theorem Dev.cellFree_keyPend (d : Dev) (s n : Nat) : (d.cellFree s n).keyPend = d.keyPend := rfl
@[simp] theorem Dev.cellFree_keyLoadAt (d : Dev) (s n : Nat) : (d.cellFree s n).keyLoadAt = d.keyLoadAt := rfl
@[simp] theorem Dev.cellFree_saHigh (d : Dev) (s n : Nat) : (d.cellFree s n).saHigh = d.saHigh := rfl
@[simp] theorem Dev.cellFree_saHighReq (d : Dev) (s n : Nat) : (d.cellFree s n).saHighReq = d.saHighReq := rfl
@[simp] theorem Dev.cellFree_saLimit (d : Dev) (s n : Nat) : (d.cellFree s n).saLimit = d.saLimit := rfl
@[simp] theorem Dev.cellFree_saDone (d : Dev) (s n : Nat) : (d.cellFree s n).saDone = d.saDone := rfl
@[simp] theorem Dev.cellFree_saTaken (d : Dev) (s n : Nat) : (d.cellFree s n).saTaken = d.saTaken := rfl
@[simp] theorem Dev.cellFree_vols (d : Dev) (s n : Nat) : (d.cellFree s n).vols = d.vols := rfl
@[simp] theorem Dev.cellFree_stores (d : Dev) (s n : Nat) : (d.cellFree s n).stores = d.stores := rfl
@[simp] theorem Dev.cellFree_media (d : Dev) (s n : Nat) : (d.cellFree s n).media = d.media := rfl
@[simp] theorem Dev.cellFree_tasks (d : Dev) (s n : Nat) : (d.cellFree s n).tasks = d.tasks := rfl
@[simp] theorem Dev.cellFree_logs (d : Dev) (s n : Nat) : (d.cellFree s n).logs = d.logs := rfl
@[simp] theorem Dev.cellFree_sreads (d : Dev) (s n : Nat) : (d.cellFree s n).sreads = d.sreads := rfl
@[simp] theorem Dev.cellFree_swrites (d : Dev) (s n : Nat) : (d.cellFree s n).swrites = d.swrites := rfl
@[simp] theorem Dev.cellFree_scrubVol (d : Dev) (s n : Nat) : (d.cellFree s n).scrubVol = d.scrubVol := rfl
@[simp] theorem Dev.cellFree_scrubWin (d : Dev) (s n : Nat) : (d.cellFree s n).scrubWin = d.scrubWin := rfl
@[simp] theorem Dev.cellFree_scrubCount (d : Dev) (s n : Nat) : (d.cellFree s n).scrubCount = d.scrubCount := rfl
@[simp] theorem Dev.cellFree_queues (d : Dev) (s n : Nat) : (d.cellFree s n).queues = d.queues := rfl
@[simp] theorem Dev.cellFree_qcmds (d : Dev) (s n : Nat) : (d.cellFree s n).qcmds = d.qcmds := rfl
@[simp] theorem Dev.cellFree_qidle (d : Dev) (s n : Nat) : (d.cellFree s n).qidle = d.qidle := rfl
@[simp] theorem Dev.cellFree_engServing (d : Dev) (s n : Nat) : (d.cellFree s n).engServing = d.engServing := rfl
@[simp] theorem Dev.cellFree_flr (d : Dev) (s n : Nat) : (d.cellFree s n).flr = d.flr := rfl
@[simp] theorem Dev.cellFree_late (d : Dev) (s n : Nat) : (d.cellFree s n).late = d.late := rfl
@[simp] theorem Dev.cellFree_ownerMove (d : Dev) (s n : Nat) : (d.cellFree s n).ownerMove = d.ownerMove := rfl
@[simp] theorem Dev.cellFree_activation (d : Dev) (s n : Nat) : (d.cellFree s n).activation = d.activation := rfl
@[simp] theorem Dev.cellFree_flashOp (d : Dev) (s n : Nat) : (d.cellFree s n).flashOp = d.flashOp := rfl
@[simp] theorem Dev.cellFree_rollback (d : Dev) (s n : Nat) : (d.cellFree s n).rollback = d.rollback := rfl
@[simp] theorem Dev.cellFree_windows (d : Dev) (s n : Nat) : (d.cellFree s n).windows = d.windows := rfl
@[simp] theorem Dev.cellFree_locking (d : Dev) (s n : Nat) : (d.cellFree s n).locking = d.locking := rfl
@[simp] theorem Dev.cellFree_lossSince (d : Dev) (s n : Nat) : (d.cellFree s n).lossSince = d.lossSince := rfl
@[simp] theorem Dev.cellFree_domSwitch (d : Dev) (s n : Nat) : (d.cellFree s n).domSwitch = d.domSwitch := rfl
@[simp] theorem Dev.cellFree_ocLevel (d : Dev) (s n : Nat) : (d.cellFree s n).ocLevel = d.ocLevel := rfl
@[simp] theorem Dev.cellFree_dead (d : Dev) (s n : Nat) : (d.cellFree s n).dead = d.dead := rfl
@[simp] theorem Dev.cellFree_resetHeld (d : Dev) (s n : Nat) : (d.cellFree s n).resetHeld = d.resetHeld := rfl
@[simp] theorem Dev.cellFree_tripped (d : Dev) (s n : Nat) : (d.cellFree s n).tripped = d.tripped := rfl
@[simp] theorem Dev.cellFree_tap (d : Dev) (s n : Nat) : (d.cellFree s n).tap = d.tap := rfl
@[simp] theorem Dev.cellFree_mbus (d : Dev) (s n : Nat) : (d.cellFree s n).mbus = d.mbus := rfl
@[simp] theorem Dev.cellFree_bootRec (d : Dev) (s n : Nat) : (d.cellFree s n).bootRec = d.bootRec := rfl
@[simp] theorem Dev.cellFree_drpCfg (d : Dev) (s n : Nat) : (d.cellFree s n).drpCfg = d.drpCfg := rfl
@[simp] theorem Dev.cellFree_drives (d : Dev) (s n : Nat) : (d.cellFree s n).drives = d.drives := rfl
@[simp] theorem Dev.cellFree_console (d : Dev) (s n : Nat) : (d.cellFree s n).console = d.console := rfl
@[simp] theorem Dev.cellFree_txUsed (d : Dev) (s n : Nat) : (d.cellFree s n).txUsed = d.txUsed := rfl
@[simp] theorem Dev.cellFree_blkDeficit (d : Dev) (s n : Nat) : (d.cellFree s n).blkDeficit = d.blkDeficit := rfl
@[simp] theorem Dev.cellFree_qTaken (d : Dev) (s n : Nat) : (d.cellFree s n).qTaken = d.qTaken := rfl

/-! ### The time state -/

@[simp] theorem TimeSt.update_count (t : TimeSt) : t.update.count = t.count := rfl
@[simp] theorem TimeSt.update_incr (t : TimeSt) : t.update.incr = t.incr := rfl
@[simp] theorem TimeSt.update_slewIncr (t : TimeSt) : t.update.slewIncr = t.slewIncr := rfl
@[simp] theorem TimeSt.update_slewLeft (t : TimeSt) : t.update.slewLeft = t.slewLeft := rfl
@[simp] theorem TimeSt.update_remain (t : TimeSt) : t.update.remain = t.remain := rfl
@[simp] theorem TimeSt.update_load0 (t : TimeSt) : t.update.load0 = t.load0 := rfl
@[simp] theorem TimeSt.update_latches (t : TimeSt) : t.update.latches = t.latches := rfl
@[simp] theorem TimeSt.update_valid (t : TimeSt) : t.update.valid = t.valid := rfl
@[simp] theorem TimeSt.update_holdover (t : TimeSt) : t.update.holdover = (false) := rfl
@[simp] theorem TimeSt.update_holdLong (t : TimeSt) : t.update.holdLong = (false) := rfl
@[simp] theorem TimeSt.update_lossSinceLock (t : TimeSt) : t.update.lossSinceLock = t.lossSinceLock := rfl
@[simp] theorem TimeSt.update_coast (t : TimeSt) : t.update.coast = t.coast := rfl
@[simp] theorem TimeSt.update_servo (t : TimeSt) : t.update.servo = (if t.servo = .holdover then .acquiring else t.servo) := rfl
@[simp] theorem TimeSt.update_inLock (t : TimeSt) : t.update.inLock = t.inLock := rfl
@[simp] theorem TimeSt.update_outLock (t : TimeSt) : t.update.outLock = t.outLock := rfl
@[simp] theorem TimeSt.update_ftOffset (t : TimeSt) : t.update.ftOffset = t.ftOffset := rfl
@[simp] theorem TimeSt.update_ftMaster (t : TimeSt) : t.update.ftMaster = t.ftMaster := rfl
@[simp] theorem TimeSt.update_ftPort (t : TimeSt) : t.update.ftPort = t.ftPort := rfl
@[simp] theorem TimeSt.update_tpo (t : TimeSt) : t.update.tpo = t.tpo := rfl
@[simp] theorem TimeSt.update_tciFifo (t : TimeSt) : t.update.tciFifo = t.tciFifo := rfl
@[simp] theorem TimeSt.update_tciHold (t : TimeSt) : t.update.tciHold = t.tciHold := rfl
@[simp] theorem TimeSt.setTpo_count (t : TimeSt) (n : Nat) (o : TpoSt) : (t.setTpo n o).count = t.count := rfl
@[simp] theorem TimeSt.setTpo_incr (t : TimeSt) (n : Nat) (o : TpoSt) : (t.setTpo n o).incr = t.incr := rfl
@[simp] theorem TimeSt.setTpo_slewIncr (t : TimeSt) (n : Nat) (o : TpoSt) : (t.setTpo n o).slewIncr = t.slewIncr := rfl
@[simp] theorem TimeSt.setTpo_slewLeft (t : TimeSt) (n : Nat) (o : TpoSt) : (t.setTpo n o).slewLeft = t.slewLeft := rfl
@[simp] theorem TimeSt.setTpo_remain (t : TimeSt) (n : Nat) (o : TpoSt) : (t.setTpo n o).remain = t.remain := rfl
@[simp] theorem TimeSt.setTpo_load0 (t : TimeSt) (n : Nat) (o : TpoSt) : (t.setTpo n o).load0 = t.load0 := rfl
@[simp] theorem TimeSt.setTpo_latches (t : TimeSt) (n : Nat) (o : TpoSt) : (t.setTpo n o).latches = t.latches := rfl
@[simp] theorem TimeSt.setTpo_valid (t : TimeSt) (n : Nat) (o : TpoSt) : (t.setTpo n o).valid = t.valid := rfl
@[simp] theorem TimeSt.setTpo_holdover (t : TimeSt) (n : Nat) (o : TpoSt) : (t.setTpo n o).holdover = t.holdover := rfl
@[simp] theorem TimeSt.setTpo_holdLong (t : TimeSt) (n : Nat) (o : TpoSt) : (t.setTpo n o).holdLong = t.holdLong := rfl
@[simp] theorem TimeSt.setTpo_lossSinceLock (t : TimeSt) (n : Nat) (o : TpoSt) : (t.setTpo n o).lossSinceLock = t.lossSinceLock := rfl
@[simp] theorem TimeSt.setTpo_coast (t : TimeSt) (n : Nat) (o : TpoSt) : (t.setTpo n o).coast = t.coast := rfl
@[simp] theorem TimeSt.setTpo_servo (t : TimeSt) (n : Nat) (o : TpoSt) : (t.setTpo n o).servo = t.servo := rfl
@[simp] theorem TimeSt.setTpo_inLock (t : TimeSt) (n : Nat) (o : TpoSt) : (t.setTpo n o).inLock = t.inLock := rfl
@[simp] theorem TimeSt.setTpo_outLock (t : TimeSt) (n : Nat) (o : TpoSt) : (t.setTpo n o).outLock = t.outLock := rfl
@[simp] theorem TimeSt.setTpo_ftOffset (t : TimeSt) (n : Nat) (o : TpoSt) : (t.setTpo n o).ftOffset = t.ftOffset := rfl
@[simp] theorem TimeSt.setTpo_ftMaster (t : TimeSt) (n : Nat) (o : TpoSt) : (t.setTpo n o).ftMaster = t.ftMaster := rfl
@[simp] theorem TimeSt.setTpo_ftPort (t : TimeSt) (n : Nat) (o : TpoSt) : (t.setTpo n o).ftPort = t.ftPort := rfl
@[simp] theorem TimeSt.setTpo_tpo (t : TimeSt) (n : Nat) (o : TpoSt) : (t.setTpo n o).tpo = t.tpo.set n o {} := rfl
@[simp] theorem TimeSt.setTpo_tciFifo (t : TimeSt) (n : Nat) (o : TpoSt) : (t.setTpo n o).tciFifo = t.tciFifo := rfl
@[simp] theorem TimeSt.setTpo_tciHold (t : TimeSt) (n : Nat) (o : TpoSt) : (t.setTpo n o).tciHold = t.tciHold := rfl
@[simp] theorem TimeSt.passes_incr (t : TimeSt) (n : Nat) : (t.passes n).incr = t.incr := rfl
@[simp] theorem TimeSt.advance_incr (t : TimeSt) (n : Nat) : (t.advance n).incr = t.incr := rfl
@[simp] theorem TimeSt.passes_slewIncr (t : TimeSt) (n : Nat) : (t.passes n).slewIncr = t.slewIncr := rfl
@[simp] theorem TimeSt.advance_slewIncr (t : TimeSt) (n : Nat) : (t.advance n).slewIncr = t.slewIncr := rfl
@[simp] theorem TimeSt.passes_load0 (t : TimeSt) (n : Nat) : (t.passes n).load0 = t.load0 := rfl
@[simp] theorem TimeSt.advance_load0 (t : TimeSt) (n : Nat) : (t.advance n).load0 = t.load0 := rfl
@[simp] theorem TimeSt.passes_latches (t : TimeSt) (n : Nat) : (t.passes n).latches = t.latches := rfl
@[simp] theorem TimeSt.advance_latches (t : TimeSt) (n : Nat) : (t.advance n).latches = t.latches := rfl
@[simp] theorem TimeSt.passes_valid (t : TimeSt) (n : Nat) : (t.passes n).valid = t.valid := rfl
@[simp] theorem TimeSt.advance_valid (t : TimeSt) (n : Nat) : (t.advance n).valid = t.valid := rfl
@[simp] theorem TimeSt.passes_holdover (t : TimeSt) (n : Nat) : (t.passes n).holdover = t.holdover := rfl
@[simp] theorem TimeSt.advance_holdover (t : TimeSt) (n : Nat) : (t.advance n).holdover = t.holdover := rfl
@[simp] theorem TimeSt.passes_holdLong (t : TimeSt) (n : Nat) : (t.passes n).holdLong = t.holdLong := rfl
@[simp] theorem TimeSt.advance_holdLong (t : TimeSt) (n : Nat) : (t.advance n).holdLong = t.holdLong := rfl
@[simp] theorem TimeSt.passes_lossSinceLock (t : TimeSt) (n : Nat) : (t.passes n).lossSinceLock = t.lossSinceLock := rfl
@[simp] theorem TimeSt.advance_lossSinceLock (t : TimeSt) (n : Nat) : (t.advance n).lossSinceLock = t.lossSinceLock := rfl
@[simp] theorem TimeSt.passes_coast (t : TimeSt) (n : Nat) : (t.passes n).coast = t.coast := rfl
@[simp] theorem TimeSt.advance_coast (t : TimeSt) (n : Nat) : (t.advance n).coast = t.coast := rfl
@[simp] theorem TimeSt.passes_servo (t : TimeSt) (n : Nat) : (t.passes n).servo = t.servo := rfl
@[simp] theorem TimeSt.advance_servo (t : TimeSt) (n : Nat) : (t.advance n).servo = t.servo := rfl
@[simp] theorem TimeSt.passes_inLock (t : TimeSt) (n : Nat) : (t.passes n).inLock = t.inLock := rfl
@[simp] theorem TimeSt.advance_inLock (t : TimeSt) (n : Nat) : (t.advance n).inLock = t.inLock := rfl
@[simp] theorem TimeSt.passes_outLock (t : TimeSt) (n : Nat) : (t.passes n).outLock = t.outLock := rfl
@[simp] theorem TimeSt.advance_outLock (t : TimeSt) (n : Nat) : (t.advance n).outLock = t.outLock := rfl
@[simp] theorem TimeSt.passes_ftOffset (t : TimeSt) (n : Nat) : (t.passes n).ftOffset = t.ftOffset := rfl
@[simp] theorem TimeSt.advance_ftOffset (t : TimeSt) (n : Nat) : (t.advance n).ftOffset = t.ftOffset := rfl
@[simp] theorem TimeSt.passes_ftMaster (t : TimeSt) (n : Nat) : (t.passes n).ftMaster = t.ftMaster := rfl
@[simp] theorem TimeSt.advance_ftMaster (t : TimeSt) (n : Nat) : (t.advance n).ftMaster = t.ftMaster := rfl
@[simp] theorem TimeSt.passes_ftPort (t : TimeSt) (n : Nat) : (t.passes n).ftPort = t.ftPort := rfl
@[simp] theorem TimeSt.advance_ftPort (t : TimeSt) (n : Nat) : (t.advance n).ftPort = t.ftPort := rfl
@[simp] theorem TimeSt.passes_tpo (t : TimeSt) (n : Nat) : (t.passes n).tpo = t.tpo := rfl
@[simp] theorem TimeSt.advance_tpo (t : TimeSt) (n : Nat) : (t.advance n).tpo = t.tpo := rfl
@[simp] theorem TimeSt.passes_tciFifo (t : TimeSt) (n : Nat) : (t.passes n).tciFifo = t.tciFifo := rfl
@[simp] theorem TimeSt.advance_tciFifo (t : TimeSt) (n : Nat) : (t.advance n).tciFifo = t.tciFifo := rfl
@[simp] theorem TimeSt.passes_tciHold (t : TimeSt) (n : Nat) : (t.passes n).tciHold = t.tciHold := rfl
@[simp] theorem TimeSt.advance_tciHold (t : TimeSt) (n : Nat) : (t.advance n).tciHold = t.tciHold := rfl

end Sys2Proof.Machine
end

