-- ==== Sys2Proof/Laws/Access.lean ====
section
/-! SUPPORT. A register access is none to the MSI-X structures: every register of the page map lies below the MSI-X table of
PF0 (R73, R519); a push touches the one stride it begins (R480). -/

namespace Sys2Proof.Machine

/-- A place in a line of the page map lies below the end of its instances. -/
theorem PageRow.loc_lt {r : PageRow} {off : Nat} {l : Loc} (h : r.loc off = some l) (hs : 0 < r.stride) :
    off < r.base + r.insts * r.stride := by
  simp only [PageRow.loc] at h
  split at h
  · rename_i hc
    have := (Nat.div_lt_iff_lt_mul hs).1 hc.2.1
    omega
  · cases h

/-- A place in a list of such lines whose instances all end below `n` lies below `n`. -/
theorem locIn_lt {n off : Nat} {l : Loc} (rs : List PageRow)
    (hr : rs.all (fun r => decide (0 < r.stride ∧ r.base + r.insts * r.stride ≤ n)) = true) (h : locIn rs off = some l) : off < n := by
  induction rs with
  | nil => cases h
  | cons r rs ih =>
    simp only [List.all_cons, Bool.and_eq_true, decide_eq_true_eq] at hr
    unfold locIn at h
    split at h
    · rename_i hl
      have := PageRow.loc_lt hl hr.1.1
      omega
    · exact ih hr.2 h

/-- Every register of the page map lies below the MSI-X table of PF0. -/
theorem Dev.place_lt {d : Dev} {off : Nat} {l : Loc} (h : d.place off = some l) : off < 0x0FF00000 := by
  unfold Dev.place at h
  split at h
  · rename_i hl
    exact locIn_lt pageMap (by decide) hl
  · cases h

/-- An offset below the MSI-X table of PF0 is none of its structures, for every party but a VF. -/
theorem msixPlace_none {pt : Party} {off : Nat} (hv : ∀ f, pt ≠ .vf f) (h : off < 0x0FF00000) : msixPlace pt off = none := by
  have h1 : ¬ (0x0FF00000 ≤ off ∧ off < 0x0FF08000) := by omega
  have h2 : ¬ (0x0FF08000 ≤ off ∧ off < 0x0FF08100) := by omega
  unfold msixPlace
  cases pt with
  | vf f => exact absurd rfl (hv f)
  | _ => simp [h1, h2]

/-- A write that R670 permits is none to the MSI-X structures. -/
theorem Dev.writeCheck_msix {d : Dev} {pt : Party} {off width v : Nat} {t : Tgt} (h : d.writeCheck pt off width v = .ok t) :
    msixPlace pt off = none := by
  cases pt with
  | vf f =>
    simp only [Dev.writeCheck, Dev.vfWriteCheck] at h
    split at h
    · cases h
    · rename_i hn
      simp only [Bool.or_eq_true, decide_eq_true_eq, not_or] at hn
      simp [msixPlace, hn.1.2, hn.2]
  | _ =>
    refine msixPlace_none (fun f => nofun) ?_
    cases hp : d.place off with
    | some l => exact Dev.place_lt hp
    | none =>
      simp only [Dev.writeCheck, Dev.target, hp] at h
      split at h <;> cases h

/-- A write of at most a stride that begins one touches that stride alone (R480). -/
theorem strides_one {f : Func} {off n : Nat} (h : strideBase f ≤ off) (h0 : (off - strideBase f) % 0x100 = 0) (hn : n ≤ 0x100) :
    strides f off n = [(off - strideBase f) / 0x100] := by
  have hl : ¬ off + max 1 n - 1 < strideBase f := by omega
  have he : (off + max 1 n - 1 - strideBase f) / 0x100 - (off - strideBase f) / 0x100 = 0 := by omega
  simp [strides, hl, he, rangeFrom]

end Sys2Proof.Machine
end

