-- ==== Sys2Proof/Laws/Actions.lean ====
section
/-! SUPPORT. What an instruction of the action unit can do: go on with another context, or end the program. -/

namespace Sys2Proof.Machine

@[simp] theorem Dev.actNow_stop (d : Dev) (p : Nat) : (d.actNow p).stop = (d.pipe p).act.stop := rfl

@[simp] theorem Dev.actNow_pkt (d : Dev) (p : Nat) : (d.actNow p).ps.pkt = (d.pipe p).act.ps.pkt := rfl

/-- A program whose context has stopped ends. -/
theorem Dev.actThen_stops {d : Dev} {p : Nat} {c : ActCtx} (h : c.stop.isSome = true) : d.actThen p c = d.actLeft p c := by
  simp only [Dev.actThen, actNext, h, if_true, Dev.actPut, Bool.true_or, Dev.actLeft]

/-- An instruction that meets no fault goes on, or ends the program where it has left a stop. -/
theorem Dev.actRow_goes {d e : Dev} {p op : Nat} {f : Dev → Nat → ActCtx → Nat → ActRun} {w : BitVec 64} {c : ActCtx}
    (hw : d.actDue p op w) (h : f d p (d.actNow p) w.toNat = (e, .ok c)) : d.actRow p op f w = e.actThen p c := by
  have h' : f d p { (d.pipe p).act with words := (d.pipe p).act.words.drop 1 } w.toNat = (e, .ok c) := h
  have hw' : (d.pipe p).act.words.head? = some w.toNat ∧ iw w.toNat 0 8 = op := hw
  simp only [Dev.actRow, if_pos hw', h', settleAct]

/-- An instruction that meets an action fault counts and raises it and ends the program (R276). -/
theorem Dev.actRow_faults {d e : Dev} {p op k : Nat} {f : Dev → Nat → ActCtx → Nat → ActRun} {w : BitVec 64}
    (hw : d.actDue p op w) (h : f d p (d.actNow p) w.toNat = (e, .error k)) :
    d.actRow p op f w =
      ((e.bump (actCount p (0x140 + 8 * k))).raise .act p 2 8).actLeft p { (d.pipe p).act with stop := some (.fault k) } := by
  have h' : f d p { (d.pipe p).act with words := (d.pipe p).act.words.drop 1 } w.toNat = (e, .error k) := h
  have hw' : (d.pipe p).act.words.head? = some w.toNat ∧ iw w.toNat 0 8 = op := hw
  simp only [Dev.actRow, if_pos hw', h', settleAct]
  exact Dev.actThen_stops rfl

/-- A word that is not the next of the program in the unit has no effect. -/
theorem Dev.actRow_idle {d : Dev} {p op : Nat} {f : Dev → Nat → ActCtx → Nat → ActRun} {w : BitVec 64} (hw : ¬ d.actDue p op w) :
    d.actRow p op f w = d := if_neg hw

/-! ### Operations on a context that leave its stop -/

@[simp] theorem ActCtx.dstPut_stop (c : ActCtx) (k v : Nat) : (c.dstPut k v).stop = c.stop := by
  unfold ActCtx.dstPut; split <;> rfl

@[simp] theorem ActCtx.writeRun_stop (c : ActCtx) (k m : Nat) (vs : List Nat) : (c.writeRun k m vs).stop = c.stop := by
  induction vs generalizing c k with
  | nil => rfl
  | cons v vs ih => rw [ActCtx.writeRun, ih, ActCtx.dstPut_stop]

end Sys2Proof.Machine
end

