-- ==== Sys2Proof/Laws/Bytes.lean ====
section
/-! SUPPORT. Laws of byte strings: lengths, little-endian fields, the range of the CRC, and that the label a store is
formatted with is a valid one. -/

namespace Sys2Proof.Machine

@[simp] theorem toLE_length (n v : Nat) : (toLE n v).length = n := by
  induction n generalizing v with
  | zero => rfl
  | succ n ih => simp [toLE, ih]

@[simp] theorem toBE_length (n v : Nat) : (toBE n v).length = n := by simp [toBE]

@[simp] theorem zeros_length (n : Nat) : (zeros n).length = n := by simp [zeros]

@[simp] theorem slice_length (bs : List Byte) (off n : Nat) : (slice bs off n).length = n := by
  simp only [slice, List.length_append, List.length_take, zeros_length]
  omega

/-- A slice that a string holds whole. -/
theorem slice_eq (bs : List Byte) (off n : Nat) (h : off + n ≤ bs.length) : slice bs off n = (bs.drop off).take n := by
  have : ((bs.drop off).take n).length = n := by simp only [List.length_take, List.length_drop]; omega
  simp [slice, this, zeros]

theorem leNat_toLE (n v : Nat) : leNat (toLE n v) = v % 2 ^ (8 * n) := by
  induction n generalizing v with
  | zero => simp [toLE, leNat, Nat.mod_one]
  | succ n ih =>
    simp only [toLE, leNat, ih, byteN, BitVec.toNat_ofNat]
    rw [show 8 * (n + 1) = 8 + 8 * n by omega, Nat.pow_add, Nat.mod_mul]

theorem crcBit_lt {c : Nat} (h : c < 2 ^ 32) : crcBit c < 2 ^ 32 := by
  unfold crcBit
  have h2 : c / 2 < 2 ^ 32 := by omega
  split
  · exact Nat.xor_lt_two_pow h2 (by decide)
  · exact h2

theorem crcByte_lt {c : Nat} (d : Byte) (h : c < 2 ^ 32) : crcByte c d < 2 ^ 32 := by
  have h0 : c ^^^ d.toNat < 2 ^ 32 := Nat.xor_lt_two_pow h (Nat.lt_of_lt_of_le d.isLt (by decide))
  exact crcBit_lt (crcBit_lt (crcBit_lt (crcBit_lt (crcBit_lt (crcBit_lt (crcBit_lt (crcBit_lt h0)))))))

/-- The CRC of R234 is a word. -/
theorem crc32c_lt {seed : Nat} (bs : List Byte) (h : seed < 2 ^ 32) : crc32c seed bs < 2 ^ 32 := by
  have : ∀ (l : List Byte) (c : Nat), c < 2 ^ 32 → l.foldl crcByte c < 2 ^ 32 := by
    intro l
    induction l with
    | nil => exact fun c h => h
    | cons b r ih => exact fun c h => ih _ (crcByte_lt b h)
  exact Nat.xor_lt_two_pow (this bs seed h) (by decide)

/-- Two slices behind one another. -/
theorem slice_append_left (a b : List Byte) (off n : Nat) (h : off + n ≤ a.length) : slice (a ++ b) off n = slice a off n := by
  rw [slice_eq _ _ _ (by simp; omega), slice_eq _ _ _ h, List.drop_append_of_le_length (by omega),
    List.take_append_of_le_length (by simp; omega)]

/-- The label of a store that STORE_ADD formats is a valid label (R439). -/
theorem labelBytes_valid (index id cap : Nat) (h : index < 96) : labelValid (labelBytes index id cap) = true := by
  unfold labelBytes
  generalize hp : toLE 4 0x09401AB1 ++ [1, byteN index, 0, 0] ++ toLE 8 id ++ toLE 8 cap ++ toLE 4 (ceilDiv cap 161) = p
  have hl : p.length = 28 := by rw [← hp]; simp
  have h0 : slice p 0 4 = toLE 4 0x09401AB1 := by rw [← hp]; rfl
  have h4 : p[4]? = some 1 := by rw [← hp]; rfl
  have h5 : p[5]? = some (byteN index) := by rw [← hp]; rfl
  generalize hb : slice p 0 8188 = b
  have hbl : b.length = 8188 := by rw [← hb]; simp
  have hb0 : b = p ++ zeros 8160 := by
    rw [← hb]; simp only [slice, List.drop_zero]
    rw [List.take_of_length_le (by omega), hl]
  change labelValid (b ++ toLE 4 (crc32c 0xFFFFFFFF b)) = true
  generalize hc : toLE 4 (crc32c 0xFFFFFFFF b) = c
  have hcl : c.length = 4 := by rw [← hc]; simp
  have e1 : slice (b ++ c) 0 8188 = b := by
    rw [slice_eq _ _ _ (by simp; omega), List.drop_zero, List.take_append_of_le_length (by omega), List.take_of_length_le (by omega)]
  have e2 : slice (b ++ c) 8188 4 = c := by
    rw [slice_eq _ _ _ (by simp; omega), ← hbl, List.drop_left, List.take_of_length_le (by omega)]
  have e3 : slice (b ++ c) 0 4 = toLE 4 0x09401AB1 := by
    rw [slice_append_left _ _ _ _ (by omega), hb0, slice_append_left _ _ _ _ (by omega), h0]
  have e4 : (b ++ c)[4]? = some 1 := by
    rw [List.getElem?_append_left (by omega), hb0, List.getElem?_append_left (by omega), h4]
  have e5 : (b ++ c)[5]? = some (byteN index) := by
    rw [List.getElem?_append_left (by omega), hb0, List.getElem?_append_left (by omega), h5]
  have hcrc : crc32c 0xFFFFFFFF b < 2 ^ 32 := crc32c_lt b (by decide)
  have hi : index % 256 = index := Nat.mod_eq_of_lt (by omega)
  simp only [labelValid, leAt, byteAt, e1, e2, e3, e4, e5, Option.getD_some]
  simp only [← hc, leNat_toLE, byteN, BitVec.toNat_ofNat, Nat.mod_eq_of_lt hcrc, hi]
  simp [h]

end Sys2Proof.Machine
end

