-- ==== Sys2Proof/Laws/Frames.lean ====
section
/-! SUPPORT. What interrupts, completions, ring entries and the end of a command leave as it is: every view of the device
that reads neither registers nor what leaves the device, nor ports, links, rings, vectors, HBM and VFs, nor the frames in
front of the distributor and the cells they hold, nor the count of drawn values and the grains under way. -/

namespace Sys2Proof.Machine

/-- A view of the device that the shared operations do not reach. -/
structure Aside {α : Type} (π : Dev → α) : Prop where
  regs : ∀ d x, π { d with regs := x } = π d
  out : ∀ d x, π { d with out := x } = π d
  ports : ∀ d x, π { d with ports := x } = π d
  links : ∀ d x, π { d with links := x } = π d
  rings : ∀ d x, π { d with rings := x } = π d
  msix : ∀ d x, π { d with msix := x } = π d
  hbm : ∀ d x, π { d with hbm := x } = π d
  vfs : ∀ d x, π { d with vfs := x } = π d
  cells : ∀ d x, π { d with cells := x } = π d
  priCells : ∀ d x, π { d with priCells := x } = π d
  dst : ∀ d x, π { d with dst := x } = π d
  sendWait : ∀ d x, π { d with sendWait := x } = π d
  draws : ∀ d x, π { d with draws := x } = π d
  tasks : ∀ d x, π { d with tasks := x } = π d

namespace Aside

variable {α : Type} {π : Dev → α} (h : Aside π)
include h

theorem wr (d : Dev) (k : Nat) (v : Word) : π (d.wr k v) = π d := h.regs d _

theorem wrN (d : Dev) (k v : Nat) : π (d.wrN k v) = π d := h.wr d k _

theorem wr64 (d : Dev) (k v : Nat) : π (d.wr64 k v) = π d := by rw [Dev.wr64, h.wrN, h.wrN]

theorem setFld (d : Dev) (k lo len v : Nat) : π (d.setFld k lo len v) = π d := h.wrN d k _

theorem bump (d : Dev) (k n : Nat) : π (d.bump k n) = π d := h.wr64 d k _

theorem emit (d : Dev) (o : Out) : π (d.emit o) = π d := h.out d _

theorem setPort (d : Dev) (n : Nat) (p : PortSt) : π (d.setPort n p) = π d := h.ports d _

theorem setLink (d : Dev) (n : Nat) (l : LinkSt) : π (d.setLink n l) = π d := h.links d _

theorem setRing (d : Dev) (n : Nat) (s : RingSt) : π (d.setRing n s) = π d := h.rings d _

theorem setVf (d : Dev) (f : Func) (v : VfSt) : π (d.setVf f v) = π d := h.vfs d _

theorem msixSend (d : Dev) (f : Func) (v : Nat) : π (d.msixSend f v) = π d := by
  unfold Dev.msixSend
  dsimp only
  split
  · rfl
  · split
    · exact h.emit d _
    · exact h.msix d _

theorem routeMsg (d : Dev) (f : Func) (v : Nat) : π (d.routeMsg f v) = π d := by
  unfold Dev.routeMsg
  split
  · exact h.msixSend d f v
  · rw [h.msixSend, h.wrN]

theorem pageMsg (d : Dev) (page : Nat) : π (d.pageMsg page) = π d := by
  unfold Dev.pageMsg
  dsimp only
  split
  · exact h.routeMsg d _ _
  · rfl

theorem setInt (d : Dev) (page mask : Nat) : π (d.setInt page mask) = π d := by
  unfold Dev.setInt
  dsimp only
  split
  · rw [h.pageMsg, h.wr]
  · exact h.wr d _ _

theorem raise (d : Dev) (b : Blk) (i pg bit : Nat) : π (d.raise b i pg bit) = π d := h.setInt d _ _

theorem setInts (d : Dev) (page mask : Nat) : π (d.setInts page mask) = π d := by
  unfold Dev.setInts
  split
  · rfl
  · exact h.setInt d _ _

theorem logRaw (d : Dev) (page code who off data detail : Nat) : π (d.logRaw page code who off data detail) = π d := by
  unfold Dev.logRaw
  dsimp only
  split
  · exact h.wrN d _ _
  · rw [h.setInt]; simp only [h.wrN]

theorem vfErr (d : Dev) (f : Func) (code off : Nat) : π (d.vfErr f code off) = π d := by
  unfold Dev.vfErr
  split <;> simp only [h.wrN]

theorem logAcc (d : Dev) (a : Access) (code : Nat) : π (d.logAcc a code) = π d := by
  unfold Dev.logAcc
  split
  · exact h.vfErr d _ _ _
  · exact h.logRaw d _ _ _ _ _ _

theorem logRequest (d : Dev) (f : Func) (a n : Nat) : π (d.logRequest f a n) = π d := by
  unfold Dev.logRequest
  dsimp only
  split
  · split
    · rfl
    · split
      · exact h.hbm d _
      · exact h.setVf d _ _
  · rfl

omit h in
/-- A fold of steps that leave a view as it is leaves it as it is. -/
theorem foldl {β : Type} (f : Dev → β → Dev) (hf : ∀ d b, π (f d b) = π d) (l : List β) (d : Dev) :
    π (l.foldl f d) = π d := by
  induction l generalizing d with
  | nil => rfl
  | cons b l ih => rw [List.foldl_cons, ih, hf]

theorem logDirty (d : Dev) (f : Func) (a n : Nat) : π (d.logDirty f a n) = π d := by
  unfold Dev.logDirty
  split
  · rfl
  · exact Aside.foldl _ (fun d (q : Nat × Nat) => h.logRequest d f q.1 q.2) _ _

theorem dmaWrite (d : Dev) (f : Func) (a : Nat) (bs : List Byte) (rlx : Bool) : π (d.dmaWrite f a bs rlx) = π d := by
  unfold Dev.dmaWrite
  split
  · rw [h.emit, h.logDirty]
  · rfl

theorem ringNotify (d : Dev) (r : Nat) : π (d.ringNotify r) = π d := by
  unfold Dev.ringNotify
  dsimp only
  repeat' split
  all_goals first
    | rfl
    | simp only [h.routeMsg, h.setRing]

theorem writeBack (d : Dev) (r : Nat) : π (d.writeBack r) = π d := by
  unfold Dev.writeBack
  dsimp only
  split <;> first | rfl | exact h.dmaWrite d _ _ _ _

theorem ringPut (d : Dev) (r : Nat) (bs : List Byte) (entry : Bool) : π (d.ringPut r bs entry) = π d := by
  unfold Dev.ringPut
  dsimp only
  split <;> simp only [h.setRing, h.wrN, h.dmaWrite]

theorem ringEntry (d : Dev) (r : Nat) (bs : List Byte) : π (d.ringEntry r bs) = π d := by
  unfold Dev.ringEntry
  dsimp only
  split <;> simp only [h.ringNotify, h.writeBack, h.ringPut]

theorem bumpSat (d : Dev) (k : Nat) : π (d.bumpSat k) = π d := by
  unfold Dev.bumpSat
  split <;> simp only [h.wrN]

theorem ringDropped (d : Dev) (r : Nat) : π (d.ringDropped r) = π d := by
  unfold Dev.ringDropped
  dsimp only
  split <;> simp only [h.setInt, h.setFld, h.bumpSat]

theorem evtWrite (d : Dev) (r : Nat) (bs : List Byte) : π (d.evtWrite r bs).1 = π d := by
  unfold Dev.evtWrite
  split
  · exact h.ringEntry d _ _
  · exact h.ringDropped d _

theorem pfcEmit (d : Dev) (port pri q : Nat) : π (d.pfcEmit port pri q) = π d := by
  unfold Dev.pfcEmit
  split
  · rw [h.bump, h.emit]
  · rfl

theorem pfcAt (d : Dev) (k : Nat) : π (Machine.pfcAt d k) = π d := by
  unfold Machine.pfcAt
  dsimp only
  split
  · split
    · rw [h.pfcEmit, h.setPort]
    · rfl
  · split
    · rw [h.pfcEmit, h.setPort]
    · rfl

theorem cellFree (d : Dev) (s n : Nat) : π (d.cellFree s n) = π d := h.cells d _

theorem freePkt (d : Dev) (p : Pkt) : π (d.freePkt p) = π d := by
  unfold Dev.freePkt
  split <;> simp only [h.priCells, h.cellFree]

theorem countDrop (d : Dev) (c : Nat) : π (d.countDrop c) = π d := by
  unfold Dev.countDrop
  dsimp only
  split <;> simp only [h.raise, h.bump]

theorem dropPkt (d : Dev) (p : Pkt) (c : Nat) : π (d.dropPkt p c) = π d := by rw [Dev.dropPkt, h.countDrop, h.freePkt]

theorem countQDrop (d : Dev) (port q : Nat) : π (d.countQDrop port q) = π d := by
  unfold Dev.countQDrop
  split
  · exact h.bump d _ _
  · rfl

theorem dropQueues (d : Dev) (n : Nat) : π (d.dropQueues n) = π d := by
  unfold Dev.dropQueues
  dsimp only
  refine (Aside.foldl _ (fun d (c : Nat × List EgrItem) => Aside.foldl _ (fun d i => ?_) c.2 d) _ _).trans (h.setPort d n _)
  rw [h.countQDrop, h.dropPkt]

theorem secSettle (d : Dev) (n : Nat) : π (d.secSettle n) = π d := by
  unfold Dev.secSettle
  dsimp only
  split
  · rw [h.bump, h.dropQueues]
  · rfl

theorem enqueue (d : Dev) (port q : Nat) (p : Pkt) : π (d.enqueue port q p) = π d := by
  unfold Dev.enqueue
  dsimp only
  repeat' split
  all_goals first
    | exact h.setPort d _ _
    | (simp only [h.raise, h.countQDrop, h.dropPkt])

theorem toDst (d : Dev) (p : Pkt) : π (d.toDst p) = π d := h.dst d _

theorem sendOn (d : Dev) (p : Pkt) : π (d.sendOn p) = π d := by
  unfold Dev.sendOn
  split
  · exact h.enqueue d _ _ _
  · exact h.toDst d _

theorem sendLater (d : Dev) (p : Pkt) : π (d.sendLater p) = π d := h.sendWait d _

theorem cellAlloc {d e : Dev} {s n : Nat} (ha : d.cellAlloc s n = some e) : π e = π d := by
  unfold Dev.cellAlloc at ha
  dsimp only at ha
  split at ha
  · cases ha
    unfold Dev.poolNote
    split
    · rw [h.raise, h.cells]
    · exact h.cells d _
  · cases ha

theorem sendTake (ps : List Pkt) (d : Dev) (stuck : List Nat) : π (d.sendTake stuck ps) = π d := by
  induction ps generalizing d stuck with
  | nil => rfl
  | cons p ps ih =>
    unfold Dev.sendTake
    split
    · rw [ih, h.sendLater]
    · split
      · rename_i e he
        rw [ih, h.sendOn, h.cellAlloc he]
      · rw [ih, h.sendLater]

theorem sendDrain (d : Dev) : π d.sendDrain = π d := by rw [Dev.sendDrain, h.sendTake, h.sendWait]

theorem vfmDrain (k : Nat) (l : List (List Byte)) (d : Dev) : π (Machine.vfmDrain k d l) = π d := by
  induction l generalizing d with
  | nil => rfl
  | cons e l ih =>
    unfold Machine.vfmDrain
    dsimp only
    split
    · rw [ih, h.evtWrite, h.setLink]
    · rfl

theorem settleAt (d : Dev) (k : Nat) : π (Machine.settleAt d k) = π d := by
  unfold Machine.settleAt
  dsimp only
  split
  · split
    · split <;> split <;> simp only [h.setInt, h.setFld]
    · rfl
  · rfl

theorem stallEnd (d : Dev) (c x : Nat) : π (d.stallEnd c x) = π d := (h.bump _ _ _).trans (h.draws d _)

theorem setHoldFull (d : Dev) (c : Nat) (v : Bool) : π (d.setHoldFull c v) = π d := by
  unfold Dev.setHoldFull
  dsimp only
  repeat' split
  all_goals simp only [h.raise, h.stallEnd, h.setFld]

theorem holdSettle (d : Dev) (c : Nat) : π (d.holdSettle c) = π d := by
  unfold Dev.holdSettle
  split
  · exact h.setHoldFull d _ _
  · rfl

theorem storeStart (d : Dev) : π d.storeStart = π d := h.tasks d _

/-- The end of a command leaves such a view as it is. -/
theorem settle (d : Dev) : π d.settle = π d := by
  unfold Dev.settle
  dsimp only
  rw [Aside.foldl Machine.settleAt h.settleAt, h.storeStart, h.holdSettle, h.holdSettle, h.vfmDrain, h.vfmDrain, h.sendDrain, Dev.pfcSettle, Aside.foldl Machine.pfcAt h.pfcAt]
  exact Aside.foldl Dev.secSettle h.secSettle _ _

/-- A change of the time state leaves such a view as it is, if it is not LOCAL_ONLY. -/
theorem setTime (hl : ∀ d x, π { d with localOnly := x } = π d) (s : State) (t : TimeSt) :
    π (s.setTime t).dev = π s.dev := by
  unfold State.setTime
  dsimp only
  rw [hl, h.setInts, h.setInts]

end Aside

/-! ### The end of a command and a change of the time state, field by field -/

@[simp] theorem Dev.settle_ecc (d : Dev) : d.settle.ecc = d.ecc :=
  Aside.settle (π := Dev.ecc) (by constructor <;> intros <;> rfl) d
@[simp] theorem Dev.settle_flash (d : Dev) : d.settle.flash = d.flash :=
  Aside.settle (π := Dev.flash) (by constructor <;> intros <;> rfl) d
@[simp] theorem Dev.settle_nextId (d : Dev) : d.settle.nextId = d.nextId :=
  Aside.settle (π := Dev.nextId) (by constructor <;> intros <;> rfl) d
@[simp] theorem Dev.settle_turn (d : Dev) : d.settle.turn = d.turn :=
  Aside.settle (π := Dev.turn) (by constructor <;> intros <;> rfl) d
@[simp] theorem Dev.settle_bounds (d : Dev) : d.settle.bounds = d.bounds :=
  Aside.settle (π := Dev.bounds) (by constructor <;> intros <;> rfl) d
@[simp] theorem Dev.settle_extended (d : Dev) : d.settle.extended = d.extended :=
  Aside.settle (π := Dev.extended) (by constructor <;> intros <;> rfl) d
@[simp] theorem Dev.settle_active (d : Dev) : d.settle.active = d.active :=
  Aside.settle (π := Dev.active) (by constructor <;> intros <;> rfl) d
@[simp] theorem Dev.settle_staged (d : Dev) : d.settle.staged = d.staged :=
  Aside.settle (π := Dev.staged) (by constructor <;> intros <;> rfl) d
@[simp] theorem Dev.settle_retained (d : Dev) : d.settle.retained = d.retained :=
  Aside.settle (π := Dev.retained) (by constructor <;> intros <;> rfl) d
@[simp] theorem Dev.settle_stageFill (d : Dev) : d.settle.stageFill = d.stageFill :=
  Aside.settle (π := Dev.stageFill) (by constructor <;> intros <;> rfl) d
@[simp] theorem Dev.settle_pipes (d : Dev) : d.settle.pipes = d.pipes :=
  Aside.settle (π := Dev.pipes) (by constructor <;> intros <;> rfl) d
@[simp] theorem Dev.settle_ft (d : Dev) : d.settle.ft = d.ft :=
  Aside.settle (π := Dev.ft) (by constructor <;> intros <;> rfl) d
@[simp] theorem Dev.settle_reads (d : Dev) : d.settle.reads = d.reads :=
  Aside.settle (π := Dev.reads) (by constructor <;> intros <;> rfl) d
@[simp] theorem Dev.settle_msixFn (d : Dev) : d.settle.msixFn = d.msixFn :=
  Aside.settle (π := Dev.msixFn) (by constructor <;> intros <;> rfl) d
@[simp] theorem Dev.settle_bme (d : Dev) : d.settle.bme = d.bme :=
  Aside.settle (π := Dev.bme) (by constructor <;> intros <;> rfl) d
@[simp] theorem Dev.settle_devCtl (d : Dev) : d.settle.devCtl = d.devCtl :=
  Aside.settle (π := Dev.devCtl) (by constructor <;> intros <;> rfl) d
@[simp] theorem Dev.settle_devCtl2 (d : Dev) : d.settle.devCtl2 = d.devCtl2 :=
  Aside.settle (π := Dev.devCtl2) (by constructor <;> intros <;> rfl) d
@[simp] theorem Dev.settle_caps (d : Dev) : d.settle.caps = d.caps :=
  Aside.settle (π := Dev.caps) (by constructor <;> intros <;> rfl) d
@[simp] theorem Dev.settle_tables (d : Dev) : d.settle.tables = d.tables :=
  Aside.settle (π := Dev.tables) (by constructor <;> intros <;> rfl) d
@[simp] theorem Dev.settle_owned (d : Dev) : d.settle.owned = d.owned :=
  Aside.settle (π := Dev.owned) (by constructor <;> intros <;> rfl) d
@[simp] theorem Dev.settle_scrubs (d : Dev) : d.settle.scrubs = d.scrubs :=
  Aside.settle (π := Dev.scrubs) (by constructor <;> intros <;> rfl) d
@[simp] theorem Dev.settle_sweeps (d : Dev) : d.settle.sweeps = d.sweeps :=
  Aside.settle (π := Dev.sweeps) (by constructor <;> intros <;> rfl) d
@[simp] theorem Dev.settle_faults (d : Dev) : d.settle.faults = d.faults :=
  Aside.settle (π := Dev.faults) (by constructor <;> intros <;> rfl) d
@[simp] theorem Dev.settle_filter (d : Dev) : d.settle.filter = d.filter :=
  Aside.settle (π := Dev.filter) (by constructor <;> intros <;> rfl) d
@[simp] theorem Dev.settle_lrn (d : Dev) : d.settle.lrn = d.lrn :=
  Aside.settle (π := Dev.lrn) (by constructor <;> intros <;> rfl) d
@[simp] theorem Dev.settle_images (d : Dev) : d.settle.images = d.images :=
  Aside.settle (π := Dev.images) (by constructor <;> intros <;> rfl) d
@[simp] theorem Dev.settle_autos (d : Dev) : d.settle.autos = d.autos :=
  Aside.settle (π := Dev.autos) (by constructor <;> intros <;> rfl) d
@[simp] theorem Dev.settle_ind (d : Dev) : d.settle.ind = d.ind :=
  Aside.settle (π := Dev.ind) (by constructor <;> intros <;> rfl) d
@[simp] theorem Dev.settle_coresFenced (d : Dev) : d.settle.coresFenced = d.coresFenced :=
  Aside.settle (π := Dev.coresFenced) (by constructor <;> intros <;> rfl) d
@[simp] theorem Dev.settle_handing (d : Dev) : d.settle.handing = d.handing :=
  Aside.settle (π := Dev.handing) (by constructor <;> intros <;> rfl) d
@[simp] theorem Dev.settle_pair (d : Dev) : d.settle.pair = d.pair :=
  Aside.settle (π := Dev.pair) (by constructor <;> intros <;> rfl) d
@[simp] theorem Dev.settle_localOnly (d : Dev) : d.settle.localOnly = d.localOnly :=
  Aside.settle (π := Dev.localOnly) (by constructor <;> intros <;> rfl) d
@[simp] theorem Dev.settle_lanes (d : Dev) : d.settle.lanes = d.lanes :=
  Aside.settle (π := Dev.lanes) (by constructor <;> intros <;> rfl) d
@[simp] theorem Dev.settle_entReqs (d : Dev) : d.settle.entReqs = d.entReqs :=
  Aside.settle (π := Dev.entReqs) (by constructor <;> intros <;> rfl) d
@[simp] theorem Dev.settle_entSeeds (d : Dev) : d.settle.entSeeds = d.entSeeds :=
  Aside.settle (π := Dev.entSeeds) (by constructor <;> intros <;> rfl) d
@[simp] theorem Dev.settle_keys (d : Dev) : d.settle.keys = d.keys :=
  Aside.settle (π := Dev.keys) (by constructor <;> intros <;> rfl) d
@[simp] theorem Dev.settle_keks (d : Dev) : d.settle.keks = d.keks :=
  Aside.settle (π := Dev.keks) (by constructor <;> intros <;> rfl) d
@[simp] theorem Dev.settle_keyHolds (d : Dev) : d.settle.keyHolds = d.keyHolds :=
  Aside.settle (π := Dev.keyHolds) (by constructor <;> intros <;> rfl) d
@[simp] theorem Dev.settle_wrapKey (d : Dev) : d.settle.wrapKey = d.wrapKey :=
  Aside.settle (π := Dev.wrapKey) (by constructor <;> intros <;> rfl) d
@[simp] theorem Dev.settle_keyBusy (d : Dev) : d.settle.keyBusy = d.keyBusy :=
  Aside.settle (π := Dev.keyBusy) (by constructor <;> intros <;> rfl) d
@[simp] theorem Dev.settle_keyPend (d : Dev) : d.settle.keyPend = d.keyPend :=
  Aside.settle (π := Dev.keyPend) (by constructor <;> intros <;> rfl) d
@[simp] theorem Dev.settle_keyLoadAt (d : Dev) : d.settle.keyLoadAt = d.keyLoadAt :=
  Aside.settle (π := Dev.keyLoadAt) (by constructor <;> intros <;> rfl) d
@[simp] theorem Dev.settle_saHigh (d : Dev) : d.settle.saHigh = d.saHigh :=
  Aside.settle (π := Dev.saHigh) (by constructor <;> intros <;> rfl) d
@[simp] theorem Dev.settle_saHighReq (d : Dev) : d.settle.saHighReq = d.saHighReq :=
  Aside.settle (π := Dev.saHighReq) (by constructor <;> intros <;> rfl) d
@[simp] theorem Dev.settle_saLimit (d : Dev) : d.settle.saLimit = d.saLimit :=
  Aside.settle (π := Dev.saLimit) (by constructor <;> intros <;> rfl) d
@[simp] theorem Dev.settle_saDone (d : Dev) : d.settle.saDone = d.saDone :=
  Aside.settle (π := Dev.saDone) (by constructor <;> intros <;> rfl) d
@[simp] theorem Dev.settle_saTaken (d : Dev) : d.settle.saTaken = d.saTaken :=
  Aside.settle (π := Dev.saTaken) (by constructor <;> intros <;> rfl) d
@[simp] theorem Dev.settle_vols (d : Dev) : d.settle.vols = d.vols :=
  Aside.settle (π := Dev.vols) (by constructor <;> intros <;> rfl) d
@[simp] theorem Dev.settle_stores (d : Dev) : d.settle.stores = d.stores :=
  Aside.settle (π := Dev.stores) (by constructor <;> intros <;> rfl) d
@[simp] theorem Dev.settle_media (d : Dev) : d.settle.media = d.media :=
  Aside.settle (π := Dev.media) (by constructor <;> intros <;> rfl) d
@[simp] theorem Dev.settle_logs (d : Dev) : d.settle.logs = d.logs :=
  Aside.settle (π := Dev.logs) (by constructor <;> intros <;> rfl) d
@[simp] theorem Dev.settle_sreads (d : Dev) : d.settle.sreads = d.sreads :=
  Aside.settle (π := Dev.sreads) (by constructor <;> intros <;> rfl) d
@[simp] theorem Dev.settle_swrites (d : Dev) : d.settle.swrites = d.swrites :=
  Aside.settle (π := Dev.swrites) (by constructor <;> intros <;> rfl) d
@[simp] theorem Dev.settle_scrubVol (d : Dev) : d.settle.scrubVol = d.scrubVol :=
  Aside.settle (π := Dev.scrubVol) (by constructor <;> intros <;> rfl) d
@[simp] theorem Dev.settle_scrubWin (d : Dev) : d.settle.scrubWin = d.scrubWin :=
  Aside.settle (π := Dev.scrubWin) (by constructor <;> intros <;> rfl) d
@[simp] theorem Dev.settle_scrubCount (d : Dev) : d.settle.scrubCount = d.scrubCount :=
  Aside.settle (π := Dev.scrubCount) (by constructor <;> intros <;> rfl) d
@[simp] theorem Dev.settle_queues (d : Dev) : d.settle.queues = d.queues :=
  Aside.settle (π := Dev.queues) (by constructor <;> intros <;> rfl) d
@[simp] theorem Dev.settle_qcmds (d : Dev) : d.settle.qcmds = d.qcmds :=
  Aside.settle (π := Dev.qcmds) (by constructor <;> intros <;> rfl) d
@[simp] theorem Dev.settle_qidle (d : Dev) : d.settle.qidle = d.qidle :=
  Aside.settle (π := Dev.qidle) (by constructor <;> intros <;> rfl) d
@[simp] theorem Dev.settle_engServing (d : Dev) : d.settle.engServing = d.engServing :=
  Aside.settle (π := Dev.engServing) (by constructor <;> intros <;> rfl) d
@[simp] theorem Dev.settle_flr (d : Dev) : d.settle.flr = d.flr :=
  Aside.settle (π := Dev.flr) (by constructor <;> intros <;> rfl) d
@[simp] theorem Dev.settle_late (d : Dev) : d.settle.late = d.late :=
  Aside.settle (π := Dev.late) (by constructor <;> intros <;> rfl) d
@[simp] theorem Dev.settle_ownerMove (d : Dev) : d.settle.ownerMove = d.ownerMove :=
  Aside.settle (π := Dev.ownerMove) (by constructor <;> intros <;> rfl) d
@[simp] theorem Dev.settle_activation (d : Dev) : d.settle.activation = d.activation :=
  Aside.settle (π := Dev.activation) (by constructor <;> intros <;> rfl) d
@[simp] theorem Dev.settle_flashOp (d : Dev) : d.settle.flashOp = d.flashOp :=
  Aside.settle (π := Dev.flashOp) (by constructor <;> intros <;> rfl) d
@[simp] theorem Dev.settle_rollback (d : Dev) : d.settle.rollback = d.rollback :=
  Aside.settle (π := Dev.rollback) (by constructor <;> intros <;> rfl) d
@[simp] theorem Dev.settle_windows (d : Dev) : d.settle.windows = d.windows :=
  Aside.settle (π := Dev.windows) (by constructor <;> intros <;> rfl) d
@[simp] theorem Dev.settle_locking (d : Dev) : d.settle.locking = d.locking :=
  Aside.settle (π := Dev.locking) (by constructor <;> intros <;> rfl) d
@[simp] theorem Dev.settle_lossSince (d : Dev) : d.settle.lossSince = d.lossSince :=
  Aside.settle (π := Dev.lossSince) (by constructor <;> intros <;> rfl) d
@[simp] theorem Dev.settle_domSwitch (d : Dev) : d.settle.domSwitch = d.domSwitch :=
  Aside.settle (π := Dev.domSwitch) (by constructor <;> intros <;> rfl) d
@[simp] theorem Dev.settle_ocLevel (d : Dev) : d.settle.ocLevel = d.ocLevel :=
  Aside.settle (π := Dev.ocLevel) (by constructor <;> intros <;> rfl) d
@[simp] theorem Dev.settle_dead (d : Dev) : d.settle.dead = d.dead :=
  Aside.settle (π := Dev.dead) (by constructor <;> intros <;> rfl) d
@[simp] theorem Dev.settle_resetHeld (d : Dev) : d.settle.resetHeld = d.resetHeld :=
  Aside.settle (π := Dev.resetHeld) (by constructor <;> intros <;> rfl) d
@[simp] theorem Dev.settle_tripped (d : Dev) : d.settle.tripped = d.tripped :=
  Aside.settle (π := Dev.tripped) (by constructor <;> intros <;> rfl) d
@[simp] theorem Dev.settle_tap (d : Dev) : d.settle.tap = d.tap :=
  Aside.settle (π := Dev.tap) (by constructor <;> intros <;> rfl) d
@[simp] theorem Dev.settle_mbus (d : Dev) : d.settle.mbus = d.mbus :=
  Aside.settle (π := Dev.mbus) (by constructor <;> intros <;> rfl) d
@[simp] theorem Dev.settle_bootRec (d : Dev) : d.settle.bootRec = d.bootRec :=
  Aside.settle (π := Dev.bootRec) (by constructor <;> intros <;> rfl) d
@[simp] theorem Dev.settle_drpCfg (d : Dev) : d.settle.drpCfg = d.drpCfg :=
  Aside.settle (π := Dev.drpCfg) (by constructor <;> intros <;> rfl) d
@[simp] theorem Dev.settle_drives (d : Dev) : d.settle.drives = d.drives :=
  Aside.settle (π := Dev.drives) (by constructor <;> intros <;> rfl) d
@[simp] theorem Dev.settle_console (d : Dev) : d.settle.console = d.console :=
  Aside.settle (π := Dev.console) (by constructor <;> intros <;> rfl) d
@[simp] theorem Dev.settle_txUsed (d : Dev) : d.settle.txUsed = d.txUsed :=
  Aside.settle (π := Dev.txUsed) (by constructor <;> intros <;> rfl) d
@[simp] theorem Dev.settle_blkDeficit (d : Dev) : d.settle.blkDeficit = d.blkDeficit :=
  Aside.settle (π := Dev.blkDeficit) (by constructor <;> intros <;> rfl) d
@[simp] theorem Dev.settle_qTaken (d : Dev) : d.settle.qTaken = d.qTaken :=
  Aside.settle (π := Dev.qTaken) (by constructor <;> intros <;> rfl) d

@[simp] theorem State.setTime_ecc (s : State) (t : TimeSt) : (s.setTime t).dev.ecc = s.dev.ecc :=
  Aside.setTime (π := Dev.ecc) (by constructor <;> intros <;> rfl) (by intros; rfl) s t
@[simp] theorem State.setTime_flash (s : State) (t : TimeSt) : (s.setTime t).dev.flash = s.dev.flash :=
  Aside.setTime (π := Dev.flash) (by constructor <;> intros <;> rfl) (by intros; rfl) s t
@[simp] theorem State.setTime_nextId (s : State) (t : TimeSt) : (s.setTime t).dev.nextId = s.dev.nextId :=
  Aside.setTime (π := Dev.nextId) (by constructor <;> intros <;> rfl) (by intros; rfl) s t
@[simp] theorem State.setTime_turn (s : State) (t : TimeSt) : (s.setTime t).dev.turn = s.dev.turn :=
  Aside.setTime (π := Dev.turn) (by constructor <;> intros <;> rfl) (by intros; rfl) s t
@[simp] theorem State.setTime_bounds (s : State) (t : TimeSt) : (s.setTime t).dev.bounds = s.dev.bounds :=
  Aside.setTime (π := Dev.bounds) (by constructor <;> intros <;> rfl) (by intros; rfl) s t
@[simp] theorem State.setTime_extended (s : State) (t : TimeSt) : (s.setTime t).dev.extended = s.dev.extended :=
  Aside.setTime (π := Dev.extended) (by constructor <;> intros <;> rfl) (by intros; rfl) s t
@[simp] theorem State.setTime_active (s : State) (t : TimeSt) : (s.setTime t).dev.active = s.dev.active :=
  Aside.setTime (π := Dev.active) (by constructor <;> intros <;> rfl) (by intros; rfl) s t
@[simp] theorem State.setTime_staged (s : State) (t : TimeSt) : (s.setTime t).dev.staged = s.dev.staged :=
  Aside.setTime (π := Dev.staged) (by constructor <;> intros <;> rfl) (by intros; rfl) s t
@[simp] theorem State.setTime_retained (s : State) (t : TimeSt) : (s.setTime t).dev.retained = s.dev.retained :=
  Aside.setTime (π := Dev.retained) (by constructor <;> intros <;> rfl) (by intros; rfl) s t
@[simp] theorem State.setTime_stageFill (s : State) (t : TimeSt) : (s.setTime t).dev.stageFill = s.dev.stageFill :=
  Aside.setTime (π := Dev.stageFill) (by constructor <;> intros <;> rfl) (by intros; rfl) s t
@[simp] theorem State.setTime_pipes (s : State) (t : TimeSt) : (s.setTime t).dev.pipes = s.dev.pipes :=
  Aside.setTime (π := Dev.pipes) (by constructor <;> intros <;> rfl) (by intros; rfl) s t
@[simp] theorem State.setTime_ft (s : State) (t : TimeSt) : (s.setTime t).dev.ft = s.dev.ft :=
  Aside.setTime (π := Dev.ft) (by constructor <;> intros <;> rfl) (by intros; rfl) s t
@[simp] theorem State.setTime_reads (s : State) (t : TimeSt) : (s.setTime t).dev.reads = s.dev.reads :=
  Aside.setTime (π := Dev.reads) (by constructor <;> intros <;> rfl) (by intros; rfl) s t
@[simp] theorem State.setTime_msixFn (s : State) (t : TimeSt) : (s.setTime t).dev.msixFn = s.dev.msixFn :=
  Aside.setTime (π := Dev.msixFn) (by constructor <;> intros <;> rfl) (by intros; rfl) s t
@[simp] theorem State.setTime_bme (s : State) (t : TimeSt) : (s.setTime t).dev.bme = s.dev.bme :=
  Aside.setTime (π := Dev.bme) (by constructor <;> intros <;> rfl) (by intros; rfl) s t
@[simp] theorem State.setTime_devCtl (s : State) (t : TimeSt) : (s.setTime t).dev.devCtl = s.dev.devCtl :=
  Aside.setTime (π := Dev.devCtl) (by constructor <;> intros <;> rfl) (by intros; rfl) s t
@[simp] theorem State.setTime_devCtl2 (s : State) (t : TimeSt) : (s.setTime t).dev.devCtl2 = s.dev.devCtl2 :=
  Aside.setTime (π := Dev.devCtl2) (by constructor <;> intros <;> rfl) (by intros; rfl) s t
@[simp] theorem State.setTime_caps (s : State) (t : TimeSt) : (s.setTime t).dev.caps = s.dev.caps :=
  Aside.setTime (π := Dev.caps) (by constructor <;> intros <;> rfl) (by intros; rfl) s t
@[simp] theorem State.setTime_tables (s : State) (t : TimeSt) : (s.setTime t).dev.tables = s.dev.tables :=
  Aside.setTime (π := Dev.tables) (by constructor <;> intros <;> rfl) (by intros; rfl) s t
@[simp] theorem State.setTime_owned (s : State) (t : TimeSt) : (s.setTime t).dev.owned = s.dev.owned :=
  Aside.setTime (π := Dev.owned) (by constructor <;> intros <;> rfl) (by intros; rfl) s t
@[simp] theorem State.setTime_scrubs (s : State) (t : TimeSt) : (s.setTime t).dev.scrubs = s.dev.scrubs :=
  Aside.setTime (π := Dev.scrubs) (by constructor <;> intros <;> rfl) (by intros; rfl) s t
@[simp] theorem State.setTime_sweeps (s : State) (t : TimeSt) : (s.setTime t).dev.sweeps = s.dev.sweeps :=
  Aside.setTime (π := Dev.sweeps) (by constructor <;> intros <;> rfl) (by intros; rfl) s t
@[simp] theorem State.setTime_faults (s : State) (t : TimeSt) : (s.setTime t).dev.faults = s.dev.faults :=
  Aside.setTime (π := Dev.faults) (by constructor <;> intros <;> rfl) (by intros; rfl) s t
@[simp] theorem State.setTime_filter (s : State) (t : TimeSt) : (s.setTime t).dev.filter = s.dev.filter :=
  Aside.setTime (π := Dev.filter) (by constructor <;> intros <;> rfl) (by intros; rfl) s t
@[simp] theorem State.setTime_lrn (s : State) (t : TimeSt) : (s.setTime t).dev.lrn = s.dev.lrn :=
  Aside.setTime (π := Dev.lrn) (by constructor <;> intros <;> rfl) (by intros; rfl) s t
@[simp] theorem State.setTime_images (s : State) (t : TimeSt) : (s.setTime t).dev.images = s.dev.images :=
  Aside.setTime (π := Dev.images) (by constructor <;> intros <;> rfl) (by intros; rfl) s t
@[simp] theorem State.setTime_autos (s : State) (t : TimeSt) : (s.setTime t).dev.autos = s.dev.autos :=
  Aside.setTime (π := Dev.autos) (by constructor <;> intros <;> rfl) (by intros; rfl) s t
@[simp] theorem State.setTime_ind (s : State) (t : TimeSt) : (s.setTime t).dev.ind = s.dev.ind :=
  Aside.setTime (π := Dev.ind) (by constructor <;> intros <;> rfl) (by intros; rfl) s t
@[simp] theorem State.setTime_coresFenced (s : State) (t : TimeSt) : (s.setTime t).dev.coresFenced = s.dev.coresFenced :=
  Aside.setTime (π := Dev.coresFenced) (by constructor <;> intros <;> rfl) (by intros; rfl) s t
@[simp] theorem State.setTime_handing (s : State) (t : TimeSt) : (s.setTime t).dev.handing = s.dev.handing :=
  Aside.setTime (π := Dev.handing) (by constructor <;> intros <;> rfl) (by intros; rfl) s t
@[simp] theorem State.setTime_pair (s : State) (t : TimeSt) : (s.setTime t).dev.pair = s.dev.pair :=
  Aside.setTime (π := Dev.pair) (by constructor <;> intros <;> rfl) (by intros; rfl) s t
@[simp] theorem State.setTime_lanes (s : State) (t : TimeSt) : (s.setTime t).dev.lanes = s.dev.lanes :=
  Aside.setTime (π := Dev.lanes) (by constructor <;> intros <;> rfl) (by intros; rfl) s t
@[simp] theorem State.setTime_entReqs (s : State) (t : TimeSt) : (s.setTime t).dev.entReqs = s.dev.entReqs :=
  Aside.setTime (π := Dev.entReqs) (by constructor <;> intros <;> rfl) (by intros; rfl) s t
@[simp] theorem State.setTime_entSeeds (s : State) (t : TimeSt) : (s.setTime t).dev.entSeeds = s.dev.entSeeds :=
  Aside.setTime (π := Dev.entSeeds) (by constructor <;> intros <;> rfl) (by intros; rfl) s t
@[simp] theorem State.setTime_keys (s : State) (t : TimeSt) : (s.setTime t).dev.keys = s.dev.keys :=
  Aside.setTime (π := Dev.keys) (by constructor <;> intros <;> rfl) (by intros; rfl) s t
@[simp] theorem State.setTime_keks (s : State) (t : TimeSt) : (s.setTime t).dev.keks = s.dev.keks :=
  Aside.setTime (π := Dev.keks) (by constructor <;> intros <;> rfl) (by intros; rfl) s t
@[simp] theorem State.setTime_keyHolds (s : State) (t : TimeSt) : (s.setTime t).dev.keyHolds = s.dev.keyHolds :=
  Aside.setTime (π := Dev.keyHolds) (by constructor <;> intros <;> rfl) (by intros; rfl) s t
@[simp] theorem State.setTime_wrapKey (s : State) (t : TimeSt) : (s.setTime t).dev.wrapKey = s.dev.wrapKey :=
  Aside.setTime (π := Dev.wrapKey) (by constructor <;> intros <;> rfl) (by intros; rfl) s t
@[simp] theorem State.setTime_keyBusy (s : State) (t : TimeSt) : (s.setTime t).dev.keyBusy = s.dev.keyBusy :=
  Aside.setTime (π := Dev.keyBusy) (by constructor <;> intros <;> rfl) (by intros; rfl) s t
@[simp] theorem State.setTime_keyPend (s : State) (t : TimeSt) : (s.setTime t).dev.keyPend = s.dev.keyPend :=
  Aside.setTime (π := Dev.keyPend) (by constructor <;> intros <;> rfl) (by intros; rfl) s t
@[simp] theorem State.setTime_keyLoadAt (s : State) (t : TimeSt) : (s.setTime t).dev.keyLoadAt = s.dev.keyLoadAt :=
  Aside.setTime (π := Dev.keyLoadAt) (by constructor <;> intros <;> rfl) (by intros; rfl) s t
@[simp] theorem State.setTime_saHigh (s : State) (t : TimeSt) : (s.setTime t).dev.saHigh = s.dev.saHigh :=
  Aside.setTime (π := Dev.saHigh) (by constructor <;> intros <;> rfl) (by intros; rfl) s t
@[simp] theorem State.setTime_saHighReq (s : State) (t : TimeSt) : (s.setTime t).dev.saHighReq = s.dev.saHighReq :=
  Aside.setTime (π := Dev.saHighReq) (by constructor <;> intros <;> rfl) (by intros; rfl) s t
@[simp] theorem State.setTime_saLimit (s : State) (t : TimeSt) : (s.setTime t).dev.saLimit = s.dev.saLimit :=
  Aside.setTime (π := Dev.saLimit) (by constructor <;> intros <;> rfl) (by intros; rfl) s t
@[simp] theorem State.setTime_saDone (s : State) (t : TimeSt) : (s.setTime t).dev.saDone = s.dev.saDone :=
  Aside.setTime (π := Dev.saDone) (by constructor <;> intros <;> rfl) (by intros; rfl) s t
@[simp] theorem State.setTime_saTaken (s : State) (t : TimeSt) : (s.setTime t).dev.saTaken = s.dev.saTaken :=
  Aside.setTime (π := Dev.saTaken) (by constructor <;> intros <;> rfl) (by intros; rfl) s t
@[simp] theorem State.setTime_vols (s : State) (t : TimeSt) : (s.setTime t).dev.vols = s.dev.vols :=
  Aside.setTime (π := Dev.vols) (by constructor <;> intros <;> rfl) (by intros; rfl) s t
@[simp] theorem State.setTime_stores (s : State) (t : TimeSt) : (s.setTime t).dev.stores = s.dev.stores :=
  Aside.setTime (π := Dev.stores) (by constructor <;> intros <;> rfl) (by intros; rfl) s t
@[simp] theorem State.setTime_media (s : State) (t : TimeSt) : (s.setTime t).dev.media = s.dev.media :=
  Aside.setTime (π := Dev.media) (by constructor <;> intros <;> rfl) (by intros; rfl) s t
@[simp] theorem State.setTime_logs (s : State) (t : TimeSt) : (s.setTime t).dev.logs = s.dev.logs :=
  Aside.setTime (π := Dev.logs) (by constructor <;> intros <;> rfl) (by intros; rfl) s t
@[simp] theorem State.setTime_sreads (s : State) (t : TimeSt) : (s.setTime t).dev.sreads = s.dev.sreads :=
  Aside.setTime (π := Dev.sreads) (by constructor <;> intros <;> rfl) (by intros; rfl) s t
@[simp] theorem State.setTime_swrites (s : State) (t : TimeSt) : (s.setTime t).dev.swrites = s.dev.swrites :=
  Aside.setTime (π := Dev.swrites) (by constructor <;> intros <;> rfl) (by intros; rfl) s t
@[simp] theorem State.setTime_scrubVol (s : State) (t : TimeSt) : (s.setTime t).dev.scrubVol = s.dev.scrubVol :=
  Aside.setTime (π := Dev.scrubVol) (by constructor <;> intros <;> rfl) (by intros; rfl) s t
@[simp] theorem State.setTime_scrubWin (s : State) (t : TimeSt) : (s.setTime t).dev.scrubWin = s.dev.scrubWin :=
  Aside.setTime (π := Dev.scrubWin) (by constructor <;> intros <;> rfl) (by intros; rfl) s t
@[simp] theorem State.setTime_scrubCount (s : State) (t : TimeSt) : (s.setTime t).dev.scrubCount = s.dev.scrubCount :=
  Aside.setTime (π := Dev.scrubCount) (by constructor <;> intros <;> rfl) (by intros; rfl) s t
@[simp] theorem State.setTime_queues (s : State) (t : TimeSt) : (s.setTime t).dev.queues = s.dev.queues :=
  Aside.setTime (π := Dev.queues) (by constructor <;> intros <;> rfl) (by intros; rfl) s t
@[simp] theorem State.setTime_qcmds (s : State) (t : TimeSt) : (s.setTime t).dev.qcmds = s.dev.qcmds :=
  Aside.setTime (π := Dev.qcmds) (by constructor <;> intros <;> rfl) (by intros; rfl) s t
@[simp] theorem State.setTime_qidle (s : State) (t : TimeSt) : (s.setTime t).dev.qidle = s.dev.qidle :=
  Aside.setTime (π := Dev.qidle) (by constructor <;> intros <;> rfl) (by intros; rfl) s t
@[simp] theorem State.setTime_engServing (s : State) (t : TimeSt) : (s.setTime t).dev.engServing = s.dev.engServing :=
  Aside.setTime (π := Dev.engServing) (by constructor <;> intros <;> rfl) (by intros; rfl) s t
@[simp] theorem State.setTime_flr (s : State) (t : TimeSt) : (s.setTime t).dev.flr = s.dev.flr :=
  Aside.setTime (π := Dev.flr) (by constructor <;> intros <;> rfl) (by intros; rfl) s t
@[simp] theorem State.setTime_late (s : State) (t : TimeSt) : (s.setTime t).dev.late = s.dev.late :=
  Aside.setTime (π := Dev.late) (by constructor <;> intros <;> rfl) (by intros; rfl) s t
@[simp] theorem State.setTime_ownerMove (s : State) (t : TimeSt) : (s.setTime t).dev.ownerMove = s.dev.ownerMove :=
  Aside.setTime (π := Dev.ownerMove) (by constructor <;> intros <;> rfl) (by intros; rfl) s t
@[simp] theorem State.setTime_activation (s : State) (t : TimeSt) : (s.setTime t).dev.activation = s.dev.activation :=
  Aside.setTime (π := Dev.activation) (by constructor <;> intros <;> rfl) (by intros; rfl) s t
@[simp] theorem State.setTime_flashOp (s : State) (t : TimeSt) : (s.setTime t).dev.flashOp = s.dev.flashOp :=
  Aside.setTime (π := Dev.flashOp) (by constructor <;> intros <;> rfl) (by intros; rfl) s t
@[simp] theorem State.setTime_rollback (s : State) (t : TimeSt) : (s.setTime t).dev.rollback = s.dev.rollback :=
  Aside.setTime (π := Dev.rollback) (by constructor <;> intros <;> rfl) (by intros; rfl) s t
@[simp] theorem State.setTime_windows (s : State) (t : TimeSt) : (s.setTime t).dev.windows = s.dev.windows :=
  Aside.setTime (π := Dev.windows) (by constructor <;> intros <;> rfl) (by intros; rfl) s t
@[simp] theorem State.setTime_locking (s : State) (t : TimeSt) : (s.setTime t).dev.locking = s.dev.locking :=
  Aside.setTime (π := Dev.locking) (by constructor <;> intros <;> rfl) (by intros; rfl) s t
@[simp] theorem State.setTime_lossSince (s : State) (t : TimeSt) : (s.setTime t).dev.lossSince = s.dev.lossSince :=
  Aside.setTime (π := Dev.lossSince) (by constructor <;> intros <;> rfl) (by intros; rfl) s t
@[simp] theorem State.setTime_domSwitch (s : State) (t : TimeSt) : (s.setTime t).dev.domSwitch = s.dev.domSwitch :=
  Aside.setTime (π := Dev.domSwitch) (by constructor <;> intros <;> rfl) (by intros; rfl) s t
@[simp] theorem State.setTime_ocLevel (s : State) (t : TimeSt) : (s.setTime t).dev.ocLevel = s.dev.ocLevel :=
  Aside.setTime (π := Dev.ocLevel) (by constructor <;> intros <;> rfl) (by intros; rfl) s t
@[simp] theorem State.setTime_dead (s : State) (t : TimeSt) : (s.setTime t).dev.dead = s.dev.dead :=
  Aside.setTime (π := Dev.dead) (by constructor <;> intros <;> rfl) (by intros; rfl) s t
@[simp] theorem State.setTime_resetHeld (s : State) (t : TimeSt) : (s.setTime t).dev.resetHeld = s.dev.resetHeld :=
  Aside.setTime (π := Dev.resetHeld) (by constructor <;> intros <;> rfl) (by intros; rfl) s t
@[simp] theorem State.setTime_tripped (s : State) (t : TimeSt) : (s.setTime t).dev.tripped = s.dev.tripped :=
  Aside.setTime (π := Dev.tripped) (by constructor <;> intros <;> rfl) (by intros; rfl) s t
@[simp] theorem State.setTime_tap (s : State) (t : TimeSt) : (s.setTime t).dev.tap = s.dev.tap :=
  Aside.setTime (π := Dev.tap) (by constructor <;> intros <;> rfl) (by intros; rfl) s t
@[simp] theorem State.setTime_mbus (s : State) (t : TimeSt) : (s.setTime t).dev.mbus = s.dev.mbus :=
  Aside.setTime (π := Dev.mbus) (by constructor <;> intros <;> rfl) (by intros; rfl) s t
@[simp] theorem State.setTime_bootRec (s : State) (t : TimeSt) : (s.setTime t).dev.bootRec = s.dev.bootRec :=
  Aside.setTime (π := Dev.bootRec) (by constructor <;> intros <;> rfl) (by intros; rfl) s t
@[simp] theorem State.setTime_drpCfg (s : State) (t : TimeSt) : (s.setTime t).dev.drpCfg = s.dev.drpCfg :=
  Aside.setTime (π := Dev.drpCfg) (by constructor <;> intros <;> rfl) (by intros; rfl) s t
@[simp] theorem State.setTime_drives (s : State) (t : TimeSt) : (s.setTime t).dev.drives = s.dev.drives :=
  Aside.setTime (π := Dev.drives) (by constructor <;> intros <;> rfl) (by intros; rfl) s t
@[simp] theorem State.setTime_console (s : State) (t : TimeSt) : (s.setTime t).dev.console = s.dev.console :=
  Aside.setTime (π := Dev.console) (by constructor <;> intros <;> rfl) (by intros; rfl) s t
@[simp] theorem State.setTime_txUsed (s : State) (t : TimeSt) : (s.setTime t).dev.txUsed = s.dev.txUsed :=
  Aside.setTime (π := Dev.txUsed) (by constructor <;> intros <;> rfl) (by intros; rfl) s t
@[simp] theorem State.setTime_blkDeficit (s : State) (t : TimeSt) : (s.setTime t).dev.blkDeficit = s.dev.blkDeficit :=
  Aside.setTime (π := Dev.blkDeficit) (by constructor <;> intros <;> rfl) (by intros; rfl) s t
@[simp] theorem State.setTime_qTaken (s : State) (t : TimeSt) : (s.setTime t).dev.qTaken = s.dev.qTaken :=
  Aside.setTime (π := Dev.qTaken) (by constructor <;> intros <;> rfl) (by intros; rfl) s t

end Sys2Proof.Machine
end

