-- ==== Sys2Proof/Laws/Memory.lean ====
section
/-! SUPPORT. Sparse maps, HBM and flash: a read after a write, reads elsewhere, and the canonical form that every
operation keeps. -/

namespace Sys2Proof.Machine

variable {V : Type}

/-! ### Lists of cells -/

theorem cellsFind_erase_self (l : List (Nat × V)) (k : Nat) : cellsFind (cellsErase l k) k = none := by
  induction l with
  | nil => rfl
  | cons c l ih => simp only [cellsErase]; split <;> simp [cellsFind, *]

theorem cellsFind_erase_ne (l : List (Nat × V)) {j k : Nat} (h : j ≠ k) : cellsFind (cellsErase l k) j = cellsFind l j := by
  induction l with
  | nil => rfl
  | cons c l ih =>
    simp only [cellsErase]
    split
    · rename_i hk
      subst hk
      simp [cellsFind, ih, Ne.symm h]
    · simp [cellsFind, ih]

theorem cellsFind_insert_self (l : List (Nat × V)) (k : Nat) (v : V) (h : cellsFind l k = none) :
    cellsFind (cellsInsert l k v) k = some v := by
  induction l with
  | nil => simp [cellsInsert, cellsFind]
  | cons c l ih =>
    simp only [cellsFind] at h
    split at h
    · cases h
    · simp only [cellsInsert]
      split <;> simp [cellsFind, *]

theorem cellsFind_insert_ne (l : List (Nat × V)) {j k : Nat} (v : V) (h : j ≠ k) :
    cellsFind (cellsInsert l k v) j = cellsFind l j := by
  induction l with
  | nil => simp [cellsInsert, cellsFind, Ne.symm h]
  | cons c l ih =>
    simp only [cellsInsert]
    split <;> simp [cellsFind, ih, Ne.symm h]

theorem mem_cellsErase {l : List (Nat × V)} {k : Nat} {c : Nat × V} (h : c ∈ cellsErase l k) : c ∈ l ∧ c.1 ≠ k := by
  induction l with
  | nil => cases h
  | cons a l ih =>
    simp only [cellsErase] at h
    split at h
    · exact ⟨.tail _ (ih h).1, (ih h).2⟩
    · cases h with
      | head => exact ⟨.head _, ‹_›⟩
      | tail _ h => exact ⟨.tail _ (ih h).1, (ih h).2⟩

theorem mem_cellsInsert {l : List (Nat × V)} {k : Nat} {v : V} {c : Nat × V} (h : c ∈ cellsInsert l k v) :
    c = (k, v) ∨ c ∈ l := by
  induction l with
  | nil => simpa [cellsInsert] using h
  | cons a l ih =>
    simp only [cellsInsert] at h
    split at h
    · simpa using h
    · rcases List.mem_cons.mp h with rfl | h
      · exact .inr (.head _)
      · exact (ih h).imp id (.tail _)

/-- Keys strictly rising. -/
abbrev Rising (l : List (Nat × V)) : Prop := (l.map (·.1)).Pairwise (· < ·)

theorem rising_erase {l : List (Nat × V)} (k : Nat) (h : Rising l) : Rising (cellsErase l k) := by
  induction l with
  | nil => exact h
  | cons a l ih =>
    simp only [Rising, List.map_cons, List.pairwise_cons] at h
    simp only [cellsErase]
    split
    · exact ih h.2
    · simp only [Rising, List.map_cons, List.pairwise_cons]
      refine ⟨fun x hx => ?_, ih h.2⟩
      obtain ⟨c, hc, rfl⟩ := List.mem_map.mp hx
      exact h.1 _ (List.mem_map_of_mem (mem_cellsErase hc).1)

theorem rising_insert {l : List (Nat × V)} {k : Nat} (v : V) (h : Rising l) (hk : ∀ c ∈ l, c.1 ≠ k) :
    Rising (cellsInsert l k v) := by
  induction l with
  | nil => simp [cellsInsert, Rising]
  | cons a l ih =>
    simp only [Rising, List.map_cons, List.pairwise_cons] at h
    simp only [cellsInsert]
    split
    · rename_i hlt
      simp only [Rising, List.map_cons, List.pairwise_cons, List.mem_cons]
      refine ⟨?_, h⟩
      rintro x (rfl | hx)
      · exact hlt
      · exact Nat.lt_trans hlt (h.1 x hx)
    · rename_i hge
      simp only [Rising, List.map_cons, List.pairwise_cons]
      refine ⟨fun x hx => ?_, ih h.2 fun c hc => hk c (.tail _ hc)⟩
      obtain ⟨c, hc, rfl⟩ := List.mem_map.mp hx
      rcases mem_cellsInsert hc with rfl | hc
      · have := hk a (.head _)
        show a.1 < k
        omega
      · exact h.1 _ (List.mem_map_of_mem hc)

/-! ### Maps -/

@[simp] theorem NMap.getD_set_self [DecidableEq V] (m : NMap V) (k : Nat) (v d : V) : (m.set k v d).getD k d = v := by
  unfold NMap.set NMap.getD
  split
  · rename_i h; simp [cellsFind_erase_self, h]
  · simp [cellsFind_insert_self _ _ _ (cellsFind_erase_self _ _)]

theorem NMap.getD_set_ne [DecidableEq V] (m : NMap V) {j k : Nat} (v d e : V) (h : j ≠ k) :
    (m.set k v d).getD j e = m.getD j e := by
  unfold NMap.set NMap.getD
  split
  · simp [cellsFind_erase_ne _ h]
  · simp [cellsFind_insert_ne _ _ h, cellsFind_erase_ne _ h]

@[simp] theorem NMap.getD_put_self (m : NMap V) (k : Nat) (v e : V) : (m.put k v).getD k e = v := by
  simp [NMap.put, NMap.getD, cellsFind_insert_self _ _ _ (cellsFind_erase_self _ _)]

theorem NMap.getD_put_ne (m : NMap V) {j k : Nat} (v e : V) (h : j ≠ k) : (m.put k v).getD j e = m.getD j e := by
  simp [NMap.put, NMap.getD, cellsFind_insert_ne _ _ h, cellsFind_erase_ne _ h]

@[simp] theorem NMap.find_put_self (m : NMap V) (k : Nat) (v : V) : (m.put k v).find k = some v := by
  simp [NMap.put, NMap.find, cellsFind_insert_self _ _ _ (cellsFind_erase_self _ _)]

theorem NMap.find_put_ne (m : NMap V) {j k : Nat} (v : V) (h : j ≠ k) : (m.put k v).find j = m.find j := by
  simp [NMap.put, NMap.find, cellsFind_insert_ne _ _ h, cellsFind_erase_ne _ h]

@[simp] theorem NMap.find_erase_self (m : NMap V) (k : Nat) : (m.erase k).find k = none := cellsFind_erase_self _ _

theorem NMap.find_erase_ne (m : NMap V) {j k : Nat} (h : j ≠ k) : (m.erase k).find j = m.find j := cellsFind_erase_ne _ h

/-- A write keeps the canonical form. -/
theorem NMap.wf_set [DecidableEq V] {m : NMap V} {f : Nat → V} (k : Nat) (v : V) (h : m.wf f) :
    (m.set k v (f k)).wf f := by
  unfold NMap.set
  have he := rising_erase k h.1
  split
  · exact ⟨he, fun c hc => h.2 c (mem_cellsErase hc).1⟩
  · refine ⟨rising_insert v he fun c hc => (mem_cellsErase hc).2, fun c hc => ?_⟩
    rcases mem_cellsInsert hc with rfl | hc
    · assumption
    · exact h.2 c (mem_cellsErase hc).1

/-- A filter keeps the canonical form. -/
theorem NMap.wf_filter [DecidableEq V] {m : NMap V} {f : Nat → V} (p : Nat → V → Bool) (h : m.wf f) :
    (m.filter p).wf f :=
  ⟨List.Pairwise.sublist (List.filter_sublist.map _) h.1, fun c hc => h.2 c (List.mem_filter.mp hc).1⟩

/-! ### HBM and flash -/

/-- Bytes written to HBM keep its canonical form. -/
theorem hbmPut_wf {m : NMap Byte} (h : Memory.wf m) (a : Nat) (bs : List Byte) : Memory.wf (hbmPut m a bs) := by
  induction bs generalizing m a with
  | nil => exact h
  | cons b bs ih => exact ih (NMap.wf_set a b h) _

/-- The bits of a dirty log keep the canonical form of HBM. -/
theorem dirtyBits_wf {m : NMap Byte} (h : Memory.wf m) (bm : Nat) (ps : List Nat) : Memory.wf (dirtyBits m bm ps) := by
  induction ps generalizing m with
  | nil => exact h
  | cons p ps ih => exact ih (NMap.wf_set _ _ h)

/-- Bytes stored in the flash keep its canonical form. -/
theorem flashPut_wf {m : NMap Byte} (h : Flash.wf m) (a : Nat) (bs : List Byte) : Flash.wf (flashPut m a bs) := by
  induction bs generalizing m a with
  | nil => exact h
  | cons b bs ih => exact ih (NMap.wf_set a b h) _

/-- Bytes cleared in HBM keep its canonical form. -/
theorem Dev.hbmZero_wf {d : Dev} (h : Memory.wf d.hbm) (a n : Nat) : Memory.wf (d.hbmZero a n).hbm := NMap.wf_filter _ h

/-- Bytes erased in the flash keep its canonical form. -/
theorem Dev.flashErase_wf {d : Dev} (h : Flash.wf d.flash) (a n : Nat) : Flash.wf (d.flashErase a n).flash :=
  NMap.wf_filter _ h

/-- HBM and flash are in canonical form at reset. -/
theorem reset_wf : Memory.wf State.reset.dev.hbm ∧ Flash.wf State.reset.dev.flash := by
  refine ⟨⟨?_, ?_⟩, ⟨?_, ?_⟩⟩ <;> simp [State.reset]

/-- A byte outside those written reads as before. -/
theorem hbmPut_elsewhere (m : NMap Byte) (a : Nat) (bs : List Byte) {j : Nat} (h : j < a ∨ a + bs.length ≤ j) :
    (hbmPut m a bs).getD j 0 = m.getD j 0 := by
  induction bs generalizing m a with
  | nil => rfl
  | cons b bs ih =>
    simp only [List.length_cons] at h
    rw [hbmPut, ih _ _ (by omega), NMap.getD_set_ne _ _ _ _ (by omega)]

/-! ### Registers -/

/-- A register word reads as it was written. -/
@[simp] theorem Dev.rd_wr_self (d : Dev) (k : Nat) (v : Word) : (d.wr k v).rd k = v := by simp [Dev.rd, Dev.wr]

/-- Another register word reads as before. -/
theorem Dev.rd_wr_ne (d : Dev) {j k : Nat} (v : Word) (h : j ≠ k) : (d.wr k v).rd j = d.rd j := by
  simp [Dev.rd, Dev.wr, NMap.getD_set_ne _ _ _ _ h]

end Sys2Proof.Machine
end

