-- ==== Sys2Proof/WellFormed.lean ====
section
/-! DEFINITION. The commands that name something the device has: numbers of functions, pages, rings, ports and the other
numbered things in range, accesses of 4 or 8 bytes. -/

namespace Sys2Proof

/-- A function the host links can have (R539): PF0 and VF 1 to 2048 of link 0 or 1. -/
def Func.wf (f : Func) : Bool := decide (f.link < 2) && decide (f.num ≤ 2048)

/-- A party the device has (R41). -/
def Party.wf : Party → Bool
  | .hif0 => true
  | .hif1 => true
  | .pair => true
  | .core c => decide (c < 4)
  | .pipe p => decide (p < 8)
  | .engine e => decide (e < 4)
  | .vf f => f.wf && decide (f.num ≠ 0)

/-- A unit the device has. -/
def FaultUnit.wf : FaultUnit → Bool
  | .pipeline p => decide (p < 8)
  | .engine e => decide (e < 4)
  | .lane k l => decide (k < 3) && decide (l < 16)
  | .cluster c => decide (c < 4)
  | .other page => decide (page < 0x8000000)

/-- A message on a port the device has. -/
def PtpSend.wf : PtpSend → Bool
  | .delayReq n => decide (n < 4)
  | .peerReq n => decide (n < 4)
  | .peerResp n => decide (n < 4)
  | .peerFollowUp n => decide (n < 4)

/-- The command names only things the device has. -/
def Instr.wf (i : Instr) : Bool :=
  match i with
  | .registerWrite pt off width _ => pt.wf && off < 0x10000000 && decide (1 ≤ width ∧ width ≤ 8)
  | .pgEnableWrite pt page _ => pt.wf && page % 0x10000 = 0 && page < 0x8000000
  | .pgQuiesceWrite pt page _ => pt.wf && page % 0x10000 = 0 && page < 0x8000000
  | .pgReset pt page _ => pt.wf && page % 0x10000 = 0 && page < 0x8000000
  | .pgIntForce pt page _ => pt.wf && page % 0x10000 = 0 && page < 0x8000000
  | .pgIntStatusClear pt page _ => pt.wf && page % 0x10000 = 0 && page < 0x8000000
  | .pgIntEnableWrite pt page _ => pt.wf && page % 0x10000 = 0 && page < 0x8000000
  | .pgIntRouteWrite pt page _ => pt.wf && page % 0x10000 = 0 && page < 0x8000000
  | .errLogClear pt page _ => pt.wf && page % 0x10000 = 0 && page < 0x8000000
  | .msixUnmask f _ => f.wf
  | .timNowCapture pt width => pt.wf && (width = 4 || width = 8)
  | .timIncrWrite pt _ width _ => pt.wf && (width = 4 || width = 8)
  | .timSlewIncrWrite pt _ width _ => pt.wf && (width = 4 || width = 8)
  | .timStep pt _ width _ => pt.wf && (width = 4 || width = 8)
  | .timLoad pt _ => pt.wf
  | .timSlewStart pt _ => pt.wf
  | .slewDone => true
  | .absorbDone => true
  | .servoKick pt _ => pt.wf
  | .timOwnerChange pt _ => pt.wf
  | .validSet pt _ => pt.wf
  | .holdoverTimeout => true
  | .holdLimitExpire => true
  | .fantailSync port _ _ => port < 4
  | .fantailSend m => m.wf
  | .tpoEnable pt n _ => pt.wf && n < 8
  | .tpoEdge n => n < 8
  | .tpoPulseEnd n => n < 8
  | .tciEdge n _ => n < 4
  | .tciRead pt n width => pt.wf && n < 8 && (width = 4 || width = 8)
  | .turnBoundary _ => true
  | .stageOpen => true
  | .periodChange pt _ => pt.wf
  | .ringEnable pt r _ => pt.wf && r < 65536
  | .ringDisable pt r _ => pt.wf && r < 65536
  | .ringReset pt r _ => pt.wf && r < 65536
  | .ringDrainDone r => r < 65536
  | .doorbell f off width _ => f.wf && off < 0x8000000 && (width = 4 || width = 8)
  | .entryFetch r _ => r < 65536
  | .sendGather r => r < 65536
  | .sendInline r => r < 65536
  | .txFrameReadDone r => r < 65536
  | .hostReadComplete _ _ => true
  | .rxDeliver r => r < 65536
  | .rxHoldExpire r => r < 65536
  | .ringIrqTimer r => r < 65536
  | .distribute => true
  | .sluiceWaitExpire _ => true
  | .sluiceAdmit p => p < 8
  | .patternScan p => p < 8
  | .scanCut p _ => p < 8
  | .stage7Start p => p < 8
  | .endRecord p _ => p < 8
  | .setField p _ => p < 8
  | .addField p _ => p < 8
  | .copyField p _ => p < 8
  | .pushHdr p _ => p < 8
  | .popHdr p _ => p < 8
  | .setPort p _ => p < 8
  | .setQueue p _ => p < 8
  | .toRing p _ => p < 8
  | .mirror p _ => p < 8
  | .count p _ => p < 8
  | .govern p _ => p < 8
  | .cipher p _ => p < 8
  | .inspect p _ => p < 8
  | .learn p _ => p < 8
  | .leat p _ => p < 8
  | .toCore p _ => p < 8
  | .drop p _ => p < 8
  | .timestampOneStep p _ => p < 8
  | .prsImgRead pt p _ => pt.wf && p < 8
  | .prsImgWrite pt p _ => pt.wf && p < 8
  | .clsImgRead pt p _ => pt.wf && p < 8
  | .clsImgWrite pt p _ => pt.wf && p < 8
  | .actImgRead pt p _ => pt.wf && p < 8
  | .actImgWrite pt p _ => pt.wf && p < 8
  | .patImgRead pt p _ => pt.wf && p < 8
  | .patImgWrite pt p _ => pt.wf && p < 8
  | .hshIndRead pt p _ => pt.wf && p < 8
  | .hshIndWrite pt p _ => pt.wf && p < 8
  | .patCompile r => r < 65536
  | .patRelease r => r < 65536
  | .tableCreate pt t _ => pt.wf && t < 16
  | .initDone t => t < 16
  | .tableDestroy pt t _ => pt.wf && t < 16
  | .tableDrainDone t => t < 16
  | .insert r => r < 65536
  | .replace r => r < 65536
  | .delete r => r < 65536
  | .refresh r => r < 65536
  | .tblcRead r => r < 65536
  | .writeBucket r => r < 65536
  | .learnKey r => r < 65536
  | .sweepVisit t => t < 16
  | .sweepDelete t => t < 16
  | .scrubVisit t _ => t < 16
  | .scrubRecheck t _ _ => t < 16
  | .faultRepair t _ _ => t < 16
  | .learnTokenRefill t => t < 16
  | .lrnFrameSend => true
  | .lrnFrameReceive => true
  | .lrnResyncRequest => true
  | .lrnResyncRetry sender => sender < 16384
  | .frameReceive port _ _ => port < 5
  | .frameTransmit port => port < 5
  | .pfcReceive port _ _ => port < 4
  | .pfcPauseExpire port pri => port < 4 && pri < 8
  | .pfcRefresh port pri => port < 4 && pri < 8
  | .govAccRead pt _ => pt.wf
  | .govAccWrite pt _ => pt.wf
  | .inlineStart lane => lane < 16
  | .inlineComplete lane => lane < 16
  | .saWrite r => r < 65536
  | .saRead r => r < 65536
  | .saInvalidate r => r < 65536
  | .keyUnwrap r => r < 65536
  | .keyZeroise r => r < 65536
  | .keyInfo r => r < 65536
  | .keyLoad pt _ => pt.wf
  | .zeroiseSlot pt _ => pt.wf
  | .zeroiseFunc pt _ => pt.wf
  | .zeroiseAll pt _ => pt.wf
  | .zeroiseDone => true
  | .keyLoadDataExpire => true
  | .keyEnable pt _ => pt.wf
  | .keyDisable pt _ => pt.wf
  | .saRegionDisable pt _ => pt.wf
  | .encrypt r => r < 65536
  | .decrypt r => r < 65536
  | .macJob r => r < 65536
  | .lookVerify r => r < 65536
  | .hashJob r => r < 65536
  | .lookJobComplete r => r < 65536
  | .storeJobComplete _ => true
  | .entHealthFail _ => true
  | .entRecovered => true
  | .entRandRead pt width => pt.wf && (width = 4 || width = 8)
  | .push f off _ _ => f.wf && off < 0x8000000
  | .refusalCompletion q => q < 16384
  | .commandStart q => q < 16384
  | .read _ => true
  | .write _ => true
  | .flush _ => true
  | .deallocate _ => true
  | .writeZeroes _ => true
  | .verify _ => true
  | .compareAndWrite _ => true
  | .storeAck store _ => store < 96
  | .storeReadComplete _ _ _ => true
  | .quernComplete _ => true
  | .storeFail store => store < 96
  | .substituteTimeout _ => true
  | .noExtentTimeout _ => true
  | .blkScrub vol _ _ => vol < 65536
  | .rebuild store => store < 96
  | .segmentClean vol _ => vol < 65536
  | .storeAdd r => r < 65536
  | .storeRemove r => r < 65536
  | .storeRemoved store => store < 96
  | .volCreate r => r < 65536
  | .volState r => r < 65536
  | .volumeQuiesced vol => vol < 65536
  | .volMigrate r => r < 65536
  | .migrationDone vol => vol < 65536
  | .volResize r => r < 65536
  | .volDelete r => r < 65536
  | .volInfo r => r < 65536
  | .volRecover r => r < 65536
  | .scrubNow r => r < 65536
  | .homeEngineReturn vol => vol < 65536
  | .queueEnable pt q _ => pt.wf && q < 16384
  | .queueDisable pt q _ => pt.wf && q < 16384
  | .queueDrainDone q => q < 16384
  | .queueReset pt q _ => pt.wf && q < 16384
  | .resetTimeout _ => true
  | .resetDone q => q < 16384
  | .qsIdleTimeout f => f.wf
  | .psMaxWrite pt f _ => pt.wf && f.wf
  | .linkFundamentalReset link => link < 2
  | .perstDeassert link => link < 2
  | .hotReset link => link < 2
  | .flr f => f.wf
  | .flrComplete f => f.wf
  | .vfEnableSet link => link < 2
  | .vfEnableClear link => link < 2
  | .linkUp link _ width _ => link < 2 && width ≤ 16
  | .linkDown link => link < 2
  | .bmeClear f => f.wf
  | .bmeSet f => f.wf
  | .completionTimeout _ => true
  | .lateCompletion _ => true
  | .poisonedCompletion _ => true
  | .invalidateRequest f _ _ => f.wf
  | .unsupportedRequest q => match q with
    | .atomicOp k | .io k | .type1 k | .memory k _ => k < 2
  | .apertureAccess link off _ => link < 2 && off < 0x40000000
  | .configWrite link reg _ => link < 2 && match reg with
    | .control2 n => decide (n ≤ 2048)
    | .bar i | .vfBar i => decide (i < 6)
    | .cap n off => decide (n ≤ 2048) && decide (off < 4096) && off % 4 == 0
    | _ => true
  | .vfmGrant r => r < 65536
  | .vfmQuiesce r => r < 65536
  | .vfQuiesced f => f.wf
  | .vfmResume r => r < 65536
  | .vfmDirtyStart r => r < 65536
  | .vfmDirtyHarvest r => r < 65536
  | .harvestDone f => f.wf
  | .vfmDirtyStop r => r < 65536
  | .vfmInfo r => r < 65536
  | .vfMbxSend f _ => f.wf
  | .vfMbxAck f _ => f.wf
  | .vfmMbxSend pt link _ => pt.wf && link < 2
  | .vfmMbxAck pt link _ => pt.wf && link < 2
  | .portLinkUp port => port < 5
  | .portLinkFault port _ => port < 5
  | .trainingTimeout port => port < 5
  | .portEnable port => port < 5
  | .portDisable port => port < 5
  | .modprsChange port _ => port < 4
  | .modintAssert port => port < 4
  | .forceRecal pt quad lane _ => pt.wf && quad < 9 && lane < 16
  | .heartbeat _ => true
  | .mirrorFrame => true
  | .ack _ => true
  | .role _ => true
  | .retransmit stream => stream < 64
  | .partnerLost => true
  | .switchRole pt _ => pt.wf
  | .forceRole pt _ => pt.wf
  | .groupKindWrite pt g _ => pt.wf && g < 8
  | .fwInfo r => r < 65536
  | .fwStage r => r < 65536
  | .fwActivate r => r < 65536
  | .activationComplete => true
  | .actDeferred => true
  | .fwRollbackCommit r => r < 65536
  | .debugUnlock r => r < 65536
  | .debugLock r => r < 65536
  | .reboot pt _ => pt.wf
  | .flashRead pt _ => pt.wf
  | .flashProgram pt _ => pt.wf
  | .flashErase pt _ => pt.wf
  | .flashDone => true
  | .bootComplete => true
  | .uncorrectableError u => u.wf
  | .transitBoundExceeded p => p < 8
  | .engineNoProgress e => e < 4
  | .laneBoundExceeded cluster lane => cluster < 3 && lane < 16
  | .watchdogExpire c => c < 4
  | .judgeWindow iosc => iosc < 0x10000
  | .refAccepted => true
  | .refLost => true
  | .vinOutOfRange _ => true
  | .brownOut => true
  | .iinWindow _ => true
  | .vioFault => true
  | .tjWarn _ => true
  | .thermalTrip _ => true
  | .domainOff pt _ => pt.wf
  | .domainOffComplete => true
  | .leatWithdrawExpire p => p < 8
  | .domainOn pt _ => pt.wf
  | .domainOnComplete => true
  | .por => true
  | .deviceReset => true
  | .idcode => true
  | .samplePreload _ => true
  | .extest => true
  | .extestPulse => true
  | .extestTrain => true
  | .highz => true
  | .clamp => true
  | .bypass => true
  | .regAccess _ => true
  | .mbTransfer bus _ _ _ => bus < 2
  | .dynamicAddressAssign bus _ => bus < 2
  | .uartRx _ => true
  | .pllLockTimeout => true
  | .refEdgesResume => true
  | .drpPresenceChange j _ => j < 4
  | .sysRstNRelease => true
  | .activationRetry => true
  | .vinReturnToRange _ => true
  | .pairLinkFramesLost => true

end Sys2Proof
end

