-- ==== Sys2Proof/Tests/Slice0.lean ====
section
/-! SUPPORT. Tests: the ill-formed commands that WellFormed refuses, the decoder, one step of a few commands against
values of the chapters, and for every statement with hypotheses a state and operands that meet them. -/

namespace Sys2Proof.Tests

open Sys2Proof Sys2Proof.Machine

-- Kernel evaluations one after another: run at once they take more threads than the check's memory limit allows.
set_option Elab.async false

/-! ### Small states -/

/-- The state at reset with another device. -/
def on (d : Dev) : State := { State.reset with dev := d }

/-- A device with all power domains on and ENABLE set in instances of blocks. -/
def Dev.run (d : Dev) (bs : List (Blk × Nat)) : Dev :=
  bs.foldl (fun d b => d.wrN (ctrlReg b.1 b.2) 1) (d.wr64 (reg .pwr 0 0x128) 0x1FFFFFFFE)

/-- A device with words set. -/
def Dev.words (d : Dev) (xs : List (Nat × Nat)) : Dev := xs.foldl (fun d x => d.wrN x.1 x.2) d

/-- The device at reset. -/
def d0 : Dev := {}

/-- A write is permitted and reaches a register of which `p` holds. -/
def permitted (s : State) (pt : Party) (off width v : Nat) (p : Tgt → Bool) : Bool :=
  s.live && match s.dev.writeCheck pt off width v with
    | .ok t => p t
    | .error _ => false

/-- What `permitted` says. -/
theorem permitted_spec {s : State} {pt : Party} {off width v : Nat} {p : Tgt → Bool} (h : permitted s pt off width v p = true) :
    ∃ t, s.permits pt off width v t ∧ p t = true := by
  unfold permitted at h
  cases hl : s.live <;> simp only [hl, Bool.false_and, Bool.true_and, Bool.false_eq_true] at h
  cases hw : s.dev.writeCheck pt off width v with
  | error e => simp only [hw, Bool.false_eq_true] at h
  | ok t => exact ⟨t, ⟨hl, hw⟩, by simpa only [hw] using h⟩

/-- A read reaches a register of which `p` holds. -/
def readable (s : State) (pt : Party) (off width : Nat) (p : Tgt → Bool) : Bool :=
  s.live && match s.dev.readCheck pt off width with
    | (_, some t) => p t
    | (_, none) => false

/-- The outcome is a next state of which `p` holds. -/
def nextIs (o : Host.Outcome State Fault Refusal) (p : State → Bool) : Bool :=
  match o with
  | .next t => p t
  | _ => false

/-- There is a value of which `p` holds. -/
def someIs {α : Type} (o : Option α) (p : α → Bool) : Bool :=
  match o with
  | some a => p a
  | none => false

/-! ### Well-formed commands -/

/-- An ill-formed function, party, unit, offset, page and width, each refused. -/
theorem test_ill_formed_operands :
    Instr.wf (.flr ⟨2, 0⟩) = false ∧ Instr.wf (.flr ⟨0, 2049⟩) = false ∧ Instr.wf (.timLoad (.core 4) 0) = false ∧
    Instr.wf (.timLoad (.pipe 8) 0) = false ∧ Instr.wf (.timLoad (.engine 4) 0) = false ∧
    Instr.wf (.timLoad (.vf ⟨0, 0⟩) 0) = false ∧ Instr.wf (.uncorrectableError (.pipeline 8)) = false ∧
    Instr.wf (.uncorrectableError (.engine 4)) = false ∧ Instr.wf (.uncorrectableError (.lane 3 0)) = false ∧
    Instr.wf (.uncorrectableError (.lane 0 16)) = false ∧ Instr.wf (.uncorrectableError (.cluster 4)) = false ∧
    Instr.wf (.uncorrectableError (.other 0x8000000)) = false ∧ Instr.wf (.registerWrite .hif0 0x10000000 4 0) = false ∧
    Instr.wf (.registerWrite .hif0 0 9 0) = false ∧ Instr.wf (.pgReset .hif0 0x10004 0) = false ∧
    Instr.wf (.pgReset .hif0 0x8000000 0) = false ∧ Instr.wf (.timNowCapture .hif0 2) = false := by decide

/-- An ill-formed number of each numbered thing, each refused. -/
theorem test_ill_formed_numbers :
    Instr.wf (.fantailSync 4 0 0) = false ∧ Instr.wf (.tpoEdge 8) = false ∧ Instr.wf (.tciEdge 4 true) = false ∧
    Instr.wf (.ringDrainDone 65536) = false ∧ Instr.wf (.doorbell ⟨0, 0⟩ 0 2 0) = false ∧ Instr.wf (.sluiceAdmit 8) = false ∧
    Instr.wf (.initDone 16) = false ∧ Instr.wf (.lrnResyncRetry 16384) = false ∧ Instr.wf (.frameTransmit 5) = false ∧
    Instr.wf (.pfcReceive 4 0 []) = false ∧ Instr.wf (.pfcRefresh 0 8) = false ∧ Instr.wf (.inlineStart 16) = false ∧
    Instr.wf (.commandStart 16384) = false ∧ Instr.wf (.storeFail 96) = false ∧ Instr.wf (.volumeQuiesced 65536) = false ∧
    Instr.wf (.linkDown 2) = false ∧ Instr.wf (.linkUp 0 6 17 true) = false ∧ Instr.wf (.apertureAccess 0 0x40000000 none) = false ∧
    Instr.wf (.portLinkUp 5) = false ∧ Instr.wf (.modintAssert 4) = false ∧ Instr.wf (.forceRecal .hif0 9 0 0) = false ∧
    Instr.wf (.forceRecal .hif0 0 16 0) = false ∧ Instr.wf (.retransmit 64) = false ∧ Instr.wf (.groupKindWrite .hif0 8 0) = false ∧
    Instr.wf (.engineNoProgress 4) = false ∧ Instr.wf (.laneBoundExceeded 0 16) = false ∧ Instr.wf (.watchdogExpire 4) = false ∧
    Instr.wf (.judgeWindow 0x10000) = false ∧ Instr.wf (.mbTransfer 2 0 0 false) = false ∧
    Instr.wf (.dynamicAddressAssign 2 0) = false ∧ Instr.wf (.drpPresenceChange 4 true) = false := by decide

/-- No row of the table gives bits, so no word spells a command. -/
theorem test_no_word_spells_a_command : decodeTableWord 32 0x12345678 = none := by decide

/-! ### Steps, time and registers -/

/-- Devices whose servo belongs to the primary manager. -/
def dHost : Dev := Dev.words d0 [(reg .tim 0 0x100, 1)]

theorem test_witness_DeadDeviceIgnores :
    (on { d0 with dead := true }).live = false ∧ (on { d0 with resetHeld := true }).live = false ∧
    Instr.always (.timLoad .hif0 0) = false := by decide +kernel

theorem test_witness_IdleStepTicks :
    State.reset.pending = [] ∧ State.reset.live = true ∧ (on { d0 with dead := true }).live = false := by decide +kernel

/-- Both rates at an end of their range: what StepKeepsRates, CycleAdvancesAtLeastQuarter and PassesAreIterated assume. -/
theorem test_witness_rates : (TimeSt.RatesOk { incr := 0x80000000, slewIncr := 0x180000000 }) ∧ State.reset.Inv ∧ 0 < State.reset.time.incr := by
  decide +kernel

/-- A step on the empty queue counts 1 ns; POR at the front zeroes the counter: steps that answer a next state, which
StepKeepsRates, TimeNeverDecreases and CommandsKeepTheQueue assume. -/
theorem test_witness_next_states :
    nextIs (step State.reset) (fun t => t.time.count = 4294967296 && t.pending.isEmpty) ∧
    nextIs (step { State.reset with time := { count := 5 }, pending := [.por] }) (fun t => t.time.count = 0) := by decide +kernel

/-- The rates at an end of their range, the slew length and the kick. -/
theorem test_witness_RateWritesComplete :
    permitted (on dHost) .hif0 (reg .tim 0 0x120) 8 0x180000000
      (fun t => dHost.servoOwner t.acc.pt && incrOk (t.merge (on dHost).time.incr)) ∧
    permitted (on dHost) .hif0 (reg .tim 0 0x138) 8 0x80000000
      (fun t => dHost.servoOwner t.acc.pt && incrOk (t.merge (on dHost).time.slewIncr)) ∧
    permitted (on d0) (.core 3) (reg .tim 0 0x140) 4 0xFFFFFFFF (fun t => d0.servoOwner t.acc.pt) ∧
    permitted (on d0) (.core 3) (reg .tim 0 0x154) 4 1 (fun t => d0.servoOwner t.acc.pt) := by decide +kernel

/-- Steps of -1 and -2^40, of 1 with 1 ns left to absorb, of 2^40 with 1 ns left, and a load of the value of the next cycle. -/
theorem test_witness_StepsAndLoadsComplete :
    permitted (on dHost) .hif0 (reg .tim 0 0x128) 8 0xFFFFFF0000000000
      (fun t => dHost.servoOwner t.acc.pt && decide (stepValue t.acc.data = -(2 ^ 40 : Int))) ∧
    permitted { on dHost with time := { remain := nsUnit } } .hif0 (reg .tim 0 0x128) 8 1
      (fun t => dHost.servoOwner t.acc.pt && decide ((stepValue t.acc.data).natAbs * nsUnit ≤ nsUnit)) ∧
    permitted { on dHost with time := { remain := nsUnit } } .hif0 (reg .tim 0 0x128) 8 0x10000000000
      (fun t => dHost.servoOwner t.acc.pt && decide (stepValue t.acc.data = (2 ^ 40 : Int)) &&
        decide (nsUnit < (stepValue t.acc.data).natAbs * nsUnit)) ∧
    permitted { on dHost with time := { load0 := 1 } } .hif0 (reg .tim 0 0x150) 4 0
      (fun t => dHost.servoOwner t.acc.pt && decide ((on dHost).nextCount ≤ loadCount 1 t.acc.data)) := by decide +kernel

/-- Writes of a party that does not own the servo, rates just outside their range, steps just beyond 2^40 ns, a load that is
earlier. -/
theorem test_witness_ServoWritesRefused :
    permitted (on d0) .hif0 (reg .tim 0 0x120) 8 0x80000000 (fun t => !d0.servoOwner t.acc.pt) ∧
    permitted (on dHost) .hif0 (reg .tim 0 0x120) 8 0x7FFFFFFF
      (fun t => dHost.servoOwner t.acc.pt && !decide (incrOk (t.merge (on dHost).time.incr))) ∧
    permitted (on d0) .hif0 (reg .tim 0 0x128) 8 1 (fun t => !d0.servoOwner t.acc.pt) ∧
    permitted (on dHost) .hif0 (reg .tim 0 0x128) 8 0x10000000001
      (fun t => dHost.servoOwner t.acc.pt && decide ((2 ^ 40 : Int) < stepValue t.acc.data)) ∧
    permitted (on dHost) .hif0 (reg .tim 0 0x128) 8 0xFFFFFEFFFFFFFFFF
      (fun t => dHost.servoOwner t.acc.pt && decide (stepValue t.acc.data < -(2 ^ 40 : Int))) ∧
    permitted (on d0) .hif0 (reg .tim 0 0x150) 4 0 (fun t => !d0.servoOwner t.acc.pt) ∧
    permitted { on dHost with time := { count := 1 } } .hif0 (reg .tim 0 0x150) 4 0
      (fun t => dHost.servoOwner t.acc.pt && decide (loadCount 0 t.acc.data < (on dHost).nextCount)) := by decide +kernel

theorem test_witness_TimeEventsComplete :
    (let s : State := { on d0 with time := { slewLeft := 1, remain := 1 } }
     s.live ∧ s.Inv ∧ s.time.slewLeft ≠ 0 ∧ s.time.remain ≠ 0 ∧ s.time.holdover = false ∧ s.time.servo ≠ .host) ∧
    (let s : State := { on d0 with time := { holdover := true } }
     s.live ∧ s.time.holdover = true) ∧
    permitted (on d0) .hif0 (reg .tim 0 0x100) 4 1 (fun t => !d0.hostOwner && (d0.store t).hostOwner) ∧
    permitted (on dHost) .hif0 (reg .tim 0 0x100) 4 (putBits 1 1 1 1) (fun t => dHost.hostOwner && bitOf t.data 1) := by
  decide +kernel

/-- A pulse output of 4 ns every 16 ns, and a capture input that takes both edges. -/
def dPulse : Dev := Dev.words d0 [(tpoReg 7, 2), (tpoReg 7 + 0x14, 16), (tpoReg 7 + 4, 4), (tciReg 3, 3)]

theorem test_witness_CaptureAndPulseComplete :
    readable (on d0) .hif0 (reg .tim 0 0x110) 8 (fun t => t.half = 0 && t.acc.pt = .hif0) ∧
    permitted (on dPulse) .hif0 (tpoReg 7) 4 3 (fun t => !dPulse.bit (tpoReg (tpoNum t.x)) 0 &&
      (dPulse.store t).bit (tpoReg (tpoNum t.x)) 0 && (dPulse.store t).tpoOk (tpoNum t.x) &&
      decide ((on dPulse).time.count ≤ (dPulse.store t).tpoStart (tpoNum t.x))) ∧
    (({ tpo := NMap.put {} 7 { next := some 5, pulse := some 3 } } : TimeSt).tpoAt 7).next = some 5 ∧
    (({ tpo := NMap.put {} 7 { next := some 5, pulse := some 3 } } : TimeSt).tpoAt 7).pulse = some 3 ∧
    dPulse.bit (tciReg 3) 0 = true ∧ dPulse.bit (tciReg 3) 1 = true ∧ ((on dPulse).time.fifo 3).length < 16 ∧
    (let e : TciEntry := { sec := 0, ns := 0, frac16 := 0, rising := true, suspect := false }
     let s : State := { on d0 with time := { tciFifo := NMap.put {} 3 [e] } }
     readable s .hif0 (tciReg 3 + 8) 8 (fun t => s.time.fifo ((t.x - 0x300) / 0x20) = [e])) := by decide +kernel

/-- A master heard twice on port 3, and a Sync of it that came `offset` after its origin. -/
def dMaster (offset : Int) : Dev :=
  { Dev.words d0 [(ftCtrl, 8), (reg .tim 0 0x164, 100)] with
    ft := { masters := [{ port := 3, sender := toBE 10 7, gm := toBE 8 9, rank := [], steps := 0, heard := 2, last := 0, keep := 0 }],
            ready := [{ port := 3, sender := toBE 10 7, seq := 5, came := offset, origin := 0 }] } }

/-- UNSET, the sixteenth Sync in a row with the offset at the threshold, the fourth beyond ten times it. -/
theorem test_witness_FantailCompletes :
    (let d := dMaster 6553600
     (on d).live ∧ d.fantailRuns ∧
     someIs (d.ft.readySync 3 7 5) (fun q => someIs (d.ftFrom q.1) (fun m => beNat m.gm = 9) && d.ft.offset q.1 = 6553600) ∧
     d.fld (reg .tim 0 0x164) 0 16 * 65536 = 6553600 ∧ (on d).time.servo = .unset) ∧
    someIs ((dMaster 65536001).ft.readySync 3 7 5) (fun q => (dMaster 65536001).ft.offset q.1 = 65536001) ∧
    (∀ m ∈ [0, 0x40],
      let f : FtSt := { (dMaster 0).ft with peers := [{ port := 3, who := [], seq := 1, corr := 0, came := {} },
        { port := 3, who := [], seq := 2, corr := 0, came := {}, sent := true, left := some {} }] }
      let d : Dev := { Dev.words d0 [(ftCtrl, 8 + m)] with ft := f }
      (on d).live ∧ d.fantailRuns ∧ d.ftPortOn 3 ∧ d.ftPeerDelay = decide (m ≠ 0) ∧ someIs d.ft.best (fun m => m.port = 3) ∧
      (d.ft.peerOf 3 fun x => !x.sent).isSome ∧ someIs (d.ft.peerOf 3 fun x => x.left.isSome) (fun q => q.1.left.isSome)) := by
  decide +kernel

/-- A page enabled to quiesce, with its QUIESCED bit set. -/
def dQuiet : Dev := Dev.words d0 [(ctrlReg .clk 0, 3), (statusReg .clk 0, 4), (ctrlReg .dst 0, 3), (statusReg .dst 0, 4)]

theorem test_witness_RegisterWritesComplete :
    permitted (on d0) .hif0 (reg .dst 0 0x8100) 4 1 (fun t => decide (t.space = .block) && t.loc.blk = .dst) ∧
    permitted (on d0) .hif0 (reg .mac 0 0 + 0x10) 4 (putBits 1 2 1 0) (fun t => decide (t.space = .header) && t.x = 0x10 &&
      !bitOf t.acc.data 2 && bitOf t.acc.data 0 && !bitOf t.acc.data 1) ∧
    permitted (on d0) .hif0 (reg .mac 0 0 + 0x10) 4 (putBits 3 2 1 0) (fun t => decide (t.space = .header) && t.x = 0x10 &&
      !bitOf t.acc.data 2 && bitOf t.acc.data 0 && bitOf t.acc.data 1) ∧
    permitted (on dQuiet) .hif0 (reg .clk 0 0 + 0x10) 4 (putBits 3 2 1 1) (fun t => decide (t.space = .header) && t.x = 0x10 &&
      bitOf t.acc.data 2 && t.loc.blk ≠ .tim && dQuiet.bit (statusReg t.loc.blk t.loc.inst) 2 && bitOf t.acc.data 0 &&
      bitOf t.acc.data 1) ∧
    permitted (on d0) .hif0 (reg .tbl 0 0x10000 + 0x28) 4 1 (fun t => decide (t.space = .header) && t.x = 0x28) ∧
    permitted (on d0) .hif0 (reg .tbl 0 0x10000 + 0x20) 4 1 (fun t => decide (t.space = .header) && t.x = 0x20) ∧
    permitted (on d0) .hif0 (reg .tbl 0 0x10000 + 0x24) 4 1 (fun t => decide (t.space = .header) && t.x = 0x24) ∧
    permitted (on d0) .hif0 (reg .tbl 0 0x10000 + 0x2C) 4 1 (fun t => decide (t.space = .header) && t.x = 0x2C) ∧
    permitted (on d0) .hif0 (reg .tbl 0 0x10000 + 0x40) 4 0x80000000 (fun t => decide (t.space = .header) && t.x = 0x40 &&
      bitOf t.acc.data 31) ∧
    (on d0).live ∧ d0.fnExists ⟨1, 0⟩ ∧ 2047 < d0.msixSize ⟨1, 0⟩ := by decide +kernel

/-- With RESET = 0, with RESET = 1 in a quiet page, and with RESET = 1 in one that is not. -/
theorem test_witness_EnableStaysSet :
    permitted (on d0) .hif0 (reg .sys 0 0x10) 4 0 (fun t => decide (t.space = .header) && t.x = 0x10 && t.loc.blk = .sys &&
      !bitOf t.acc.data 0 && !bitOf t.acc.data 2) ∧
    permitted (on d0) .hif0 (reg .sys 0 0x10) 4 (0 ||| 1) (fun _ => true) ∧
    permitted (on dQuiet) .hif0 (reg .clk 0 0x10) 4 4 (fun t => t.loc.blk = .clk && !bitOf t.acc.data 0 && bitOf t.acc.data 2 &&
      dQuiet.bit (statusReg t.loc.blk t.loc.inst) 2) ∧
    permitted (on dQuiet) .hif0 (reg .clk 0 0x10) 4 (4 ||| 1) (fun _ => true) ∧
    permitted (on d0) .hif0 (reg .pwr 0 0x10) 4 4 (fun t => t.loc.blk = .pwr && !bitOf t.acc.data 0 && bitOf t.acc.data 2 &&
      !d0.bit (statusReg t.loc.blk t.loc.inst) 2) ∧
    permitted (on d0) .hif0 (reg .pwr 0 0x10) 4 (4 ||| 1) (fun _ => true) := by decide +kernel

theorem test_witness_ShadowsAreWritten :
    permitted (on d0) .hif0 (reg .dst 0 0x8100) 4 0 (fun t => decide (t.space = .block) && t.loc.blk = .dst && t.row.tl &&
      !t.row.w64 && !(d0.settled t).2) ∧
    someIs (d0.place (reg .dst 0 0x100)) (fun l => l.blk = .dst && l.off = 0x100 && mayWrite d0 .hif0 l .block &&
      !d0.fencedAt l.blk l.inst l.page &&
      someIs (rowAt l.blk.rows (l.page * 0x10000 + l.off)) (fun q => q.1.tl && !q.1.need8)) := by decide +kernel

/-- Both ends of the range of R79 and the values just outside it. -/
theorem test_witness_RatesAcceptTheirRange :
    (on dHost).Inv ∧ (on d0).live ∧
    (∀ v ∈ [0x80000000, 0x180000000, 0x7FFFFFFF, 0x180000001], permitted (on dHost) .hif0 (reg .tim 0 0x120) 8 v (fun _ => dHost.servoOwner .hif0)) ∧
    (∀ v ∈ [0x80000000, 0x180000000, 0x7FFFFFFF, 0x180000001], permitted (on dHost) .hif0 (reg .tim 0 0x138) 8 v (fun _ => dHost.servoOwner .hif0)) := by
  decide +kernel

/-- TIM_INCR takes 2^31 and no value below it (R79). -/
theorem test_incr_at_its_least :
    nextIs (exec (.timIncrWrite .hif0 0 8 0x80000000) (on dHost)) (fun t => t.time.incr = 0x80000000) ∧
    nextIs (exec (.timIncrWrite .hif0 0 8 0x7FFFFFFF) (on dHost)) (fun t => t.time.incr = 0x100000000 &&
      t.dev.fld (reg .tim 0 0x40) 0 16 = 1) := by
  decide +kernel

/-! ### Turns, governors, rings -/

/-- A turn ends 2,048 ns after time zero; one ns before it does not (R117). -/
theorem test_witness_BoundariesAndStageComplete :
    (on d0).live ∧
    (on d0).dev.turn < ((on d0).setTime ((on d0).time.advance 2048)).dev.turnAt ((on d0).time.advance 2048) ∧
    ((on d0).setTime ((on d0).time.advance 2047)).dev.turnAt ((on d0).time.advance 2047) ≤ (on d0).dev.turn ∧
    ({ d0 with stageFill := true } : Dev).stageFill ∧
    permitted { on d0 with time := { count := 4096 * nsUnit } } .hif0 (reg .trn 0 0x100) 4 0 (fun t =>
      (d0.store t).period ≠ d0.period && decide (d0.turn < (d0.store t).turnAt { count := 4096 * nsUnit })) ∧
    permitted (on d0) .hif0 (reg .trn 0 0x100) 4 4 (fun t =>
      (d0.store t).period ≠ d0.period && decide ((d0.store t).turnAt (on d0).time ≤ d0.turn)) := by decide +kernel

/-- The largest period code, a reserved one, and the ns at which a turn ends. -/
theorem test_witness_PeriodIsLockedWhileValid :
    permitted { on d0 with time := { valid := true } } .hif0 (reg .trn 0 0x100) 4 1 (fun _ => true) ∧
    permitted (on d0) .hif0 (reg .trn 0 0x100) 4 4 (fun _ => (on d0).time.valid = false) ∧
    permitted (on d0) .hif0 (reg .trn 0 0x100) 4 5 (fun _ => (on d0).time.valid = false) ∧
    ((on d0).time.advance 2047).ns / d0.period ≤ d0.turn ∧ d0.turn < ((on d0).time.advance 2048).ns / d0.period := by
  decide +kernel

/-- A page of group 0, and one of group 3. -/
theorem test_witness_CommitCopiesShadows :
    tlActive (reg .dst 0 0x100) = some (reg .dst 0 0x100, reg .dst 0 0) ∧ d0.fld (reg .dst 0 0x60) 0 4 = 0 ∧
    (Dev.words d0 [(reg .dst 0 0x60, 3)]).fld (reg .dst 0 0x60) 0 4 ≠ 0 := by decide +kernel

/-- The last governor, with PIR equal to CIR and with PIR one less. -/
theorem test_witness_GovernorsComplete :
    permitted (on d0) .hif0 (reg .gov 0 0x114) 4 (putBits 0 1 1 1) (fun t => t.acc.data % 4 = 2) ∧
    permitted (on d0) .hif0 (reg .gov 0 0x114) 4 (putBits 0 0 1 1) (fun t => t.acc.data % 4 = 1) ∧
    (∀ pir ∈ [9, 8],
      let d := Dev.words d0 [(reg .gov 0 0x140, 9), (reg .gov 0 0x144, pir)]
      (govOf (slice d.govAccData 0 16 ++ slice (d.hbmRead (d.govAddr (d.fld (reg .gov 0 0x110) 0 20)) 32) 16 16)).reserved =
        decide (pir = 8)) := by
  decide +kernel

/-- A value of RNG_CFG: kind, capacity 2^log, enabled, with its base set. -/
def cfg (kind log : Nat) : Nat := kind + 16 * log + 512 + 1024

/-- Ring 5 of a kind in a state, whose completions go to ring 4; RNG runs. -/
def dRing (kind : Nat) (x : RingSt) : Dev :=
  { Dev.words (Dev.run d0 [(.rng, 0)])
      [(rngKey 5 8, cfg kind 6), (rngKey 5 0x34, 4), (rngKey 5 0x30, 16), (rngKey 4 8, cfg 6 6)] with
    rings := ⟨[(4, { state := .active }), (5, x)]⟩ }

/-- An access to RNG_CFG of ring 5 at its place in the page. -/
def cfgReg5 : Nat := ringPage 5 + 5 * 0x40 + 8

/-- Rings of the least and the most capacity; ring 0 through the window. -/
theorem test_witness_RingControlCompletes :
    (∀ log ∈ [6, 20],
      let d := dRing 1 {}
      (d.ring 5).state = .off ∧ permitted (on d) .hif0 cfgReg5 4 (1 + 16 * log + 512) (fun t =>
        bitOf t.acc.data 9 && !bitOf t.acc.data 11 && bitsOf t.acc.data 0 4 = 1 && bitsOf t.acc.data 4 5 = log &&
        let e := d.wrN t.key (bitsOf t.acc.data 0 4 + 16 * bitsOf t.acc.data 4 5 + 1024 * bitsOf t.acc.data 10 1)
        !e.fnQuiesced (e.ringFunc 5) && e.ringEnableOk 5)) ∧
    (∀ st ∈ [RState.active, .haltActive],
      let d := dRing 1 { state := st }
      permitted (on d) .hif0 cfgReg5 4 (putBits (cfg 1 6) 9 1 0) (fun t => !bitOf t.acc.data 9 && !bitOf t.acc.data 11 &&
        bitsOf t.acc.data 0 9 = bitsOf (d.rdN t.key) 0 9 && bitsOf t.acc.data 10 1 = bitsOf (d.rdN t.key) 10 1 &&
        !(d.ringStop 5).2)) ∧
    (let d := Dev.words d0 [(selKey 1, 0)]
     permitted (on d) .hif0 (ringPage 0 + 0xC8) 4 (putBits (7 + 16 * 20) 11 1 1) (fun t => (d.ring 0).state = .off &&
       !bitOf t.acc.data 9 && bitOf t.acc.data 11 && bitsOf t.acc.data 0 4 = 7 && bitsOf t.acc.data 4 5 = 20)) ∧
    permitted (on (dRing 1 { state := .active })) .hif0 cfgReg5 4 (putBits (cfg 1 6) 11 1 1) (fun t =>
      ((dRing 1 { state := .active }).ring 5).state ≠ .off && bitOf t.acc.data 9 && bitOf t.acc.data 11 &&
        !(dRing 1 {}).fnQuiesced ((dRing 1 {}).ringFunc 5)) ∧
    (let d := { dRing 1 { state := .active, owner := some (⟨0, 4⟩, 0) } with vfs := NMap.put {} 4 { state := .quiesced } }
     permitted (on d) .hif0 cfgReg5 4 (putBits (cfg 1 6) 11 1 1) (fun t => (d.ring 5).state ≠ .off && bitOf t.acc.data 9 &&
       bitOf t.acc.data 11 && d.fnQuiesced (d.ringFunc 5))) ∧
    ((dRing 2 { state := .draining }).ring 5).state = .draining ∧ (dRing 2 { state := .draining }).ringIdle 5 := by
  decide +kernel

/-- Doorbells at the bounds: a full ring, one past it, and the consumer count at and past the producer count. -/
theorem test_witness_DoorbellsComplete :
    (∀ kind ∈ [1, 2],
      let d := dRing kind { state := .active }
      (on d).live ∧ d.fnExists ⟨0, 0⟩ ∧ d.ringOfLocal ⟨0, 0⟩ (40 / 8) = some 5 ∧ d.takesDoorbell 5) ∧
    (dRing 1 { state := .draining }).takesDoorbell 5 = false ∧
    (let d := dRing 1 { state := .active }
     hostProduced (d.ringKind 5) = true ∧ sub32 (d.ringProd 5) (d.ringCons 5) ≤ sub32 64 (d.ringCons 5) ∧
     sub32 64 (d.ringCons 5) ≤ d.ringCap 5 ∧ d.ringCap 5 < sub32 65 (d.ringCons 5)) ∧
    (let d := Dev.words (dRing 2 { state := .active }) [(rngKey 5 0x18, 3)]
     hostProduced (d.ringKind 5) = false ∧ sub32 3 (d.ringCons 5) ≤ sub32 (d.ringProd 5) (d.ringCons 5) ∧
     sub32 (d.ringProd 5) (d.ringCons 5) < sub32 4 (d.ringCons 5)) ∧
    (dRing 1 {}).ringOfLocal ⟨0, 0⟩ (44 / 8) = some 5 := by decide +kernel

/-- An entry of 16 B slots: the mark, opcode and tag, and the fields at 8. -/
def entry (op len : Nat) (tail : List Byte) : List Byte :=
  [byteN (0xA0 + len), byteN op, 0, 0, 7, 0, 0, 0] ++ tail ++ zeros (16 * (len + 1) - 8 - tail.length)

/-- MPD runs with room for the cells of a source. -/
def withCells (d : Dev) (s : Nat) : Dev :=
  Dev.words (Dev.run d [(.mpd, 0)]) [(reg .mpd 0 (0x200 + 8 * s), 64), (reg .mpd 0 (0x204 + 8 * s), 64)]

/-- Work of an entry on ring 5. -/
def work5 (op : Nat) (e : List Byte) : Work := { id := 9, ring := 5, opcode := op, tag := 7, entry := e }

/-- Every branch of a fetch: fewer slots than the entry has, a SKIP, an entry with and without cells, a run that ends before
and at the slots read, an entry past the end of the ring. -/
theorem test_witness_EntriesAreFetched :
    (let d := Dev.words (dRing 1 { state := .active }) [(rngKey 5 0x18, 2)]
     (on d).live ∧ d.mayFetch 5 ∧ d.ringUsed 5 = 2 ∧ slotMarked (entry 2 1 []) 0 ∧
     d.ringCons 5 % d.ringCap 5 + (byteAt (entry 2 1 []) 0 % 16 + 1) ≤ d.ringCap 5 ∧
     min 2 (((entry 2 1 []).take 16).length / 16) = 1 ∧
     byteAt (entry 0 1 []) 1 = 0 ∧ byteAt (entry 2 1 []) 1 ≠ 0 ∧
     (let e := entry 2 1 (toLE 8 16)
      let c := sendCells (d.ringKind 5) (byteAt e 1) (slice e 0 32)
      c ≠ 0 ∧ ((d.slotsRead 5).sendAlloc 5 c) = none ∧ ((withCells d 5).slotsRead 5).sendAlloc 5 c ≠ none ∧ (withCells d 5).mayFetch 5) ∧
     slotMarked (zeros 32) 0 = false ∧ runLen (zeros 32) 1 1 + 1 = 2 ∧ runLen (zeros 16 ++ entry 2 0 []) 1 1 + 1 = 1) ∧
    (let d := Dev.words (dRing 1 { state := .active }) [(rngKey 5 0x18, 65), (rngKey 5 0x1C, 63)]
     d.ringUsed 5 = 2 ∧ d.ringCap 5 < d.ringCons 5 % d.ringCap 5 + (byteAt (entry 2 1 []) 0 % 16 + 1)) := by decide +kernel

/-- Frames of the least and the greatest length, and one byte more, which is malformed. -/
theorem test_witness_FetchAndSendComplete :
    (∀ q ∈ [(14, true), (16128, true), (16129, false)],
      let w := work5 1 (entry 1 1 (toLE 8 q.1 ++ toLE 8 4096 ++ toLE 8 q.1))
      let d := dRing 1 { state := .active, work := [w] }
      (on d).live ∧ d.txNext 5 1 = some w ∧ gatherOk w.entry = q.2) ∧
    (∀ q ∈ [(14, true), (240, true), (241, false)],
      let w := work5 2 (entry 2 (ceilDiv q.1 16) (toLE 8 q.1))
      let d := dRing 1 { state := .active, work := [w] }
      (on d).live ∧ d.txNext 5 2 = some w ∧ inlineOk w.entry = q.2) ∧
    (let w := { work5 1 [] with started := true }
     let d := dRing 1 { state := .active, work := [w] }
     (on d).live ∧ ((d.ring 5).work.find? fun w => w.done.isNone && w.started) = some w ∧ d.ringKind 5 = 1 ∧ w.waiting = []) ∧
    (∀ asks ∈ [true, false],
      let h : HRead := { id := 3, func := ⟨0, 0⟩, addr := 0, len := 4, use := .none, asking := asks }
      someIs (({ d0 with reads := [h] } : Dev).takeRead 3) fun q => q.1 = h && q.1.asking = asks) := by decide +kernel

/-- A frame that fits; one that waited 4 turns (RNG_RX_HOLD 4) in a ring without room; a ring that is not OFF. -/
theorem test_witness_DeliveryCompletes :
    (let w : RxWait := { pkt := { data := zeros 64 }, since := 0 }
     let d := dRing 2 { state := .active, rx := [w] }
     (on d).live ∧ (d.ring 5).rx = [w] ∧ (d.ring 5).state = .active ∧ (d.rxFits 5 w).isSome) ∧
    (let w : RxWait := { pkt := { data := zeros 64 }, since := 0 }
     let d := Dev.words (dRing 2 { state := .active, rx := [w] }) [(rngKey 5 0x18, 64), (rngKey 5 0x30, 16 + 4 * 256)]
     let d := { d with bounds := 4 }
     (on d).live ∧ (d.ring 5).rx = [w] ∧ w.since + d.fld (rngKey 5 0x30) 8 8 ≤ d.bounds ∧ d.rxFits 5 w = none) ∧
    ((dRing 2 { state := .active }).ring 5).state ≠ .off := by decide +kernel

/-- Pipelines in service, with packets of each stage of a pass. -/
theorem test_witness_PassesComplete :
    (let p : Pkt := { id := 1, data := zeros 60, src := 0 }
     let d : Dev := { Dev.run d0 [(.dst, 0)] with dst := [p] }
     (on d).live ∧ d.dst = [p] ∧ d.accepts .dst 0) ∧
    (let p : Pkt := { id := 1, data := zeros 60, src := 0 }
     let d := { d0.setPipe 7 { firsts := [p] } with bounds := 64 }
     takeFirst (fun p => decide (p.id = 1) && d.waitedOut p) (d.pipe 7).firsts = some (p, [])) ∧
    (let p : Pkt := { id := 1, data := zeros 60, src := 0 }
     let d := (withCells d0 0).setPipe 7 { firsts := [p], inService := true }
     (on d).live ∧ d.pipeAlive 7 ∧ (d.pipe 7).deferred = false ∧ (d.pipe 7).admitted < d.admitMax ∧ (d.pipe 7).leats = [] ∧
     (d.pipe 7).inService ∧ someIs (d.chooseFirst (d.pipe 7)) (fun q => q.1 = p) ∧ p.cls = none ∧
     (d.pipe 7).lookups + lookupCost d.active ≤ d.budget ∧ (d.cellAlloc p.src 1).isSome) ∧
    (let ps : Pass := { pkt := { id := 1, data := zeros 60, inspect := some {} }, pstart := 14, pad := 60, list := [{ index := 3 }] }
     let d := (Dev.run d0 [(.pat, 7)]).setPipe 7 { marks := [ps], ready := [ps] }
     let q := matchStages ((d.actFinish 7).setPipe 7 { (d.actFinish 7).pipe 7 with ready := [] }) 7 7 ps 6
     (on d).live ∧ (d.pipe 7).marks = [ps] ∧ ((d.actFinish 7).pipe 7).ready = [ps] ∧ ps.early = none ∧ q.2.2 = none ∧
     q.2.1.list ≠ []) ∧
    (let ps : Pass := { pkt := { id := 1, data := zeros 60 }, pstart := 14, pad := 60, scan := .packet [] 0 0 0 }
     scanBytes ps = some 46 ∧ mayCut ps 45 ∧ mayCut ps 46 = false) ∧
    mayCut { pstart := 54, pad := 54, scan := .stream [], hold := some { addr := 0, tag := 0, state := none } } 0 := by decide +kernel
/-! ### The action unit -/

/-- A packet under the action unit of pipeline 7 with word `w` next: one parsed header of 14 bytes, mirrors asked for, counters
of 2^4 records. -/
def dAct (mirrors : Nat) (w : Nat) : Dev :=
  d0.setPipe 7 { act := {
    ps := { pkt := { id := 1, data := zeros 60 }, pstart := 14, cntBase := 4096, cntLog := 4,
            rules := ({} : RuleSet).setEntry 10 3 (zeros 64 ++ [64] ++ zeros 15) },
    words := [w],
    work := [{ bytes := zeros 14, parsed := some 0, tmpl := [], at_ := 0 }],
    mirrors := List.replicate mirrors { rewritten := false, toPort := false, ring := 0, port := 0, queue := 0, trunc := 0 } } }

/-- Word `w` of opcode `op` is due in the action unit of pipeline 7, whose state is live. -/
abbrev dueAct (op w : Nat) : Prop := (on (dAct 1 w)).live = true ∧ (dAct 1 w).actDue 7 op (BitVec.ofNat 64 w)

/-- A push of template `t` at the end succeeds. -/
def pushed (c : ActCtx) (t : Nat) : Bool :=
  match c.push t 0 true none 0 with
  | .ok _ => true
  | .error _ => false

/-- A pop of the first header succeeds. -/
def popped (c : ActCtx) : Bool :=
  match c.pop 0 1 with
  | .ok _ => true
  | .error _ => false

/-- Governor 0 meters, coloured by its input, with tokens in both buckets. -/
def dGovern : Dev :=
  (Dev.words (Dev.run d0 [(.gov, 0)]) [(reg .gov 0 0x108, 1)]).hbmWrite 0
    (zeros 8 ++ toLE 3 4096 ++ [7] ++ toLE 4 4096 ++ toLE 4 1000000 ++ toLE 4 1000000 ++ zeros 8)

/-- Operands at the ends of their ranges: destination, width, mirror length, counter index, and each colour. -/
theorem test_witness_EditsComplete :
    (let c := (dAct 1 0).actNow 7
     dueAct 0x00 0 ∧ (dueAct 0x01 0x6001 ∧ badSetField 0x6001 = false) ∧ (dueAct 0x02 0x26002 ∧ badAddField 0x26002 = false) ∧
     (dueAct 0x03 (0x6003 + 147 * 65536) ∧ badCopyField (0x6003 + 147 * 65536) = false) ∧
     (dueAct 0x04 0x100304 ∧ badPush 0x100304 = false ∧ pushed c 3) ∧ (dueAct 0x05 0x05 ∧ popped c) ∧
     (∀ n ∈ [64, 16383], dueAct 0x09 (0x09 + 4 * 2 ^ 32 + n * 2 ^ 48) ∧ badMirror (0x09 + 4 * 2 ^ 32 + n * 2 ^ 48) = false) ∧
     c.mirrors.length < 2 ∧ 2 ≤ ((dAct 2 9).actNow 7).mirrors.length ∧
     (∀ i ∈ [15, 16], dueAct 0x0A (0x0A + i * 65536) ∧ bitOf (0x0A + i * 65536) 8 = false ∧ c.ps.cntLog ≠ 0 ∧
       (iw (0x0A + i * 65536) 16 24 < 2 ^ c.ps.cntLog ↔ i = 15)) ∧
     (∀ col ∈ [0, 1, 2], dueAct 0x0B (0x0B + col * 2 ^ 52) ∧ badGovern (0x0B + col * 2 ^ 52) = false ∧
       (dGovern.govern (iw (0x0B + col * 2 ^ 52) 16 20) col c.lenNow).2 = col) ∧
     dueAct 0x0E 0x0E) := by decide +kernel

theorem test_witness_DispositionsComplete :
    (dueAct 0x06 0x406 ∧ badSetPort 0x406 = false) ∧ dueAct 0x07 0x07 ∧ (dueAct 0x08 (0x108 + 2048 * 2 ^ 32) ∧
      badToRing (0x108 + 2048 * 2 ^ 32) = false) ∧ dueAct 0x0C 0x0C ∧
    (dueAct 0x0D (0x0D + 16384 * 2 ^ 32) ∧ badInspect (0x0D + 16384 * 2 ^ 32) = false) ∧ dueAct 0x0F 0x0F ∧ dueAct 0x10 0x10 ∧
    dueAct 0x11 0x11 ∧ dueAct 0x12 0x12 := by decide +kernel

/-- Each operand just outside its range. -/
theorem test_witness_BadOperandsFault :
    (dueAct 0x01 0xFF01 ∧ badSetField 0xFF01) ∧ (dueAct 0x02 0x30002 ∧ badAddField 0x30002) ∧
    (dueAct 0x03 (3 + 148 * 65536) ∧ badCopyField (3 + 148 * 65536)) ∧
    (dueAct 0x04 (4 + 2 ^ 23 + 3 * 2 ^ 32 + 2 ^ 30) ∧ badPush (4 + 2 ^ 23 + 3 * 2 ^ 32 + 2 ^ 30)) ∧
    (dueAct 0x06 0x506 ∧ badSetPort 0x506) ∧ (dueAct 0x08 (0x108 + 2049 * 2 ^ 32) ∧ badToRing (0x108 + 2049 * 2 ^ 32)) ∧
    (dueAct 0x09 (9 + 5 * 2 ^ 32) ∧ badMirror (9 + 5 * 2 ^ 32)) ∧ (dueAct 0x0B (0x0B + 3 * 2 ^ 36) ∧ badGovern (0x0B + 3 * 2 ^ 36)) ∧
    (dueAct 0x0D (0x0D + 16385 * 2 ^ 32) ∧ badInspect (0x0D + 16385 * 2 ^ 32)) := by decide +kernel

/-- The word of a POP_HDR next in the unit pops the header and ends the program, which drops nothing and faults nothing. -/
theorem test_pop_hdr_runs :
    nextIs (exec (.popHdr 7 0x05) (on (dAct 0 0x05))) (fun t => t.dev.rdN (actCount 7 0x148) = 0 && ((t.dev.pipe 7).act.ps.pkt.id = 0)) := by
  decide +kernel

/-! ### Flow tables -/

/-- A table command of an opcode on table 15: FLAGS, ACTION, AT, UNTIL, REF and what follows. -/
def tblWork (op flags action at_ until_ : Nat) (rest : List Byte) : Work :=
  work5 op ([byteN (0xA0 + rest.length / 16 + 1), byteN op, 15, byteN flags, 7, 0, 0, 0] ++ toLE 4 action ++ zeros 4 ++ toLE 4 at_ ++
    toLE 4 until_ ++ zeros 8 ++ rest)

/-- The key of the tests, in its 16 B slot. -/
def key16 : List Byte := [1, 2, 3, 4] ++ zeros 12

/-- Table 15, of 2 buckets and keys of 4 B, in a state; the work on ring 5. -/
def dTab (st : TabState) (w : List Work) : Dev :=
  { (Dev.words (Dev.run (dRing 4 { state := .active, work := w }) [(.rng, 0), (.tbl, 0)])
      [(tabReg 15 8, 1 + 4 * 256), (tabReg 15 0xC, 0x30)]) with tables := ⟨[(15, { state := st })]⟩ }

/-- The same with the key of the tests in the table. -/
def dEntry (w : List Work) : Dev :=
  ((dTab .ready w).tblInsert 15
    { key := [1, 2, 3, 4], action := 5, valFrom := 0, valUntil := 0xFFFFFFFF, chain := 0, ref := 0, owner := ⟨0, 0⟩, flags := 1 } none).1

theorem test_witness_TablesAreManaged :
    permitted (on (dTab .off [])) .hif0 (tabReg 15 0x38) 4 (putBits 0 0 1 1) (fun t =>
      !(hostParty t.acc.pt && (dTab .off []).tabFw 15) && t.acc.data % 4 = 1 && ((dTab .off []).table 15).state = .off &&
      (dTab .off []).tabOk 15) ∧
    ((dTab .init []).table 15).state = .init ∧ ((dTab .init []).table 15).initDone = false ∧
    permitted (on (dTab .ready [])) .hif0 (tabReg 15 0x38) 4 (putBits 0 1 1 1) (fun t =>
      !(hostParty t.acc.pt && (dTab .ready []).tabFw 15) && t.acc.data % 4 = 2 && ((dTab .ready []).table 15).state = .ready) ∧
    ((dTab .draining []).table 15).state = .draining ∧
    ((dTab .draining []).rings.cells.any fun q => decide ((dTab .draining []).ringKind q.1 = 4) &&
      q.2.work.any fun w => w.done.isNone && decide (byteAt w.entry 2 % 16 = 15)) = false := by
  decide +kernel

/-- AT the last turn R141 allows, UNTIL the first, for ever and at once; in turn 2^32 - 2 the turns named by 0xFFFFFFFF and 0. -/
theorem test_witness_TableChangesComplete :
    (∀ a ∈ [0, 1073741824], ∀ u ∈ [0xFFFFFFFF, 1],
      let w := tblWork 1 0 5 a u key16
      let d := dTab .ready [w]
      (on d).live ∧ d.tblReady 5 1 w 15 ∧ tblAt w = a ∧ (a = 0 ∨ d.turnOk a) ∧ d.untilOk (tblUntil w) ∧
      d.flowFull (d.ringFunc 5) = false ∧ d.changeLocal w 15 (d.tblInsert 15 (d.tblNew (d.tabCfg 15) w) none).1) ∧
    (let d : Dev := { dTab .ready [] with turn := 0xFFFFFFFE }
     d.turnOk 0xFFFFFFFF ∧ d.turnOk 0 ∧ d.untilOk 0 ∧ d.untilOk 0xFFFFFFFF ∧ d.turnOk 0xFFFFFFFE = false) := by
  decide +kernel

theorem test_witness_TableChangesComplete_b :
    (let w := tblWork 2 0 6 1073741824 0xFFFFFFFF key16
     let d := dEntry [w]
     (on d).live ∧ d.tblReady 5 2 w 15 ∧ d.atOk (tblAt w) = true ∧ tblAt w ≠ 0 ∧ d.untilOk (tblUntil w) ∧
     d.changeLocal w 15 (d.tblReplaceAt 15 (d.ringFunc 5) (d.tblNew (d.tabCfg 15) w) (tblAt w)).1) ∧
    (let w := tblWork 2 0 6 0 0xFFFFFFFF key16
     let d := dEntry [w]
     let c := d.tabCfg 15
     let q := d.keyBad 15 c (tblKey c w)
     (on d).live ∧ d.tblReady 5 2 w 15 ∧ tblAt w = 0 ∧ d.untilOk (tblUntil w) ∧ q.2 = false ∧
     someIs (q.1.entryOf c (tblKey c w) d.turn) (fun l => q.1.mayTouch (d.ringFunc 5) c l &&
       (let e := q.1.entryAt c l
        let e := c.put (c.put (c.put e 0 3 (leAt w.entry 8 3)) 3 1 (putBits (c.flags e) 2 1 (b2n (bitOf (tblFlags w) 1)))) 12 4
          (tblUntil w)
        decide (d.changeLocal w 15 (q.1.putEntry 15 l (c.put (c.put e 20 4 (leAt w.entry 12 4)) 24 8 (tblRef w))))))) := by
  decide +kernel

theorem test_witness_TableChangesComplete_c :
    (let w := tblWork 3 0 0 0 0 key16
     let d := dEntry [w]
     (on d).live ∧ d.tblReady 5 3 w 15 ∧ tblAt w = 0 ∧
     d.changeLocal w 15 (d.tblDelete 15 (d.ringFunc 5) (tblKey (d.tabCfg 15) w) (tblAt w)).1) ∧
    (let w := tblWork 4 0 0 0 0 key16
     let d := dEntry [w]
     (on d).live ∧ d.tblReady 5 4 w 15 ∧ tblAt w = 0 ∧ d.changeLocal w 15 (d.tblRefresh 15 (d.ringFunc 5) (tblKey (d.tabCfg 15) w)).1) := by
  decide +kernel

/-- PF0 of link 0 may master the bus. -/
def withBme (d : Dev) : Dev := { d with bme := d.bme.put 0 true }

theorem test_witness_TableReadsComplete :
    (let w := tblWork 5 0 0 0 0 key16
     let d := dEntry [w]
     let c := d.tabCfg 15
     let q := d.keyBad 15 c (tblKey c w)
     (on d).live ∧ d.tblReady 5 5 w 15 ∧ q.2 = false ∧
     someIs (q.1.findEntry c (tblKey c w) (fun _ => true)) (fun l => q.1.mayTouch (q.1.ringFunc 5) c l)) ∧
    (let w := tblWork 6 0 1 0 0 []
     let d := dTab .ready [w]
     (on d).live ∧ d.tblReady 5 6 w 15 ∧ leAt w.entry 8 4 < 2 ^ (d.tabCfg 15).log2 ∧ w.started = false) ∧
    (let w := { tblWork 6 0 1 0 0 [] with started := true }
     let d := dTab .ready [w]
     d.tblReady 5 6 w 15 ∧ leAt w.entry 8 4 < 2 ^ (d.tabCfg 15).log2 ∧ w.waiting = [] ∧ d.groupActive (d.groupOf 4 15) = false) := by
  decide +kernel

theorem test_witness_TableReadsComplete_b :
    (let f : FilterSlot := { table := 15, key := [1, 2, 3, 4], turn := 0 }
     let w := work5 7 ([0xA1, 7, 15, 0, 7, 0, 0, 0] ++ toLE 4 4095 ++ toLE 4 (crc32c 0xFFFFFFFF f.key) ++ zeros 16)
     let d := { dTab .ready [w] with filter := ⟨[(4095, f)]⟩ }
     (on d).live ∧ d.tblReady 5 7 w 15 ∧ d.filter.find (leAt w.entry 8 2 % 4096) = some f ∧
     crc32c 0xFFFFFFFF f.key = leAt w.entry 12 4) ∧
    (let d := Dev.words { dTab .ready [] with bounds := 1 } [(tabReg 15 0x2C, 1)]
     (on d).live ∧ (d.table 15).state = .ready ∧ d.accepts .tbl 0 ∧ d.tabStalled 15 = false ∧
     d.sweepPace 15 = 1 ∧ (((d.setTable 15 { d.table 15 with sweepAt := 1 }).bucketBad 15 (d.tabCfg 15) 0).2 = false)) := by
  decide +kernel

theorem test_witness_TableReadsComplete_c :
    (let d := dEntry []
     let c := d.tabCfg 15
     someIs (d.findEntry c [1, 2, 3, 4] (fun _ => true)) (fun l =>
       let e := d.entryAt c l
       let p : SweepPend := { table := 15, bucket := c.bucketOf l, slot := l, key := [1, 2, 3, 4], lastHit := c.f32 e 4, turn := 0 }
       takeFirst (fun p => decide (p.table = 15) && decide (p.turn ≤ d.turn)) [p] = some (p, []) &&
       (d.bucketBad 15 c p.bucket).1 = d && !(d.bucketBad 15 c p.bucket).2 &&
       (d.table 15).state = .ready && !d.standsBy (d.groupOf 4 15) && !d.tabStalled 15 && c.valid e && c.key e = p.key && c.f32 e 4 = p.lastHit)) ∧
    (let p : ScrubPend := { table := 15, bucket := 1, hw := (dTab .ready []).hbmRead 128 128, turn := 0 }
     let d := withBme { dTab .ready [] with scrubs := [p], bounds := 0x1000000, faults := [(15, 1)] }
     let q := (d.shadowRead 15 1).bucketBad 15 (d.tabCfg 15) 1
     (on d).live ∧ d.scrubOn 15 ∧ (d.table 15).scrubbed < d.bounds ∧
     takeFirst (fun p : ScrubPend => decide (p.table = 15 ∧ p.bucket = 1)) d.scrubs = some (p, []) ∧
     p.turn + d.fld (reg .tbl 0 0x108) 0 24 ≤ d.bounds ∧ q.2 = false ∧
     ({ q.1.bucketHeal (d.tabCfg 15) 1 with scrubs := [] } : Dev).hbmRead ((d.tabCfg 15).base + 1 * 128) 128 = p.hw ∧
     d.tabStalled 15 = false ∧ (15, 1) ∈ d.faults ∧ d.bit (tabReg 15 0xC) 5 ∧ d.shadowGot 15 [1] ≠ [] ∧ d.shadowGot 15 [] = []) := by
  decide +kernel

/-- A frame as long as the retransmission region. -/
def fullFrame : List Byte := List.replicate 67108864 0

/-- Group 7, of a KIND and mask, is ACTIVE, and the retransmission region of the pair is full. -/
def dFull (d : Dev) (cfg : Nat) : Dev :=
  { d.wrN (reg .prl 0 0x15C) cfg with pair := { roles := NMap.put {} 7 .active, s0 := { unacked := [(0, fullFrame)] } } }

theorem pairHeld_one (d : Dev) {f : List Byte} (h : d.pair.s0.unacked = [(0, f)]) (h1 : d.pair.s1.unacked = []) :
    d.pairHeld = f.length := by simp [Dev.pairHeld, h, h1]

theorem dFull_full (d : Dev) (cfg : Nat) : (dFull d cfg).pairFull = true := by
  have e : (dFull d cfg).pairHeld = fullFrame.length := pairHeld_one _ (by simp only [dFull]) (by simp only [dFull])
  rw [Dev.pairFull, e, fullFrame, List.length_replicate]
  decide

/-- A sweep and a learning frame that wait for room in the retransmission region. -/
theorem test_witness_full_region :
    (let d := dFull (dTab .ready []) (4 + 0x80000000)
     (on d).live ∧ (d.table 15).state = .ready ∧ d.accepts .tbl 0) ∧
    (dFull (dTab .ready []) (4 + 0x80000000)).recMirrored { bytes := [1, 15], turn := 0, mirrored := true } ∧
    (dFull (dTab .ready []) (4 + 0x80000000)).tabStalled 15 = true := by
  refine ⟨by decide +kernel, by decide +kernel, ?_⟩
  unfold Dev.tabStalled
  rw [dFull_full, Bool.and_true]
  decide +kernel

/-- The scrubber asks for the shadow of a bucket: 128 bytes of it, as DMA of the function that SHADOW_FN names (R329). -/
theorem test_scrub_reads_the_shadow :
    (let d := Dev.words (withBme { dTab .ready [] with bounds := 9 }) [(tabReg 15 0x2C, 0x10001), (tabReg 15 0x24, 0x4000)]
     nextIs (exec (.scrubVisit 15 [zeros 128]) (on d)) (fun t =>
       t.dev.out.any fun o => match o with | .hostRead _ f _ n => decide (f = ⟨0, 0⟩ ∧ n = 128) | _ => false)) := by decide +kernel

/-! ### Images, patterns, learning -/

/-- The last entry of the parser states read and written, with a legal and an illegal state; an indirection entry of PF0. -/
theorem test_witness_ImageAccessCompletes :
    (let d := Dev.words (Dev.run d0 [(.prs, 7)]) [(reg .prs 7 0x100, 16), (reg .prs 7 0x104, 255)]
     permitted (on d) .hif0 (reg .prs 7 0x108) 4 (putBits 0 1 1 1) (fun t => t.acc.data % 4 = 2 &&
       imgIndexOk (0 + d.fld (t.loc.instBase + 0x100) 0 2) (d.fld (t.loc.instBase + 0x104) 0 16) &&
       d.fld (t.loc.instBase + 0x100) 4 2 = 1)) ∧
    (∀ bad ∈ [true, false],
      let d := Dev.words (Dev.run d0 [(.prs, 7)]) [(reg .prs 7 0x100, 0), (reg .prs 7 0x104, 255), (reg .prs 7 0x158, if bad then 33 * 512 else 32 * 512)]
      permitted (on d) .hif0 (reg .prs 7 0x108) 4 (putBits 0 0 1 1) (fun t => t.acc.data % 4 = 1 && d.staged = some {} &&
        imgIndexOk (0 + d.fld (t.loc.instBase + 0x100) 0 2) (d.fld (t.loc.instBase + 0x104) 0 16) &&
        d.fld (t.loc.instBase + 0x100) 4 2 = 0 &&
        d.badEntry 0 (slice ((rangeFrom 0 16).flatMap fun j => toLE 4 (d.rdN (t.loc.instBase + 0x140 + 4 * j))) 0 (imgBytes 0)) = bad)) ∧
    (∀ q ∈ [(clsImg, 3), (actImg, 2), (patImg, 2)],
      let d := Dev.words (Dev.run d0 [(q.1.blk, 0)]) [(reg q.1.blk 0 0x100, 0)]
      permitted (on d) .hif0 (reg q.1.blk 0 0x108) 4 (putBits 0 0 1 1) (fun t => t.acc.data % 4 = 1 && d.staged = some {} &&
        imgIndexOk (q.1.first + d.fld (t.loc.instBase + 0x100) 0 q.2) (d.fld (t.loc.instBase + 0x104) 0 16) &&
        d.fld (t.loc.instBase + 0x100) 4 2 = 0)) ∧
    permitted (on (Dev.run d0 [(.hsh, 7)])) .hif0 (reg .hsh 7 0x108) 4 (putBits 0 1 1 1) (fun t => t.acc.data % 4 = 2) ∧
    permitted (on (Dev.run d0 [(.hsh, 7)])) .hif0 (reg .hsh 7 0x108) 4 (putBits 0 0 1 1) (fun t => t.acc.data % 4 = 1) := by
  decide +kernel

/-- A mailbox command: FLAGS, argument, address, length. -/
def mbxWork (op flags arg addr len : Nat) : Work :=
  work5 op ([0xA1, byteN op, byteN flags, 0, 7, 0, 0, 0] ++ toLE 8 arg ++ toLE 8 addr ++ toLE 4 len ++ zeros 4)

/-- The work with its data come. -/
def come (w : Work) (data : List Byte) : Work := { w with started := true, data := [(0, data)] }

/-- Ring 5 is the mailbox ring of PF0 of link 0, with a command on it. -/
def dMbx (w : Work) : Dev := dRing 7 { state := .active, work := [w] }

/-- Sources of the least and the most length; one pattern, one line that is no pattern; the last handle released. -/
theorem test_witness_PatternImagesComplete :
    (∀ n ∈ [1, 4194304],
      let w := mbxWork 0x40 0 0 4096 n
      (on (dMbx w)).live ∧ (dMbx w).mbxReady 5 0x40 w ∧ mbxLen w = n ∧ w.started = false) ∧
    (let w := come (mbxWork 0x40 0 0 4096 9) [0x70, 0x61, 0x74, 0x20, 0x31, 0x20, 0x22, 0x61, 0x22]
     (dMbx w).mbxReady 5 0x40 w ∧ w.waiting = [] ∧
     (match compileSource (slice w.allData 0 (mbxLen w)) with | .ok ps => decide (ps.length = 1) | .error _ => false) = true ∧
     (dMbx w).images.cells.length < 256 ∧ (dMbx w).patternsHeld + 1 ≤ 65536) ∧
    (let w := come (mbxWork 0x40 0 0 4096 1) [0x78]
     (dMbx w).mbxReady 5 0x40 w ∧ w.waiting = [] ∧
     (match compileSource (slice w.allData 0 (mbxLen w)) with | .ok _ => false | .error q => decide (q = (0x01, 1))) = true) ∧
    (let w := mbxWork 0x41 0 1023 0 0
     let d := { dMbx w with images := ⟨[(1023, [])]⟩ }
     (on d).live ∧ d.mbxReady 5 0x41 w ∧ (d.images.find (mbxArg w % 1024)).isSome ∧ d.active.names (mbxArg w % 1024) = false ∧
     d.staged = some {} ∧ ({} : RuleSet).names (mbxArg w % 1024) = false ∧ d.retained = none) := by decide +kernel

/-- A learning frame of sender 5 with no records. -/
def lrnFrame : List Byte := zeros 14 ++ [1, 0, 0, 5, 0, 0, 0, 1, 0, 0] ++ zeros 36

/-- One with an ADD record of table 15. -/
def lrnRecord : List Byte := zeros 14 ++ [1, 0, 0, 5, 0, 0, 0, 1, 1, 0] ++ zeros 4 ++ [1, 15] ++ zeros 46

/-- LRN and TBL run, LRN sends on port 0 and receives from it. -/
def dLrn (x : LrnSt) : Dev :=
  { withCells (Dev.words (Dev.run d0 [(.lrn, 0), (.tbl, 0)]) [(reg .lrn 0 0x100, 3), (reg .lrn 0 0x110, 0x101), (reg .lrn 0 0x124, 1500),
      (reg .lrn 0 0x120, 3 * 65536 + 16), (reg .sys 0 0x110, 9)]) 9 with lrn := x, bounds := 256 }

theorem test_witness_LearningCompletes :
    (let d := dLrn {}
     (on d).live ∧ (d.table 15).refill + 256 ≤ d.bounds) ∧
    (let r : LrnRec := { bytes := zeros 16, turn := 0 }
     let d := dLrn { queue := [r] }
     let take := lrnTake (d.fld (reg .lrn 0 0x124) 0 14) [r] 0 28
     d.lrn.queue = [r] ∧ r.turn + d.fld (reg .lrn 0 0x118) 0 8 ≤ d.bounds ∧ take = [r] ∧ d.accepts .lrn 0 ∧ d.lrnStandby = false ∧
     d.lrnCells (28 + (take.flatMap (·.bytes)).length) = true ∧ take.any d.recMirrored = false) ∧
    (let d := dLrn { rx := [(0, lrnFrame)] }
     (({ d with lrn := { d.lrn with rx := [] } } : Dev).lrnRead 4 lrnFrame).isNone ∧
     someIs (({ d with lrn := { d.lrn with rx := [] } } : Dev).lrnRead 0 lrnFrame) (fun f => f.sender = 5 &&
       !f.recs.any fun r => d.tabStalled r.table) ∧ d.accepts .tbl 0) ∧
    (let d := dLrn { rx := [(0, lrnRecord)] }
     someIs (({ d with lrn := { d.lrn with rx := [] } } : Dev).lrnRead 0 lrnRecord) fun f => f.recs.map (·.table) = [15]) ∧
    (let d := dLrn { resync := [(5, 3, 4)], sent := [(3, lrnFrame), (4, lrnFrame)], seq := 5 }
     (on d).live ∧ d.lrn.resync = [(5, 3, 4)] ∧ d.accepts .lrn 0 ∧ d.lrnStandby = false ∧
     (let again := d.lrn.sent.filter fun f => decide (sub32 f.1 3 ≤ sub32 4 3)
      again.length = 2 ∧ goneRange 3 4 (again.map fun f => f.1 % p32) = none ∧ goneRange 2 4 (again.map fun f => f.1 % p32) = some (2, 2))) ∧
    (∀ n ∈ [2, 3],
      let d := dLrn { peers := ⟨[(5, { asked := some (3, 4), tries := n })]⟩ }
      (d.peer 5).asked = some (3, 4) ∧ (d.peer 5).turn + d.fld (reg .lrn 0 0x120) 0 16 ≤ d.bounds ∧
      d.fld (reg .lrn 0 0x120) 16 4 = 3 ∧ (d.peer 5).tries = n) := by decide +kernel

/-! ### Ports and the cipher engine -/

/-- Port 3 in a state: MAC 3 and SDS run, a module present, MODE 1, MAX_FRAME 1,518; EGR runs; the clocks are up. -/
def dPort (p : PortSt) : Dev :=
  Dev.words ((Dev.run d0 [(.mac, 3), (.sds, 0), (.egr, 0)]).setPort 3 p)
    [(reg .mac 3 0x100, 1 + 8 + 1518 * 65536), (reg .clk 0 0x100, 0xF0)]

/-- Port 3 with MACsec on, and generator 0 and cluster 0 in service or not. -/
def dSecPort (rand : Nat) : Dev :=
  Dev.words (Dev.run (dPort { link := .up }) [(.cip, 0)]) [(reg .mac 3 0xC00, 2), (reg .ent 0 0x100, rand)]

/-- Port 3 in the mirror group 0, which stands by. -/
def dStandPort : Dev :=
  let d := dPort { link := .up }
  let d := d.wrN (reg .prl 0 0x140) (1 + 2 ^ 19)
  { d with pair := { d.pair with roles := d.pair.roles.set 0 .standby .off } }

/-- Frames of the least and the most length, with corrected codewords or an uncorrectable one; a frame of a port that stands
by; MACsec frames that go on and that wait; a queued frame; PFC refreshed 8 boundaries after the last frame. -/
theorem test_witness_PortsComplete :
    (∀ n ∈ [60, 1518],
      let d := dPort { link := .up, modPresent := true }
      let f := d.fecCount 3 { corrected := 2 }
      (on d).live ∧ (d.port 3).link = .up ∧ f.macDiscard 3 (zeros n) true = none ∧
      (let e := (f.macBump 3 0).macBump 3 1 (n + 4)
       e.portStandby 3 = false ∧ e.bit (reg .mac 3 0xC00) 1 = false)) ∧
    someIs ((dPort { link := .up }).fecCount 3 { uncorrectable := 1 } |>.macDiscard 3 (zeros 60) (RxCheck.ok { uncorrectable := 1 }))
      (fun e => e.rdN (reg .mac 3 0xE60) = 0) ∧
    (dStandPort.portStandby 3 && !dStandPort.standbyKeeps (zeros 60)) ∧
    (∀ x ∈ [(0xF1, false), (2, true)], ((dSecPort x.1).secWaits 3 (zeros 60)).2 = false ∧ ((dSecPort x.1).secWaits 3 (zeros 60)).1.secHolds (zeros 60) = x.2 ∧ (dSecPort x.1).bit (reg .mac 3 0xC00) 1) ∧
    (let i : EgrItem := { pkt := { id := 1, data := zeros 60 }, cells := 1 }
     let d := dPort { link := .up, queues := ⟨[(63, [i])]⟩ }
     let q := d.pickQueue (on d).time 3
     d.secDown 3 = false ∧ q.2 = some 63 ∧ q.1.head 63 = some i) ∧
    (let i : EgrItem := { pkt := { id := 1, data := zeros 60 }, cells := 1 }
     let d := d0.setPort 4 { link := .up, queues := ⟨[(7, [i])]⟩ }
     let q := d.pickQueue (on d).time 4
     d.secDown 4 = false ∧ q.2 = some 7 ∧ q.1.head 7 = some i) ∧
    (let d := { Dev.words (dPort { link := .up, pfcSent := ⟨[(7, 0)]⟩ }) [(reg .mpd 0 0x438, 3), (reg .mpd 0 0x43C, 8)] with
       bounds := 8, priCells := ⟨[(31, 3)]⟩ }
     (d.port 3).pfcSent.find 7 = some 0 ∧ 0 + d.fld (reg .mpd 0 (0x400 + 0x10 * 3) + 12) 0 16 ≤ d.bounds ∧
     d.fld (reg .mpd 0 (0x400 + 0x10 * 3) + 8) 0 21 ≤ d.priCells.getD (3 * 8 + 7) 0) := by decide +kernel

/-- A port in each state of its link. -/
theorem test_witness_PortsComplete_links :
    (let d := dPort { link := .disabled, modPresent := true }
     (d.port 3).link = .disabled ∧ d.portReady 3 ∧ d.refUp) ∧
    (let d := dPort { link := .training, modPresent := true }
     let d := { d with bounds := d.fld (reg .mac 3 0x108) 0 16 }
     (d.port 3).link = .training ∧ d.portReady 3 ∧ d.refUp ∧ (d.port 3).since + d.fld (reg .mac 3 0x108) 0 16 ≤ d.bounds) ∧
    (let d := dPort { link := .up }
     (d.port 3).link ≠ .disabled ∧ d.portReady 3 = false ∧ (d.port 3).modPresent ≠ true) ∧
    permitted (on (dPort {})) .hif0 (laneCtrl 7 3) 4 (putBits 0 8 1 1) (fun t => bitOf t.acc.data 8) ∧
    permitted (on (Dev.run d0 [(.prl, 0)])) .hif0 (laneCtrl 8 0) 4 (putBits 0 8 1 1) (fun t => bitOf t.acc.data 8) := by decide +kernel

/-- KEY and the clusters run with generators up; key slot 5 of PF0 of link 0 holds a 16 B key; SA 1 names it. -/
def dKey (kind : Nat) : Dev :=
  let d := Dev.words (Dev.run d0 [(.rng, 0), (.key, 0), (.cip, 0), (.cip, 1), (.cip, 2)])
    [(reg .key 0 0x100, 1), (reg .key 0 0x10100, 0x100000), (reg .key 0 0x10108, 1), (reg .ent 0 0x100, 0xF1)]
  { d.hbmWrite (0x100000 + 256) ([byteN kind, 1, 1, 0, 5, 0, 0, 0]) with
    keys := ⟨[(5, { usage := 3, owner := ⟨0, 0⟩, key := zeros 16, gen := 2, wrap := zeros 128 })]⟩ }

/-- Port 3 with a receive SC whose SA 1 the ACTIVE SA group mirrors, with no mark acknowledged. -/
def dSecMark : Dev :=
  let d := Dev.words (Dev.run ((dKey 3).setPort 3 { link := .up }) [(.mac, 3)]) [(reg .mac 3 0x100, 1 + 8 + 1518 * 65536),
    (reg .mac 3 0xC00, 2), (reg .mac 3 0x1004, 0x1000000), (reg .mac 3 0x1008, 1), (reg .mac 3 0x1010, 0x80000001),
    (reg .prl 0 0x140, 3)]
  { d.hbmWrite (0x100000 + 256) [3, 1, 17] with pair := { roles := NMap.put {} 0 .active } }

/-- A protected frame that waits for the mark of its SA. -/
theorem test_witness_PortsComplete_mark :
    let f := zeros 12 ++ [0x88, 0xE5] ++ zeros 46
    (on dSecMark).live ∧ (dSecMark.port 3).link = .up ∧ (dSecMark.fecCount 3 {}).macDiscard 3 f true = none ∧
    dSecMark.portStandby 3 = false ∧ dSecMark.bit (reg .mac 3 0xC00) 1 ∧ (dSecMark.secWaits 3 f).2 = true := by decide +kernel

/-- The same with ring 5 of a kind and its work. -/
def dKeyRing (d : Dev) (kind : Nat) (w : List Work) : Dev :=
  { Dev.words d [(rngKey 5 8, cfg kind 6), (rngKey 5 0x34, 4), (rngKey 4 8, cfg 6 6)] with
    rings := ⟨[(4, { state := .active }), (5, { state := .active, work := w })]⟩ }

/-- A job: algorithm, length, IV length, key slot. -/
def jobWork (op alg len iv slot : Nat) : Work :=
  work5 op ([0xA4, byteN op, byteN alg, 0, 7, 0, 0, 0] ++ toLE 4 len ++ toLE 4 slot ++ toLE 8 4096 ++ toLE 8 4096 ++ zeros 36 ++
    [byteN iv] ++ zeros 11)

/-- The keys of a job are there. -/
def hasKeys (d : Dev) (w : Work) : Bool :=
  match d.jobKeys w with
  | (_, .ok _) => true
  | (_, .error _) => false

/-- An SA is usable. -/
def saIsUsable (d : Dev) (sa : Nat) : Bool :=
  match d.saUsable sa [1, 2] with
  | (_, .ok _) => true
  | (_, .error _) => false

/-- Inline packets of both kinds of SA; jobs of each opcode that are started, and one that is malformed. -/
theorem test_witness_CipherWorkCompletes :
    (∀ kind ∈ [1, 2],
      let j : InlineJob := { pipe := 7, sa := 1, pkt := { id := 1, data := zeros 60 } }
      let d := (dKey kind).setLane 0 15 { queue := [j] }
      (on d).live ∧ (d.lane 0 15).queue = [j] ∧ (d.lane 0 15).active = none ∧ (d.lane 0 15).fenced = none ∧ d.accepts .cip 0 ∧
      d.entRuns 0 ∧ saIsUsable d j.sa ∧ saKind (d.saRead j.sa) = kind) ∧
    (∀ q ∈ [(1, 1, 12, 5), (2, 1, 12, 5), (3, 3, 12, 5), (4, 3, 12, 5), (5, 0x10, 0, 0)],
      let w := jobWork q.1 q.2.1 16 q.2.2.1 q.2.2.2
      let d := dKeyRing (dKey 1) 3 [w]
      (on d).live ∧ d.ringKind 5 = 3 ∧ d.accepts .cip 1 ∧ d.entRuns 1 ∧ d.jobsRunning < d.lanesFree 1 ∧
      ((d.ring 5).work.find? fun w => w.done.isNone && !w.started) = some w ∧ w.opcode = q.1 ∧ jobCheck w = none ∧ hasKeys d w ∧
      (d.holdRoom 1 (jobUnits w q.1)).2 = true) ∧
    jobCheck (jobWork 1 1 16 11 5) = some 0x01 ∧
    (let w := { jobWork 5 0x10 0 0 0 with started := true, note := [2, 0, 0, 0] }
     let d := withBme (dKeyRing (dKey 1) 3 [w])
     (on d).live ∧ d.entRuns 1 ∧
     ((d.ring 5).work.find? fun w => w.done.isNone && w.started && decide (w.opcode ≤ 5) && decide (w.note.head? = some 2) &&
       decide (w.waiting = [])) = some w ∧ d.master (d.ringFunc 5)) := by decide +kernel

/-- A packet that lane 15 runs. -/
theorem test_witness_CipherWorkCompletes_inline :
    (∀ kind ∈ [1, 2],
      let j : InlineJob := { pipe := 7, sa := 1, pkt := { id := 1, data := zeros 60 } }
      let d := dKey kind
      let r : InlineRun := { job := j, rec_ := d.saRead 1, key := zeros 16, gen := 2, q := 1, units := 1 }
      let d := d.setLane 0 15 { active := some r }
      (on d).live ∧ (d.lane 0 15).active = some r ∧ d.entRuns 0 ∧ saKind r.rec_ = kind) := by decide +kernel

/-- A grain that is read, one that is written, and the entropy source in both states. -/
theorem test_witness_CipherWorkCompletes_store :
    (∀ ph ∈ [GPhase.open_, .seal],
      let t : GTask := { id := 3, cmd := 2, vol := 4, grain := 0, first := 0, count := 16, write := false, phase := ph }
      let x : Vol := { rec_ := zeros 16 ++ [5, 0, 0, 0] ++ zeros 44 }
      let d := { dKey 1 with tasks := [t], vols := ⟨[(4, x)]⟩ }
      let d := { d with keys := ⟨[(5, { usage := 3, owner := ⟨0, 0⟩, key := zeros 32, gen := 2, wrap := zeros 128 })]⟩ }
      (on d).live ∧ d.task? 3 = some t ∧ d.storeRuns t ∧ t.phase = ph ∧ d.vols.find t.vol = some x ∧ (d.volKey x.rec_).2 = some (zeros 32)) ∧
    (let t : GTask := { id := 3, cmd := 2, vol := 4, grain := 0, first := 0, count := 16, write := false, phase := .open_, since := 1 }
     let d := { d0 with tasks := [t], bounds := 2 ^ 22 }
     d.task? 3 = some t ∧ d.storeRuns t = false ∧ d.clusterTakes 2 = false ∧ d.jobOverdue t) ∧
    d0.rdN (reg .ent 0 0x100) ≠ 0xF1 ∧
    readable (on d0) .hif0 (reg .ent 0 0x108) 4 (fun _ => true) ∧ readable (on d0) .hif0 (reg .ent 0 0x108) 8 (fun _ => true) := by decide +kernel

/-! ### Keys -/

theorem test_witness_KeyRegistersComplete :
    (∀ q ∈ [(0, 1), (1, 2), (2, 4), (3, 8)],
      permitted (on (dKey 1)) .hif0 (reg .key 0 0x188) 4 (putBits 0 q.1 1 1) (fun t => t.acc.data % 16 = q.2) ∧
      permitted (on { dKey 1 with keyBusy := some { load := true } }) .hif0 (reg .key 0 0x188) 4 (putBits 0 q.1 1 1)
        (fun t => t.acc.data % 16 = q.2)) ∧
    (dKey 1).keyIsBusy = false ∧ (dKey 1).accepts .key 0 ∧ ({ dKey 1 with keyBusy := some { load := true } } : Dev).keyIsBusy ∧
    ({ dKey 1 with keyBusy := some { load := true } } : Dev).keyBusy = some { load := true } ∧ (dKey 1).keyHeld [] = false ∧
    ({ dKey 1 with keyBusy := some { zero := true, gens := [2] } } : Dev).keyHeld [2] = false ∧ ({ dKey 1 with keyLoadAt := some 4, bounds := 20 } : Dev).keyLoadAt = some 4 ∧
    permitted (on (Dev.run d0 [(.key, 0)])) .hif0 (reg .key 0 0x100) 4 (putBits 0 0 1 1)
      (fun t => !(Dev.run d0 [(.key, 0)]).keyEn && ((Dev.run d0 [(.key, 0)]).store t).keyEn) ∧
    permitted (on (dKey 1)) .hif0 (reg .key 0 0x100) 4 (putBits 1 0 1 0) (fun t => (dKey 1).keyEn && !((dKey 1).store t).keyEn) ∧
    permitted (on (dKey 1)) .hif0 (reg .key 0 0x10108) 4 (putBits 1 0 5 0) (fun t => t.x = 0x10108 && t.acc.data % 32 = 0 &&
      ((((dKey 1).saInvalidate fun _ => true).saDetach fun _ => true).store t).fld (reg .key 0 0x10108) 0 5 = 0) := by decide +kernel

/-- A key or SA command: index, flags, length, address. -/
def keyWork (op sel flags len idx addr usage : Nat) : Work :=
  work5 op ([0xA1, byteN op, byteN sel, byteN flags, 7, 0, 0, 0] ++ toLE 4 len ++ toLE 4 idx ++ toLE 8 addr ++ [byteN usage] ++ zeros 7)

theorem test_witness_KeyCommandsComplete :
    (∀ n ∈ [29, 92],
      let w := keyWork 0x30 0 0 n 7 4096 3
      let d := dKeyRing (dKey 1) 3 [w]
      (on d).live ∧ d.keyReady 5 0x30 w ∧ w.note = [] ∧ d.unlocked = false ∧ leAt w.entry 8 4 = n ∧ byteAt w.entry 24 % 4 ≠ 0 ∧
      w.started = false) ∧
    (∀ fl ∈ [0, 1],
      let w := keyWork 0x31 0 fl 0 5 0 0
      let d := dKeyRing (dKey 1) 3 [w]
      d.keyReady 5 0x31 w ∧ w.note = [] ∧ byteAt w.entry 3 % 2 = fl ∧
      someIs (d.keys.find (keyIndex w)) (fun k => k.owner = d.ringFunc 5)) ∧
    (∀ slot ∈ [5, 2097151],
      let w := keyWork 0x32 0 0 0 slot 0 0
      let d := dKeyRing (dKey 1) 3 [w]
      d.keyReady 5 0x32 w ∧ keyIndex w = slot ∧
      (match (d.keyGet (keyIndex w)).2 with
        | none => decide (slot ≠ 5)
        | some k => decide (k.owner = (d.keyGet (keyIndex w)).1.ringFunc 5)) = true) := by decide +kernel

/-- A wrapped key of 16 bytes whose tag, computed outside from FIPS 197 and SP 800-38D, matches. -/
theorem test_witness_KeyCommandsComplete_unwrap :
    let w := come (keyWork 0x30 0 0 44 7 4096 3)
      (zeros 28 ++ [25, 251, 99, 235, 169, 236, 120, 223, 156, 36, 249, 203, 77, 52, 145, 145])
    let k : KeySlot := { usage := 0, owner := ⟨0, 0⟩, key := zeros 32, gen := 1 }
    let d := { dKeyRing (dKey 1) 3 [w] with keks := ⟨[(0, k)]⟩ }
    d.keyReady 5 0x30 w ∧ w.waiting = [] ∧ d.keks.find (byteAt w.entry 2 % 16) = some k ∧ k.owner = d.ringFunc 5 ∧
    (d.keyGet (keyIndex w)).2 = none ∧ d.keyFull (d.ringFunc 5) = false ∧
    gcmTag k.key ((slice w.allData 0 44).take 12) ([byteN (44 - 28), byteN (byteAt w.entry 24 % 4)] ++ zeros 6)
      (slice (slice w.allData 0 44) 12 (44 - 28)) = slice (slice w.allData 0 44) (44 - 16) 16 := by decide +kernel

theorem test_witness_KeyCommandsComplete_sa :
    (let w := keyWork 0x20 0 0 0 1 4096 0
     let d := dKeyRing (dKey 1) 3 [w]
     (on d).live ∧ d.saReady 5 0x20 w ∧ w.started = false) ∧
    (let w := come (keyWork 0x20 0 0 0 0 4096 0) ([1, 1, 1, 0, 5, 0, 0, 0] ++ zeros 120)
     let d := dKeyRing (dKey 1) 3 [w]
     let old := d.saRead (keyIndex w)
     let new := splice (slice w.allData 0 128) 58 (toLE 2 (ownerField (d.ringFunc 5)))
     d.saReady 5 0x20 w ∧ w.waiting = [] ∧ saFlag old 0 = false ∧ saReserved new = false ∧ saFlag new 4 = false ∧
     someIs (d.keyGet (saSlot new)).2 (fun k => k.owner = d.ringFunc 5)) ∧
    (∀ op ∈ [0x21, 0x22],
      let w := keyWork op 0 0 0 1 4096 0
      (dKeyRing (dKey 1) 3 [w]).saReady 5 op w) := by decide +kernel

/-! ### Stores and volumes -/

/-- A volume record: volume 4, state, flags, LBAs, key slot 5, one copy on store 0, engine 3. -/
def volRec (state flags blocks member : Nat) : List Byte :=
  [4, 0, byteN state, byteN flags, 1, 1, 0, 3] ++ toLE 8 blocks ++ [5, 0, 0, 0, 0, 0, 0, 0] ++ [byteN member] ++ zeros 39

/-- The block store runs, with store 0 in a state, volume 4, and the work on ring 5. -/
def dBlk (w : List Work) (store : Nat) (x : Vol) : Dev :=
  let d := Dev.words (dKeyRing (dKey 1) 7 w) ([(ctrlReg .blkg 0, 1), (ctrlReg .blke 0, 1), (ctrlReg .blke 1, 1), (ctrlReg .blke 2, 1),
    (ctrlReg .blke 3, 1), (ctrlReg .drp 0, 1), (ctrlReg .qrn 0, 1), (reg .blkg 0 0x108, 1), (reg .blkg 0 0x124, 1), (reg .clk 0 0x100, 0xF1)])
  { d with keys := ⟨[(5, { usage := 3, owner := ⟨0, 0⟩, key := zeros 32, gen := 2, wrap := zeros 128 })]⟩,
           stores := ⟨[(0, { state := store })]⟩, vols := ⟨[(4, x)]⟩ }

/-- A store write, read and failure; a store that has lost an extent; a mapped grain to scrub and a sealed segment. -/
theorem test_witness_StoresComplete :
    (let w : SWrite := { id := 3, store := 0, lba := 0, data := zeros 16 }
     takeFirst (fun w : SWrite => w.sent && decide (w.id = 3) && decide (w.store = 0) &&
       (dBlk [] 1 { rec_ := volRec 0 0 256 0 }).storeReach 0) [w] = some (w, [])) ∧
    (∀ more ∈ [true, false],
      let r : SRead := { id := 3, task := 9, member := 0, store := 0 }
      let t : GTask := { id := 9, cmd := 2, vol := 4, grain := 0, first := 0, count := 1, write := false }
      let d : Dev := { dBlk [] 1 { rec_ := volRec 0 0 256 0 } with sreads := r :: (if more then [{ r with id := 4 }] else []), tasks := [t] }
      (d.sreads.any fun r => r.sent && decide (r.id = 3) && d.storeReach r.store) ∧ someIs (takeFirst (fun r : SRead => decide (r.id = 3)) d.sreads) (fun q =>
        let e := ({ d with sreads := q.2 } : Dev).setTask q.1.task (fun t => { t with frags := t.frags ++ [(q.1.member, none)] })
        someIs (e.task? q.1.task) (fun t => (e.sreads.any fun r => decide (r.task = t.id)) = more))) ∧
    (∀ st ∈ [1, 3], ((dBlk [] st { rec_ := volRec 0 0 256 0 }).store? 0).state = st) ∧
    (let x : Vol := { rec_ := volRec 0 0 256 0, map := ⟨[(15, { mapped := true })]⟩,
                      segs := ⟨[(7, { pol := 1, k := 1, m := 0, members := [0xFF], start := [0], sealed := true })]⟩ }
     let d := dBlk [] 1 x
     (on d).live ∧ d.vol? 4 = some x ∧ d.accepts .blkg 0 ∧ d.storesAway = false ∧ d.coresDead = false ∧ d.pair.landing = [] ∧ d.storeTakes ∧ d.scrubWindow.2 < d.fld (reg .blkg 0 0x124) 0 24 ∧
     d.scrubNow = some 4 ∧ x.nextMapped x.scrub = some 15 ∧ someIs (x.segs.find 7) (fun g => g.sealed) ∧ d.clusterTakes 2 ∧
     (d.cleanable.all fun q => decide ((x.liveIn 7).length ≤ q.2.2)) ∧ d.lacksExtents 0 ∧ (dBlk [] 2 x).storeReady 0 = false) ∧
    (let x : Vol := { rec_ := volRec 0 0 256 0 }
     let d := dBlk [] 1 x
     d.scrubNow = some 4 ∧ x.nextMapped x.scrub = none) := by decide +kernel

/-- A command that waits for its place, with the members of its volume ready and not, in two states. -/
theorem test_witness_StoresComplete_places :
    (∀ q ∈ [(1, 0), (2, 0), (2, 1)],
      let c : QCmd := { id := 2, queue := 0, func := ⟨0, 0⟩, local_ := 0, entry := [2, 0, 0, 0, 4, 0] ++ zeros 58, started := true }
      let x : Vol := { rec_ := volRec q.2 0 256 0 }
      let t : GTask := { id := 9, cmd := 2, vol := 4, grain := 0, first := 0, count := 1, write := true, phase := .space }
      let d : Dev := { dBlk [] q.1 x with qcmds := [c], tasks := [t] }
      d.qcmd 2 = some c ∧ d.vols.find c.vol = some x ∧ d.waitsPlace 2 x ∧ d.membersAway x = false ∧ (vrMembers x.rec_).all d.storeReady = decide (q.1 = 1) ∧
      (d.durabilityLost 2).volState x = q.2) := by decide +kernel

/-- STORE_ADD of a local drive: a medium to format, and one with a label. -/
def descWork : Work := come (mbxWork 0x50 0 0 4096 0) ([1, 1, 31] ++ zeros 61)

theorem test_witness_StoresComplete_add :
    (let d := dBlk [mbxWork 0x50 0 0 4096 0] 1 { rec_ := volRec 0 0 256 0 }
     d.blkReady 5 0x50 (mbxWork 0x50 0 0 4096 0)) ∧
    (let b := slice descWork.allData 0 64
     let m : Medium := { cap := 1000000 }
     let d := { dBlk [descWork] 1 { rec_ := volRec 0 0 256 0 } with media := ⟨[(mediumKey b [], m)]⟩ }
     (on d).live ∧ d.blkBlockReady 5 0x50 descWork b ∧ descReserved b = false ∧ d.refUp ∧ byteAt b 0 ≠ 2 ∧ d.accepts .drp 0 ∧
     (d.meetMedium (mediumKey b [])).2 = m ∧ (d.meetMedium (mediumKey b [])).1.accepts .drp 0 = d.accepts .drp 0 ∧
     ((d.meetMedium (mediumKey b [])).1.stores.values.any fun x => decide (x.state ≠ 0 ∧ x.medium = mediumKey b [])) = false ∧
     descWork.ring = 5 ∧ bitOf (byteAt b 1) 0 = true ∧ (d.meetMedium (mediumKey b [])).1.mediumOk (byteAt b 2) m ∧
     ((d.meetMedium (mediumKey b [])).1.store? (byteAt b 2)).state = 0) := by decide +kernel

/-- A medium that holds the label of store 31. -/
def labelled : Medium :=
  { cap := 1000000, lbas := ⟨[(0, (labelBytes 31 1 1000000).take 4096), (1, (labelBytes 31 1 1000000).drop 4096)]⟩ }

/-- STORE_ADD that takes a medium as it is. -/
def joinWork : Work := come (mbxWork 0x50 0 0 4096 0) ([1] ++ zeros 63)

/-- See `joinWork`. -/
def dJoin : Dev :=
  { dBlk [joinWork] 1 { rec_ := volRec 0 0 256 0 } with media := ⟨[(mediumKey (slice joinWork.allData 0 64) [], labelled)]⟩ }

theorem test_witness_StoresComplete_label :
    labelValid (labelled.read 0 2) = true ∧ byteAt (labelled.read 0 2) 5 = 31 := by
  have e : labelled.read 0 2 = labelBytes 31 1 1000000 := by
    simp [labelled, Medium.read, rangeFrom, NMap.getD, cellsFind]
  rw [e]
  exact ⟨labelBytes_valid _ _ _ (by decide), by decide +kernel⟩

theorem test_witness_StoresComplete_join :
    (dJoin.meetMedium (mediumKey (slice joinWork.allData 0 64) [])).2 = labelled ∧
    dJoin.blkBlockReady 5 0x50 joinWork (slice joinWork.allData 0 64) ∧ descReserved (slice joinWork.allData 0 64) = false ∧
    byteAt (slice joinWork.allData 0 64) 0 ≠ 2 ∧ dJoin.accepts .drp 0 = true ∧ dJoin.mediumOk 31 labelled = true ∧
    (dJoin.stores.values.any fun x => decide (x.state ≠ 0 ∧ x.medium = mediumKey (slice joinWork.allData 0 64) [])) = false ∧
    bitOf (byteAt (slice joinWork.allData 0 64) 1) 0 = false ∧ (dJoin.store? 31).state = 0 :=
  ⟨rfl, by decide +kernel⟩

/-- A remote drive, whose names are still to be read and have come. -/
theorem test_witness_StoresComplete_remote :
    (∀ st ∈ [32, 95],
      let b := [2, 1, byteN st] ++ zeros 33 ++ [1, 0] ++ zeros 8 ++ [1, 0] ++ zeros 16
      descReserved b = false ∧ byteAt b 0 = 2 ∧
      (let w := { come (mbxWork 0x50 0 0 4096 0) b with note := [4], data := [(0, b), (1, [65]), (2, [66])] }
       let d := { dBlk [w] 1 { rec_ := volRec 0 0 256 0 } with media := ⟨[(mediumKey b [65], { cap := 1000000 })]⟩ }
       d.blkBlockReady 5 0x50 w b ∧ slice (w.part 1) 0 (leAt b 36 2) = [65] ∧ (d.meetMedium (mediumKey b [65])).1.mediumOk st (d.meetMedium (mediumKey b [65])).2 ∧ byteAt b 2 = st ∧ byteAt b 1 % 2 = 1 ∧
       slice (w.part 2) 0 (leAt b 46 2) = [66] ∧
       (d.store? st).state = 0)) := by decide +kernel

/-- Draining and removal of stores, a presence change of the last drive of the widest split. -/
theorem test_witness_StoresComplete_remove :
    (∀ fl ∈ [0, 1],
      let w := mbxWork 0x51 fl 0 0 0
      let d := { dBlk [w] 1 { rec_ := volRec 0 0 256 1 } with bounds := 1 }
      d.mediaReady 5 0x51 w ∧ mbxArg w % 256 < 96 ∧ mbxFlags w = fl ∧ (d.store? (mbxArg w % 256)).state = 1 ∧ d.storeMember 0 = false) ∧
    (let d := dBlk [] 3 { rec_ := volRec 0 0 256 1 }
     (d.store? 0).state = 3 ∧ (d.store? 0).ext.cells = [] ∧ (d.swrites.all fun w => decide (w.store ≠ 0))) ∧
    (let d := { d0 with drpCfg := 0x62 }
     3 < 2 ^ bitsOf d.drpCfg 0 2) := by decide +kernel

/-- The block store with volume 4 and its members on ring 5: the command is ready and finds the volume. -/
def dVol (w : Work) (x : Vol) : Dev := dBlk [w] 1 x

/-- VOL_CREATE of volume 4 in both states of a new volume, its block to be read and come. -/
theorem test_witness_VolumeCommandsComplete :
    (∀ op ∈ [0x52, 0x54], (dVol (mbxWork op 0 0 4096 0) { rec_ := volRec 3 0 256 0 }).blkReady 5 op (mbxWork op 0 0 4096 0)) ∧
    (∀ st ∈ [0, 3],
      let b := volRec st 1 256 0
      let w := come (mbxWork 0x52 0 0 4096 0) b
      let d := { dVol w { rec_ := b } with vols := {} }
      (on d).live ∧ d.blkBlockReady 5 0x52 w b ∧ vrReserved b = false ∧ vrState b = st ∧ d.vols.find (vrVol b) = none ∧
      sizeOk (vrBlocks b) = true ∧ d.otherBlocks (vrVol b) + vrBlocks b ≤ d.mapBlocks ∧ d.membersReady b = true ∧
      (vrPair b && d.standsBy (d.groupKind 2)) = false ∧ vrWide b = true ∧ d.enginesAll = true ∧ d.mayOwn (vrOwner b) 1 = true ∧
      (vrPair b && d.groupActive (d.groupKind 2) && d.pairFull) = false ∧ (d.volKey b).2 = some (zeros 32)) := by decide +kernel

/-- Each change of state of R470; a migration, the sizes at the ends of the range. -/
theorem test_witness_VolumeCommandsComplete_change :
    (∀ q ∈ [(1, 0), (3, 0), (3, 1), (3, 4), (0, 3), (0, 1)],
      let w := mbxWork 0x53 0 (4 + 65536 * q.1) 0 0
      let x : Vol := { rec_ := volRec q.2 0 256 0 }
      let d := dVol w x
      d.mediaReady 5 0x53 w ∧ mbxArg w % 65536 = 4 ∧ d.volReady 4 x ∧ bitsOf (mbxArg w) 16 8 = q.1 ∧ d.volState x = q.2 ∧ d.storeGone = false ∧
      vrWide x.rec_ = false ∧ (d.volKey x.rec_).2 = some (zeros 32)) := by decide +kernel

theorem test_witness_VolumeCommandsComplete_size :
    (let b := volRec 0 0 256 0
     let w := come (mbxWork 0x54 0 0 4096 0) b
     let x : Vol := { rec_ := b }
     let d := dVol w x
     d.blkBlockReady 5 0x54 w b ∧ d.volReady (vrVol b) x ∧ d.volState x = 0 ∧ d.membersReady b ∧ vrReserved b = false ∧ vrPair b = false ∧ migrateFixed b = migrateFixed x.rec_) ∧
    (∀ q ∈ [(0, 256), (3, 512), (0, 1073741824)],
      let w := mbxWork 0x55 0 (4 + 65536 * (if q.2 = 512 then 256 else q.2)) 0 0
      let x : Vol := { rec_ := volRec q.1 0 (min q.2 512) 0 }
      let d := dVol w x
      d.mediaReady 5 0x55 w ∧ mbxArg w % 65536 = 4 ∧ d.volReady 4 x ∧ sizeOk (mbxArg w / 65536) = true ∧
      (vrBlocks x.rec_ ≤ mbxArg w / 65536 ∨ d.volState x = 3) ∧ d.otherBlocks 4 + mbxArg w / 65536 ≤ d.mapBlocks) := by decide +kernel

theorem test_witness_VolumeCommandsComplete_others :
    (let w := mbxWork 0x56 0 4 0 0
     let x : Vol := { rec_ := volRec 3 0 256 0 }
     (dVol w x).mediaReady 5 0x56 w ∧ (dVol w x).volReady 4 x ∧ (dVol w x).volState x = 3) ∧
    (∀ op ∈ [0x57, 0x59],
      let w := mbxWork op 0 4 0 0
      let x : Vol := { rec_ := volRec 0 0 256 0 }
      (dVol w x).blkReady 5 op w ∧ mbxArg w % 65536 = 4 ∧ (dVol w x).volReady 4 x) ∧
    (∀ fl ∈ [0, 3],
      let w := mbxWork 0x58 fl 4 0 0
      (dVol w { rec_ := volRec 0 0 256 0 }).mediaReady 5 0x58 w ∧ mbxFlags w = fl) ∧
    (let d := dFull (dVol (mbxWork 0x58 0 4 0 0) { rec_ := volRec 0 0 256 0 }) 2
     d.mediaReady 5 0x58 (mbxWork 0x58 0 4 0 0) ∧ d.groupActive (d.groupKind 2)) := by decide +kernel

theorem test_witness_VolumeEventsComplete :
    (let x : Vol := { rec_ := volRec 3 0 256 0, quiescing := true, eng := 0, homing := true }
     let d := dBlk [] 1 x
     (on d).live ∧ d.vol? 4 = some x ∧ (d.qcmds.all fun c => decide (c.vol ≠ 4 ∨ c.op = 3)) = true ∧
     vrWide x.rec_ = false ∧ x.eng ≠ vrEngine x.rec_ ∧ d.accepts .blke (vrEngine x.rec_) = true ∧
     (d.qcmds.all fun c => decide (c.vol ≠ 4) || !c.started || c.done.isSome) = true) ∧
    (let x : Vol := { rec_ := volRec 4 0 256 0 }
     (dBlk [] 1 x).volState x = 4 ∧ (dBlk [] 1 x).oldLive 4 x = false ∧ (dBlk [] 1 x).coresDead = false ∧ (dBlk [] 1 x).storesAway = false) := by
  decide +kernel

/-! ### Quern -/

/-- The 64 B of a command: opcode, CID, volume 4, one block. -/
def cmd64 (op : Nat) : List Byte := [byteN op, 0, 7, 0, 4, 0] ++ zeros 58

/-- An outstanding command of queue 8191. -/
def cmd (op : Nat) : QCmd := { id := 2, queue := 8191, func := ⟨0, 0⟩, local_ := 8191, entry := cmd64 op }

/-- Quern runs with queue 8191 of depth 16 in a state, completing to ring 4. -/
def dQrn (st : QState) (cs : List QCmd) : Dev :=
  { Dev.words (dBlk [] 1 { rec_ := volRec 0 0 256 0 }) [(queueKey 8191 0, 16 * 65536 + 1), (queueKey 8191 4, 4)] with
    queues := ⟨[(8191, { state := st })]⟩, qcmds := cs }

theorem test_witness_PushesAndCompletions :
    (let d := dQrn .active []
     (on d).live ∧ d.fnExists ⟨0, 0⟩ ∧ d.queueOfLocal ⟨0, 0⟩ ((0x400000 + 8191 * 0x100 - 0x400000) / 0x100) = some 8191 ∧
     (d.queue 8191).state = .active ∧ (cmd64 2).length = 64 ∧ (d.queueCmds 8191).length < d.fld (queueKey 8191 0) 16 11) ∧
    (let d := dQrn .active (List.replicate 16 (cmd 2))
     d.fld (queueKey 8191 0) 16 11 ≤ (d.queueCmds 8191).length) ∧
    (∀ st ∈ [QState.quiescing, .resetting], ((dQrn st []).queue 8191).state = st ∧
      (dQrn st []).queueOfLocal ⟨0, 0⟩ 8191 = some 8191) ∧
    (let d := (dQrn .active []).setQueue 8191 { state := .active, slot := some { status := 0x33, cid := 7, count := 1, mixed := false } }
     ((d.queue 8191).slot).isSome ∧ (d.ring (d.queueRing 8191)).state ≠ .off ∧ (d.ring (d.queueRing 8191)).stash.length < 64) ∧
    ((cmd64 2).take 32).length ≠ 64 ∧ 0x3FFFC0 < strideBase ⟨0, 0⟩ ∧ strides ⟨0, 0⟩ 0x3FFFC0 128 = [0] ∧
    (dQrn .active []).queueOfLocal ⟨0, 0⟩ 8191 = some 8191 ∧ ((dQrn .active []).queue 8191).state ≠ .off ∧
    (let d := dQrn .active [cmd 2]
     (d.queue 8191).state = .active ∧ d.bit (reg .qrn 0 0x104) 0 = false ∧ d.accepts .qrn 0 ∧
     ((d.queueCmds 8191).find? fun c => d.startable c && d.shareOpen c) = some (cmd 2)) ∧
    (∀ op ∈ [1, 2, 4, 5, 6, 7], (dQrn .active [cmd op]).qcmd 2 = some (cmd op) ∧ (cmd op).phase = 0 ∧ (cmd op).op = op) ∧
    (let c := { cmd 3 with started := true }
     let d := dQrn .active [c]
     d.qcmd 2 = some c ∧ c.op = 3 ∧ c.done = none ∧
     ((d.earlier c).all fun e => e.done.isSome || decide (e.queue ≠ c.queue) || decide (e.end_ ≠ .complete)) = true) ∧
    (∀ e ∈ [QEnd.complete, .orphan, .silent],
      let c := { cmd 2 with started := true, done := some (0, 0, 0), end_ := e }
      (dQrn .active [c]).qcmd 2 = some c ∧ c.end_ = e) := by decide +kernel

theorem test_witness_QueuesChangeState :
    (let d := Dev.words (dQrn .off []) [(reg .qrn 0 0x108, 8191), (queueKey 8191 0, 16 * 65536)]
     permitted (on d) .hif0 (reg .qrn 0 0x140) 4 (putBits (16 * 65536) 0 1 1) (fun t => t.x = 0 && bitOf t.acc.data 0 &&
       (d.queue 8191).state = .off && !d.fnQuiesced (d.queueFunc 8191) &&
       (let e := d.wrN t.key (bitsOf t.acc.data 16 11 * 65536)
        !e.fnQuiesced (e.queueFunc 8191) && e.queueEnableOk 8191))) ∧
    (let d := Dev.words (dQrn .active []) [(reg .qrn 0 0x108, 8191)]
     permitted (on d) .hif0 (reg .qrn 0 0x140) 4 (putBits (16 * 65536) 0 1 0) (fun t => t.x = 0 && !bitOf t.acc.data 0 &&
       (d.queue 8191).state = .active && bitsOf t.acc.data 16 11 = (d.queueQuiesce 8191).fld t.key 16 11)) ∧
    (∀ st ∈ [QState.active, .quiescing],
      let d := Dev.words (dQrn st []) [(reg .qrn 0 0x108, 8191)]
      permitted (on d) .hif0 (reg .qrn 0 (0x140 + 0x18)) 4 (putBits 0 0 1 1) (fun t => t.x = 0x18 && bitOf t.acc.data 0 &&
        (d.queue 8191).state = st)) ∧
    (∀ st ∈ [QState.quiescing, .resetting], (dQrn st []).queueIdle 8191 ∧ ((dQrn st []).queue 8191).state = st) ∧
    (∀ q ∈ [(QState.resetting, QEnd.complete), (.active, .silent)],
      let c := { cmd 2 with started := true, end_ := q.2 }
      let d := dQrn q.1 [c]
      d.qcmd 2 = some c ∧ c.done = none ∧ ((d.queue c.queue).state = .resetting ∨ c.end_ ≠ .complete)) ∧
    (let d := { Dev.words (dQrn .active []) [(fctxKey ⟨0, 0⟩ 0, 2), (fctxKey ⟨0, 0⟩ 4, 3), (fctxKey ⟨0, 0⟩ 16, 5)] with bounds := 5 }
     d.fld (fctxKey ⟨0, 0⟩ 0) 0 2 = 2 ∧ 2 + 1 ≤ d.fld (fctxKey ⟨0, 0⟩ 4) 0 2 ∧ d.fld (fctxKey ⟨0, 0⟩ (8 + 4 * 2)) 0 24 = 5 ∧
     (d.qcmds.all fun c => decide (c.func ≠ ⟨0, 0⟩)) ∧ d.qidle.getD (fkey ⟨0, 0⟩) 0 + 5 ≤ d.bounds) ∧
    (let d := Dev.words (dQrn .active []) [(reg .qrn 0 0x10C, 2048 + 4096)]
     permitted (on d) .hif0 (reg .qrn 0 0x184) 4 3 (fun t => t.x = 4)) := by decide +kernel

/-! ### Host links and virtual functions -/

/-- Link 0 configured up to full width, in a state, with VFs of NumVFs 4. -/
def dLink (l : LinkSt) : Dev :=
  { Dev.words (Dev.run d0 [(.hif, 0), (.vfm, 0), (.rng, 0), (.qrn, 0)])
      [(reg .hif 0 0x100, 1 + 6 * 8 + 2 * 64 + 256), (reg .clk 0 0x100, 0xF0)] with links := ⟨[(0, l)]⟩ }

theorem test_witness_HostLinksComplete :
    (on (dLink {})).live ∧ ((dLink {}).link 0).inReset = false ∧ ((dLink { up := true }).link 0).up ∧
    ((dLink { inReset := true }).link 0).inReset ∧
    (let d := dLink {}
     (d.link 0).up = false ∧ (d.link 0).inReset = false ∧ bitOf (d.rdN (reg .hif 0 0x100)) 0 = true ∧ d.refUp) ∧
    (let d := dLink { ready := true, numVfs := 4, vfEnable := true }
     d.linkAnswers (⟨0, 4⟩ : Func).link ∧ d.fnExists ⟨0, 4⟩ ∧ d.awake ⟨0, 4⟩ ∧ (d.setCap ⟨0, 4⟩ 0x44 0xB).awake ⟨0, 4⟩ = false ∧ d.master ⟨0, 4⟩ = false ∧ (withBme d).master ⟨0, 0⟩ ∧ (d.link 0).vfEnable ∧
     (4 : BitVec 32).toNat % 65536 = (d.link 0).numVfs) ∧
    (let d := dLink { ready := true }
     d.linkAnswers 0 ∧ (d.link 0).vfEnable = false ∧ (2048 : BitVec 32).toNat % 65536 ≤ 2048 ∧ (16 : BitVec 32).toNat ∈ [0, 1, 2, 4, 8, 16]) ∧
    ({ d0 with flr := NMap.put {} (fkey ⟨0, 4⟩) true } : Dev).flr.getD (fkey ⟨0, 4⟩) false = true ∧
    ({ d0 with late := NMap.put {} 3 1 } : Dev).late.find 3 = some 1 ∧
    (dLink {}).bit (reg .hif 0 0x100) 8 = true ∧ d0.bit (reg .hif 1 0x100) 8 = false := by decide +kernel

/-- The ends of the widths a link takes; NumVFs and a page size that are stored and refused; the timeout values; reads that
fail in each way; addresses that hit no BAR and the last byte of the last VF. -/
theorem test_witness_HostLinksComplete_more :
    (∀ q ∈ [(3, 0), (4, 4), (7, 4), (16, 16), (32, 16)],
      let m := min q.1 (laneCap ((dLink {}).rdN (reg .hif 0 0x100)))
      if q.2 = 0 then m < 4 else q.2 ∈ [4, 8, 16] ∧ q.2 ≤ m ∧ m < 2 * q.2) ∧
    (2048 : BitVec 32).toNat % 65536 ≤ 2048 ∧ 2048 < (2049 : BitVec 32).toNat % 65536 ∧ (3 : BitVec 32).toNat ∉ [0, 1, 2, 4, 8, 16] ∧
    (dLink {}).fnExists ⟨0, 0⟩ ∧ timeoutOk (14 % 16) ∧ timeoutOk (15 % 16) = false ∧ timeoutOk (3 % 16) = false ∧
    (let h : HRead := { id := 3, func := ⟨0, 0⟩, addr := 4096, len := 64, use := .none }
     let d := { dLink { up := true } with reads := [h] }
     (∀ c ∈ [BadCpl.poisoned 3, .unsupported 3, .aborted 3], (badCpl c).1 = 3) ∧ someIs (d.takeRead 3) (fun q => q.1 = h)) ∧
    (dLink {}).route 0 0 = none ∧
    (let d := dLink { vfMemOn := true, vfEnable := true, numVfs := 4, vfBar := ⟨[(2, 0x80000000)]⟩ }
     (d.link 0).vfMemOn ∧ (d.link 0).memOn = false ∧ barBase (d.link 0).vfBar 1 = 0x80000000 ∧
     (∀ j < 1, ¬ (barBase (d.link 0).vfBar j ≤ 0x80000000 + 3 * 0x10000 + 0xFFFF ∧
       0x80000000 + 3 * 0x10000 + 0xFFFF < barBase (d.link 0).vfBar j + (d.link 0).numVfs * 0x10000)) ∧
     d.route 0 (0x80000000 + 3 * 0x10000 + 0xFFFF) = some (⟨0, 4⟩, 2, 0xFFFF)) := by decide +kernel

/-- The last word inside the largest aperture and the first outside; an address past HBM; a write of the other link. -/
theorem test_witness_ApertureReachesHbm :
    (let d := dLink {}
     0x3FFFFFF8 < d.aptSize 0 ∧ d.aptDenied 0 0 false = false ∧ d.aptDenied 0 (hbmSize - 7) false = true ∧
     d.aptDenied 0 0 true = false) ∧
    (let d := Dev.words d0 [(reg .hif 1 0x100, 64)]
     0 < d.aptSize 1 ∧ d.aptSize 1 ≤ 0x10000000 ∧ d.aptDenied 1 0 true = true ∧ d0.aptSize 0 = 0) := by decide +kernel

/-- The block of a VFM command for VF 4: its number, its link, and what follows. -/
def vfBlock (rest : List Byte) : List Byte := [4, 0, 0] ++ rest ++ zeros (61 - rest.length)

/-- VF 4 of link 0 in a state, with the mailbox ring of PF0 and its work. -/
def dVf (v : VfSt) (w : List Work) : Dev :=
  let d := dLink { up := true, ready := true, numVfs := 4, vfEnable := true }
  { Dev.words d [(rngKey 5 8, cfg 7 6), (rngKey 5 0x34, 4), (rngKey 4 8, cfg 6 6)] with
    rings := ⟨[(4, { state := .active }), (5, { state := .active, work := w })]⟩, vfs := NMap.put {} 4 v }

theorem test_witness_VirtualFunctionsComplete :
    (∀ op ∈ [0x60, 0x61, 0x62, 0x63, 0x64, 0x65, 0x66],
      (on (dVf {} [mbxWork op 0 0 4096 0])).live ∧ (dVf {} [mbxWork op 0 0 4096 0]).ringKind 5 = 7 ∧
      (mbxWork op 0 0 4096 0).entry.length = 32 ∧
      (dVf {} [mbxWork op 0 0 4096 0]).workHead 5 op = some (mbxWork op 0 0 4096 0)) ∧
    (let w := come (mbxWork 0x60 0 0 4096 0) (vfBlock (zeros 10 ++ [1, 1]))
     let d := dVf {} [w]
     let b := slice w.allData 0 64
     let g := grantClean b
     d.vfmReady 5 0x60 w b ∧ d.mayManage 5 (blockVf g) ∧ (d.vf (blockVf g)).orders = [] ∧ d.grantCheck g = none ∧ d.orderOpen (blockVf g) 5) ∧
    (let w := come (mbxWork 0x60 0 0 4096 0) (vfBlock (zeros 10 ++ [1, 1]))
     let o : VfOrder := { kind := 1, ring := 5, work := 8, body := [] }
     let d := dVf { orders := [o] } [w]
     (d.vf ⟨0, 4⟩).orders ≠ [] ∧ d.orderOpen ⟨0, 4⟩ 5) ∧
    (let w := come (mbxWork 0x60 0 0 4096 0) (vfBlock (List.replicate 20 255))
     let d := dVf {} [w]
     (d.vf (blockVf (grantClean (slice w.allData 0 64)))).orders = [] ∧ (d.grantCheck (grantClean (slice w.allData 0 64))).isSome) ∧
    (∀ q ∈ [(0x61, VState.active), (0x61, .quiescing), (0x61, .quiesced), (0x62, .quiesced)],
      let w := come (mbxWork q.1 0 0 4096 0) (vfBlock [])
      let d := dVf { state := q.2 } [w]
      d.vfmFor 5 q.1 w (slice w.allData 0 64) ⟨0, 4⟩ ∧ (d.vf ⟨0, 4⟩).state = q.2 ∧ d.orderOpen ⟨0, 4⟩ 5) ∧
    (∀ n ∈ [64, 268435456],
      let w := come (mbxWork 0x63 0 0 4096 0) (vfBlock (zeros 13 ++ toLE 4 n))
      let d := dVf { state := .active } [w]
      let b := slice w.allData 0 64
      d.vfmFor 5 0x63 w b ⟨0, 4⟩ ∧ leAt b 8 8 % 4096 = 0 ∧ leAt b 16 4 = n ∧ leAt b 24 8 % 65536 = 0 ∧ (d.vf ⟨0, 4⟩).log = none ∧
      ((d.vf ⟨0, 4⟩).orders.any fun o => decide (o.kind = 3)) = false ∧ d.loggers < 64 ∧ d.orderOpen ⟨0, 4⟩ 5) := by decide +kernel

theorem test_witness_VirtualFunctionsComplete_more :
    (∀ op ∈ [0x64, 0x65],
      let w := come (mbxWork op 0 0 4096 0) (vfBlock [])
      let d := dVf { state := .active, log := some { base := 0, pages := 64, hbm := 0, started := true } } [w]
      d.vfmFor 5 op w (slice w.allData 0 64) ⟨0, 4⟩ ∧ (d.vf ⟨0, 4⟩).log.isSome = true ∧ ((d.vf ⟨0, 4⟩).harvests.any (·.stop)) = false) ∧
    (let d := dVf { state := .active, orders := [{ kind := 3, ring := 5, work := 8, body := [] }] } []
     ((d.vf ⟨0, 4⟩).orders.any fun o => decide (o.kind = 3)) = true) ∧
    (let w := come (mbxWork 0x66 0 0 4096 0) (vfBlock [])
     (dVf {} [w]).vfmReady 5 0x66 w (slice w.allData 0 64) ∧ (blockVf (slice w.allData 0 64)).num = 4 ∧
     (dVf {} [w]).mayManage 5 (blockVf (slice w.allData 0 64))) ∧
    (let d := (dVf { state := .quiescing } []).qrnFlush ⟨0, 4⟩ Dev.cplWrite
     (on d).live ∧ (d.vf ⟨0, 4⟩).state = .quiescing ∧ ((d.ringsOf ⟨0, 4⟩).all fun r => (d.ring r).work.all fun w => w.done.isSome) = true ∧
     (d.qcmds.all fun c => !(decide (c.func = ⟨0, 4⟩) && c.started && c.done.isNone)) = true ∧
     (d.reads.all fun h => decide (h.func ≠ ⟨0, 4⟩)) = true) ∧
    (let h : Harvest := { ring := 5, work := 9, mgr := ⟨0, 0⟩, dest := 0, stop := false, switched := true }
     let d := dVf { state := .active, log := some { base := 0, pages := 64, hbm := 0 }, harvests := [h] } []
     (d.vf ⟨0, 4⟩).log.isSome ∧ (d.vf ⟨0, 4⟩).harvests = [h]) ∧
    (let d := dVf { state := .active, inFull := true } []
     permitted (on d) (.vf ⟨0, 4⟩) 0x2080 4 (putBits 0 0 1 1) (fun t => bitsOf t.acc.data 0 2 = 1 && bitOf t.acc.data 0 &&
       !bitOf t.acc.data 1 && (d.vf ⟨0, 4⟩).outFull = false) ∧
     permitted (on d) (.vf ⟨0, 4⟩) 0x2080 4 (putBits 0 1 1 1) (fun t => !bitOf t.acc.data 0 && bitOf t.acc.data 1 &&
       (d.vf ⟨0, 4⟩).inFull = true)) ∧
    (let d := Dev.words (dVf { state := .active, outFull := true } []) [(reg .vfm 0 0x300, 4)]
     d.fld (reg .vfm 0 0x300) 0 12 = 4 ∧
     permitted (on d) .hif0 (reg .vfm 0 0x304) 4 (putBits 0 0 1 1) (fun t => bitsOf t.acc.data 0 2 = 1 && (d.vf ⟨0, 4⟩).inFull = false) ∧
     permitted (on d) .hif0 (reg .vfm 0 0x304) 4 (putBits 0 1 1 1) (fun t => bitsOf t.acc.data 0 2 = 2 && (d.vf ⟨0, 4⟩).outFull = true)) := by
  decide +kernel

/-! ### The pair, firmware, failures, clocks and power, test access -/

/-- A pair frame of a type with a body. -/
def pairFrame (type : Nat) (body : List Byte) : List Byte :=
  zeros 15 ++ [byteN type] ++ zeros 16 ++ toBE 2 body.length ++ zeros 2 ++ body

/-- PRL runs, with group 7 in a role and the pair's state. -/
def dPair (role : Role) (x : PairSt) : Dev :=
  { Dev.words (Dev.run d0 [(.prl, 0)]) [(reg .prl 0 0x100, 1), (reg .prl 0 0x110, 8)] with
    pair := { x with roles := NMap.put {} 7 role }, bounds := 64 }

theorem test_witness_PairComplete :
    (∀ q ∈ [(1, some true), (1, some false), (2, none), (3, some true), (4, some true)],
      (on (dPair .active { rx := [(true, pairFrame q.1 [7, 1]), (false, pairFrame q.1 [7, 1])] })).live ∧
      someIs ((dPair .active { rx := [(true, pairFrame q.1 [7, 1]), (false, pairFrame q.1 [7, 1])] }).takeFrame q.1 q.2)
        (fun y => byteAt (pairBody y.1) 1 = 1)) ∧
    (let d := dPair .active { s1 := { unacked := [(0, zeros 60)] } }
     (d.pair.stream (63 % 2)).unacked ≠ [] ∧ (d.pair.stream (63 % 2)).ackTurn + d.fld (reg .prl 0 0x110) 0 8 ≤ d.bounds) ∧
    (let d := dPair .active {}
     d.bit (reg .prl 0 0x100) 0 ∧ d.silent d.pair.heard ∧ d.silent d.pair.heardAlt ∧ d.pair.lost = false) ∧
    (let d := dPair .active { heardAlt := some 64 }
     d.silent d.pair.heard ∧ d.silent d.pair.heardAlt = false) ∧
    (∀ q ∈ [(Role.active, 2), (.standby, 3)],
      let d := dPair q.1 { partner := NMap.put {} 7 q.2 }
      permitted (on d) .hif0 (reg .prl 0 0x128) 4 (putBits 7 4 2 1) (fun t => bitsOf t.acc.data 0 3 = 7 && bitsOf t.acc.data 4 2 = 1 &&
        d.role 7 = q.1 && d.pair.partner.getD 7 64 % 8 = q.2)) ∧
    (let o : RoleOrder := { group := 7, at_ := 4, acked := false, own := false, turn := 0 }
     let d := dPair .active { partner := NMap.put {} 7 2, orders := [o] }
     (d.pair.orders.any fun o => !o.own && decide (o.group = 7 ∧ o.turn = d.turn)) ∧ d.deviceId ≤ d.partnerId ∧
     (d.wrN (reg .sys 0 0x128) 1).partnerId < (d.wrN (reg .sys 0 0x128) 1).deviceId) ∧
    (∀ q ∈ [(Role.active, true), (.standby, false)],
      let o : RoleOrder := { group := 7, at_ := 4, acked := true, own := q.2, turn := 0 }
      let d := { dPair q.1 { orders := [o] } with turn := 4 }
      d.pair.orders = [o] ∧ o.acked ∧ o.at_ ≤ d.turn ∧ d.role o.group = q.1) ∧
    (let o : RoleOrder := { group := 7, at_ := 4, acked := true, own := true, turn := 0 }
     (dPair .alone { orders := [o] }).role o.group ≠ .active ∧ (dPair .alone { orders := [o] }).role o.group ≠ .standby) ∧
    (let d := dPair .stale { lost := true }
     permitted (on d) .hif0 (reg .prl 0 0x128) 4 (putBits 7 4 2 2) (fun t => bitsOf t.acc.data 0 3 = 7 && bitsOf t.acc.data 4 2 = 2 &&
       d.pair.lost && d.role 7 = .stale)) ∧
    permitted (on (dPair .active {})) .hif0 (reg .prl 0 (0x140 + 4 * 7)) 4 0 (fun t => (dPair .active {}).role 7 ≠ .off &&
      bitsOf t.acc.data 0 3 = 0) ∧
    (∀ v ∈ [4, 2 + 8],
      permitted (on (dPair .off {})) .hif0 (reg .prl 0 (0x140 + 4 * 7)) 4 v (fun t => (dPair .off {}).role 7 = .off &&
        !(dPair .off {}).groupBad 7 t.acc.data && bitsOf t.acc.data 0 3 ≠ 0)) := by decide +kernel

/-- FW_STAGE of the longest image, and one that has come; the token of a DEBUG_UNLOCK; the other commands. -/
theorem test_witness_FirmwareCompletes :
    (∀ op ∈ [1, 3, 4, 6], (on (dMbx (mbxWork op 0 0 4096 0))).live ∧ (dMbx (mbxWork op 0 0 4096 0)).fromPrimary 5 ∧
      (dMbx (mbxWork op 0 0 4096 0)).mbxReady 5 op (mbxWork op 0 0 4096 0) ∧ (dMbx (mbxWork op 0 0 4096 0)).activation = none) ∧
    (dMbx (mbxWork 2 0 0 4096 0x1000000)).mbxReady 5 2 (mbxWork 2 0 0 4096 0x1000000) ∧
    mbxLen (mbxWork 2 0 0 4096 0x1000000) = 0x1000000 ∧
    (dMbx (come (mbxWork 2 0 0 4096 16) (zeros 16))).mbxReady 5 2 (come (mbxWork 2 0 0 4096 16) (zeros 16)) ∧
    (dMbx (mbxWork 5 0 0 4096 160)).mbxReady 5 5 (mbxWork 5 0 0 4096 160) ∧ mbxLen (mbxWork 5 0 0 4096 160) = 160 ∧
    (let w := come (mbxWork 5 0 0 4096 160) (zeros 160)
     let d := (dMbx w).wrN (reg .ent 0 0x100) 0xF1
     d.mbxReady 5 5 w ∧ w.waiting = [] ∧ w.note = [] ∧ d.entRuns 3) := by
  decide +kernel

theorem entDraw_keyHolds (d : Dev) (i : Nat) : (d.entDraw i).1.keyHolds = d.keyHolds := by
  show (d.entAsk i).keyHolds = d.keyHolds
  unfold Dev.entAsk
  dsimp only
  split <;> rfl

theorem newChallenge_keyHolds (d : Dev) : d.newChallenge.keyHolds = d.keyHolds := by
  simp [Dev.newChallenge, rangeFrom, Dev.wrN, Dev.wr, entDraw_keyHolds]

theorem wrapFresh_keyHolds (d : Dev) : d.wrapFresh.keyHolds = d.keyHolds := by
  simp [Dev.wrapFresh, rangeFrom, entDraw_keyHolds]

theorem noneHeld (d : Dev) (h : d.keyHolds = []) : d.newChallenge.keyEraseAll.1.keyHeld d.newChallenge.keyEraseAll.2 = false := by
  have e : d.newChallenge.keyEraseAll.1.keyHolds = [] := (wrapFresh_keyHolds _).trans ((newChallenge_keyHolds d).trans h)
  simp [Dev.keyHeld, e]

/-- While no operation holds a key the zeroisation of DEBUG_UNLOCK waits for none. -/
theorem test_witness_FirmwareCompletes_unlock :
    let d := dMbx (come (mbxWork 5 0 0 4096 160) (zeros 160))
    d.newChallenge.keyEraseAll.1.keyHeld d.newChallenge.keyEraseAll.2 = false := noneHeld _ (by decide +kernel)

theorem test_witness_FirmwareCompletes_more :
    (∀ n ∈ [0, 3], ∀ run ∈ [true, false],
      let a : Activation := { ring := 5, work := 9, slot := 1, defers := n }
      let d : Dev := { d0 with activation := some a, qcmds := if run then [{ cmd 2 with started := true }] else [] }
      (on d).live ∧ d.activation = some a ∧ a.waiting = false ∧ d.handing = none ∧ d.quernRunning = run) ∧
    (∀ a ∈ [slotBase 0 - 65536, slotBase 0 + 0x1000000],
      let d := Dev.words d0 [(reg .fwc 0 0x100, 1), (reg .fwc 0 0x10100, a)]
      d.flashOp = none ∧
      permitted (on d) .hif0 flashCmd 4 (putBits 0 0 1 1) (fun t => t.acc.data = 1 && decide (t.acc.pt = .hif0)) ∧
      permitted (on d) .hif0 flashCmd 4 (putBits 0 1 1 1) (fun t => t.acc.data = 2 && decide (t.acc.pt = .hif0) && !d.touchesRun a 64) ∧
      permitted (on d) .hif0 flashCmd 4 (putBits 0 2 1 1) (fun t => t.acc.data = 4 && decide (t.acc.pt = .hif0) && !d.touchesRun (a / 65536 * 65536) 65536)) ∧
    (∀ op ∈ [1, 2, 4], ({ d0 with flashOp := some (op, 0, zeros 64) } : Dev).flashOp = some (op, 0, zeros 64)) ∧
    (let d := Dev.words d0 [(reg .fwc 0 0x100, 2)]
     d.fwState = 2 ∧ permitted (on d) .hif0 (reg .fwc 0 0x10C) 4 1 (fun t => bitOf t.acc.data 0)) ∧
    (let d := Dev.words d0 [(reg .clk 0 0x100, 0xF0)]
     d.fwState = 0 ∧ d.refUp) := by decide +kernel

/-- The last unit of each kind. -/
theorem test_witness_FailedUnitsAreContained :
    (let ps : Pass := { admitted := 0 }
     let d := { (Dev.run d0 []).setPipe 7 { marks := [ps] } with turn := 3 }
     (on d).live ∧ d.pipeAlive 7 ∧ (d.pipe 7).fault = none ∧ (d.pipe 7).marks ++ (d.pipe 7).ready = [ps] ∧ ps.exempt = false ∧
     ps.admitted + 3 ≤ d.turn ∧ d.bit (reg .clk 0 0x100) 1 = false) ∧
    (let d := d0.setPipe 7 { fault := some 0 }
     (d.pipe 7).fault = some 0) ∧
    (let c := { cmd 2 with started := true }
     let x : Vol := { rec_ := volRec 0 0 256 0, eng := 3 }
     let d := { dBlk [] 1 x with qcmds := [c], bounds := 16 }
     d.fenced .blke 3 = false ∧ c ∈ d.flying 3 ∧ c.moved + 16 ≤ d.bounds) ∧
    (let d := Dev.run d0 []
     5 < laneCount 2 ∧ 15 < laneCount 0 ∧ (d.lane 2 5).fenced = none ∧ d.fenced .cip 2 = false) ∧
    (let r : InlineRun := { job := { pipe := 7, sa := 1, pkt := {} }, rec_ := [], key := [], gen := 0, q := 0, units := 0 }
     let d := { (Dev.run d0 []).setLane 0 15 { active := some r } with bounds := 2 }
     (d.lane 0 15).active = some r ∧ r.started + 2 ≤ d.bounds ∧ (d.lane 0 15).fenced = none ∧ d.fenced .cip 0 = false) ∧
    (Dev.run d0 []).clusterGone 3 = false ∧
    someIs (locate (reg .mpd 0 0)) (fun l => l.off = 0 && l.page = 0 && decide (l.blk ∉ [Blk.prs, .cls, .act, .blke])) := by decide +kernel

/-- Both ends of the window of R620, and one tick outside each. -/
theorem test_witness_ReferenceIsJudged :
    (∀ n ∈ [0, 63],
      let d : Dev := { Dev.words d0 [(clkStatus, 4)] with windows := n }
      (on d).live ∧ d.refUp = false ∧ d.locking = false ∧ d.bit clkStatus 2 ∧ d.windows = n) ∧
    ({ d0 with locking := true } : Dev).locking ∧ ({ d0 with locking := true } : Dev).bit clkStatus 0 = false ∧
    (d0.refUp = false ∧ d0.bit clkStatus 2 = false ∧ d0.locking = false) ∧
    (Dev.words d0 [(clkStatus, 0xF0)]).refUp ∧ (Dev.words d0 [(clkStatus, 4)]).refUp = false ∧
    (Dev.words d0 [(clkStatus, 5)]).bit clkStatus 0 ∧ (Dev.words d0 [(clkStatus, 5)]).bit clkStatus 2 ∧
    (on { d0 with resetHeld := true }).dev.dead = false := by decide +kernel

theorem test_witness_SupplyAndDomainsComplete :
    (on d0).live ∧ d0.dead = false ∧ ({ d0 with dead := true, tripped := true } : Dev).tripped ∧ (1840 : Int) ≤ 1840 ∧
    (∀ m ∈ [1, 32],
      let d := (Dev.run d0 []).setPipe 1 { inService := true }
      permitted (on d) .hif0 (reg .pwr 0 0x120) 4 (putBits (putBits m 8 1 0) 9 1 1) (fun t => bitsOf t.acc.data 0 6 = m &&
        d.domSwitch = none && !bitOf t.acc.data 8 && bitOf t.acc.data 9 && d.domainOn m && !d.offRefused m) ∧
      permitted (on d0) .hif0 (reg .pwr 0 0x120) 4 (putBits (putBits m 8 1 1) 9 1 0) (fun t => bitsOf t.acc.data 0 6 = m &&
        bitOf t.acc.data 8 && !bitOf t.acc.data 9 && !d0.domainOn m) ∧
      permitted (on d0) .hif0 (reg .pwr 0 0x120) 4 (putBits (putBits m 8 1 0) 9 1 1) (fun t => bitsOf t.acc.data 0 6 = m &&
        !bitOf t.acc.data 8 && bitOf t.acc.data 9 && !d0.domainOn m)) ∧
    (let d := Dev.run d0 []
     permitted (on d) .hif0 (reg .pwr 0 0x120) 4 (putBits (putBits 1 8 1 0) 9 1 1) (fun t => bitsOf t.acc.data 0 6 = 1 &&
       d.domainOn 1 && d.offRefused 1)) ∧
    (let d : Dev := { d0 with domSwitch := some { dom := 32, on := false, withdrawn := true } }
     d.domSwitch = some { dom := 32, on := false, withdrawn := true } ∧ d.domainQuiet 32) ∧
    ({ d0 with domSwitch := some { dom := 32, on := true } } : Dev).domSwitch = some { dom := 32, on := true } ∧
    (d0.pipe 7).inService = false ∧ d0.leatsOpen (d0.pipe 7) = false := by decide +kernel

theorem test_witness_TestAccessCompletes :
    d0.dead = false ∧ d0.scope 1 = false ∧ d0.scope 2 = false ∧
    (let d := Dev.words d0 [(reg .sec 0 0x100, 0x71)]
     (on d).live ∧ d.scope 1 ∧ d.scope 2) ∧
    bitOf (BitVec.ofNat 62 (2 ^ 60)).toNat 60 = true ∧ bitOf (0 : BitVec 62).toNat 60 = false ∧
    ({ d0 with tap := { read := true, data := 0xFFFFFFFF } } : Dev).tap.data < p32 ∧
    ({ d0 with dead := true } : Dev).dead ∧ ({ d0 with resetHeld := true } : Dev).resetHeld ∧ d0.resetHeld = false := by decide +kernel

/-- The boundary-scan register has the 310 cells of R665, and the balls of the power-good and reset domains stand as R652
and R655 say. -/
theorem test_scan_cells_and_levels :
    scanCells.length = 310 ∧ (on { d0 with dead := true }).level .pgOut = .low ∧ (on { d0 with dead := true }).level .xspiCs = .off ∧
    (on { d0 with resetHeld := true }).level .uartTx = .high ∧ (on { d0 with resetHeld := true }).level (.drpRefclk 3) = .low ∧
    (on (Dev.words (Dev.run d0 []) [(reg .clk 0 0x100, 0xF0)])).level (.drpRefclk 3) = .clock := by decide +kernel

/-! ### What every register and page has in common -/

theorem test_witness_WritesNeedOwnership :
    d0.primary = 0 ∧ (Dev.words d0 [(reg .sys 0 0x120, 1)]).primary = 1 ∧
    someIs (d0.place (reg .tbl 0 0x1000)) (fun l => !mayWrite d0 .hif1 l (spaceOf d0 .hif1 l)) := by decide +kernel

theorem test_witness_FirstErrorIsKept :
    reg .tbl 0 0 % 0x10000 = 0 ∧ d0.bit (reg .tbl 0 0 + 0x40) 31 = false ∧
    (d0.logRaw (reg .tbl 0 0) 1 0 0 0 0).bit (reg .tbl 0 0 + 0x40) 31 = true := by decide +kernel

/-- A page whose vector is unmasked and may be sent, one that is masked, one whose condition already holds. -/
theorem test_witness_InterruptsMessageOnce :
    (let p := reg .tbl 0 0
     let d := Dev.words (dLink { up := true }) [(p + 0x24, 1), (p + 0x2C, 0x80000000 + 2047)]
     p % 0x10000 = 0 ∧ d.intCond p = false ∧ (d.setInt p 1).intCond p = true ∧ d.bit (p + 0x2C) 31 ∧ d.fnExists ⟨0, 0⟩ ∧
     2047 < d.msixSize ⟨0, 0⟩ ∧ (d.link 0).up ∧ (d.msix.getD (vecKey ⟨0, 0⟩ 2047) {}).unmasked = false ∧
     (let e := withBme { d with msix := NMap.put {} (vecKey ⟨0, 0⟩ 2047) { unmasked := true }, msixFn := NMap.put {} 0 true }
      (e.msix.getD (vecKey ⟨0, 0⟩ 2047) {}).unmasked ∧ e.msixFn.getD (fkey ⟨0, 0⟩) false ∧ e.master ⟨0, 0⟩ ∧ e.intCond p = false ∧
      (e.setInt p 1).intCond p) ∧
     (d.setInt p 1).intCond p = true) := by decide +kernel

theorem test_witness_HbmReadsBack : Memory.wf d0.hbm ∧ Memory.wf (d0.hbmWrite (hbmSize - 1) [1]).hbm := by decide +kernel

/-! ### Single steps against the chapters -/

/-- CRC-32C of the nine digits (R234's polynomial, check value of the CRC catalogue). -/
theorem test_crc : crc32c 0xFFFFFFFF [0x31, 0x32, 0x33, 0x34, 0x35, 0x36, 0x37, 0x38, 0x39] = 0xE3069283 := by decide +kernel

/-- IDCODE of R663: version 4 bits, part 0x0940, manufacturer 0x56B, a one. -/
theorem test_idcode : d0.idcode % 0x10000000 = 0x0940AD7 := by decide +kernel

/-- A write of a page of another manager is refused: SYS logs NOT_OWNER (R68). -/
theorem test_not_owner :
    nextIs (exec (.registerWrite .hif1 (reg .tbl 0 0x1000) 8 0) (on d0)) (fun t =>
      t.dev.fld (reg .sys 0 0x40) 0 16 = 2 && t.dev.bit (reg .sys 0 0x40) 31) := by decide +kernel

end Sys2Proof.Tests
end

section
/-! PROOF. Every command answers a next state.  `State.run`, `State.act`, `State.onDev` and `State.powered` answer `.next` of
what the command's effect computes, live device or not, and the resets answer `.next` themselves; three commands choose
between these ways by the state. -/

namespace Sys2Proof.Machine

/-- REF_LOST is only noted in a device held in reset, and else runs on time and device (R626, R640). -/
theorem execRefLost_completes (s : State) : ∃ t, execRefLost s = .next t := by
  unfold execRefLost
  split <;> exact ⟨_, rfl⟩

/-- VIN_OUT_OF_RANGE can end the trip of a device that is powered down, and else acts on the device (R628, R633). -/
theorem execVinOutOfRange_completes (mv : Nat) (s : State) : ∃ t, execVinOutOfRange mv s = .next t := by
  unfold execVinOutOfRange
  split <;> exact ⟨_, rfl⟩

/-- REG_ACCESS acts as BYPASS without the scope JTAG, and else runs one access (R608, R665). -/
theorem execRegAccess_completes (dr : BitVec 62) (s : State) : ∃ t, execRegAccess dr s = .next t := by
  unfold execRegAccess
  split <;> exact ⟨_, rfl⟩

/-- Settles O3, by cases on the command: outside the three that choose by the state, the meaning of a command is one of the
four ways to end or a plain `.next`, so the outcome evaluates to `.next` before its effect is looked at. -/
theorem everyCommandCompletes : Obligations.EveryCommandCompletes := by
  intro c s
  cases c with
  | refLost => exact execRefLost_completes s
  | vinOutOfRange mv => exact execVinOutOfRange_completes mv s
  | regAccess dr => exact execRegAccess_completes dr s
  | _ => exact ⟨_, rfl⟩

end Sys2Proof.Machine
end

section
/-! PROOF. What a permitted write leaves: of a plain register, of the registers of a page header, and the unmasking of a
vector (R52 to R65, R671). -/

namespace Sys2Proof.Machine

/-! ### A write that R670 permits -/

/-- A write that R670 permits has the effect of the register it reaches. -/
theorem State.busWrite_of_permits {s : State} {pt : Party} {off width v : Nat} {t : Tgt} (h : s.permits pt off width v t) :
    s.busWrite pt off width v = s.busW t := by
  simp only [State.busWrite, Dev.writeCheck_msix h.2, State.ownWrite, h.2]

/-- REGISTER_WRITE of a register whose write changes the device alone. -/
theorem registerWrite_of_busW {s : State} {pt : Party} {off width : Nat} {v : BitVec 64} {t : Tgt} {d : Dev}
    (h : s.permits pt off width v.toNat t) (hd : s.busW t = { s with dev := d }) :
    exec (.registerWrite pt off width v) s = .next (s.endsWith d) :=
  State.run_dev (f := fun s => s.busWrite pt off width v.toNat) h.1 ((State.busWrite_of_permits h).trans hd)

/-- A command that writes a register of the page header. -/
theorem State.headerWrite_of_permits {s : State} {pt : Party} {page x v : Nat} {t : Tgt} {d : Dev}
    (h : s.permits pt (page + x) 4 v t) (hs : t.space = .header) (hd : s.headerW t = { s with dev := d }) :
    s.headerWrite pt page x v = .next (s.endsWith d) := by
  have hb : s.busW t = s.headerW t := by simp only [State.busW, hs]
  exact State.run_dev h.1 ((State.busWrite_of_permits h).trans (hb.trans hd))

/-- The blocks none of whose registers has an effect of its own. -/
abbrev plainBlks : List Blk := [.clk, .ent, .obs, .dst, .egr, .cip, .qrn, .hbm, .drp]

/-- A register of a block without effects of its own is stored. -/
theorem State.busW_plain {s : State} {t : Tgt} (hs : t.space = .block) (hb : t.loc.blk ∈ plainBlks) :
    s.busW t = { s with dev := s.dev.store t } := by
  simp only [List.mem_cons, List.not_mem_nil, or_false] at hb
  obtain h | h | h | h | h | h | h | h | h := hb <;> simp only [State.busW, blockW, hs, h]

/-! ### PG_CTRL (R52 to R54) -/

/-- A write of PG_CTRL with ENABLE and without RESET stores ENABLE and QUIESCE; without QUIESCE, QUIESCED goes. -/
theorem State.ctrlW_enable {s : State} {t : Tgt} (h0 : bitOf t.acc.data 0 = true) (h2 : bitOf t.acc.data 2 = false) :
    s.ctrlW t = { s with dev := Dev.ctrlActs (if bitOf t.acc.data 1 then s.dev.wrN (ctrlReg t.loc.blk t.loc.inst) 3
      else (s.dev.wrN (ctrlReg t.loc.blk t.loc.inst) 1).setFld (statusReg t.loc.blk t.loc.inst) 2 1 0) t } := by
  cases h1 : bitOf t.acc.data 1 <;> simp [State.ctrlW, h0, h1, h2, b2n]

/-- A RESET of a block other than TIM leaves the time state. -/
theorem State.instReset_of_ne_tim {s : State} {b : Blk} {i : Nat} (hb : b ≠ .tim) : s.instReset b i =
    { s with dev := ((s.dev.instReset b i false).intsClear b i).setFld (statusReg b i) 4 1 0 } := by
  simp only [State.instReset, hb, if_false]

/-- A write of PG_CTRL with ENABLE, QUIESCE and RESET to a quiesced block resets it, then stores ENABLE and QUIESCE. -/
theorem State.ctrlW_reset {s : State} {t : Tgt} (hb : t.loc.blk ≠ .tim)
    (hq : s.dev.bit (statusReg t.loc.blk t.loc.inst) 2 = true) (h0 : bitOf t.acc.data 0 = true)
    (h1 : bitOf t.acc.data 1 = true) (h2 : bitOf t.acc.data 2 = true) :
    s.ctrlW t = { s with dev := (((((s.dev.instReset t.loc.blk t.loc.inst false).intsClear t.loc.blk t.loc.inst).setFld
      (statusReg t.loc.blk t.loc.inst) 4 1 0).wrN (ctrlReg t.loc.blk t.loc.inst) 3).ctrlActs t) } := by
  simp [State.ctrlW, State.instReset_of_ne_tim hb, hq, h0, h1, h2, b2n]

/-! ### The registers of a page header -/

section
variable {s : State} {t : Tgt}

theorem State.headerW_ctrl (hx : t.x = 0x10) : s.headerW t = s.ctrlW t := by simp [State.headerW, hx]

theorem State.headerW_intStatus (hx : t.x = 0x20) : s.headerW t = { s with dev := intW s.dev t } := by
  simp [State.headerW, hx]

theorem State.headerW_intEnable (hx : t.x = 0x24) : s.headerW t =
    { s with dev := intW s.dev { t with acc := { t.acc with data := t.acc.data &&& intBits t.loc.blk t.loc.page } } } := by
  simp [State.headerW, hx]

theorem State.headerW_intForce (hx : t.x = 0x28) : s.headerW t =
    { s with dev := s.dev.setInt t.loc.pageBase (t.acc.data &&& intBits t.loc.blk t.loc.page) } := by
  simp [State.headerW, hx]

theorem State.headerW_intRoute (hx : t.x = 0x2C) : s.headerW t = { s with dev := intW s.dev t } := by
  simp [State.headerW, hx]

theorem State.headerW_errLog (hx : t.x = 0x40) (hv : bitOf t.acc.data 31 = true) :
    s.headerW t = { s with dev := s.dev.errClear t.loc.pageBase } := by
  simp [State.headerW, hx, hv]

end

/-! ### MSI-X (R63) -/

/-- MSIX_UNMASK of a vector of a function that exists clears its mask and sends what is pending. -/
theorem msixUnmask_vector {s : State} {f : Func} {n : Nat} (hl : s.live = true) (hf : s.dev.fnExists f = true)
    (hn : n < s.dev.msixSize f) :
    exec (.msixUnmask f (some n)) s = .next { s with dev := ({ s.dev with
      msix := s.dev.msix.set (vecKey f n) { s.dev.msix.getD (vecKey f n) {} with unmasked := true } {} } : Dev).msixFlush f } := by
  simp only [exec, execMsixUnmask]
  exact State.onDev_of hl (by simp only [hf, hn, Bool.not_true, Bool.false_eq_true, if_false, if_true])

/-- Settles O17, by the register each write reaches: `State.busW_plain` for plain registers, one `State.headerW` equation for
each register of the page header.  That a write which itself makes the condition true sends a message is the model's choice
(`intW`, log entry 206). -/
theorem registerWritesComplete : Obligations.RegisterWritesComplete := by
  refine ⟨?plain, ?enableQuiesce, ?reset, ?force, ?status, ?enables, ?route, ?errLog, ?unmask⟩
  case plain =>
    intro s pt off width v t h hs hb
    exact registerWrite_of_busW h (State.busW_plain hs hb)
  case enableQuiesce =>
    intro s pt page v t h hs hx h2
    have hw : ∀ {d}, s.ctrlW t = { s with dev := d } →
        s.headerWrite pt page 0x10 (putBits v.toNat 2 1 0) = .next (s.endsWith d) :=
      fun hd => State.headerWrite_of_permits h hs ((State.headerW_ctrl hx).trans hd)
    constructor <;> exact fun h0 h1 => hw (by simp [State.ctrlW_enable h0 h2, h1])
  case reset =>
    intro s pt page v t h hs hx h2 hb hq h0 h1
    exact State.headerWrite_of_permits h hs ((State.headerW_ctrl hx).trans (State.ctrlW_reset hb hq h0 h1 h2))
  case force =>
    intro s pt page v t h hs hx
    exact State.headerWrite_of_permits h hs (State.headerW_intForce hx)
  case status =>
    intro s pt page v t h hs hx
    exact State.headerWrite_of_permits h hs (State.headerW_intStatus hx)
  case enables =>
    intro s pt page v t h hs hx
    exact State.headerWrite_of_permits h hs (State.headerW_intEnable hx)
  case route =>
    intro s pt page v t h hs hx
    exact State.headerWrite_of_permits h hs (State.headerW_intRoute hx)
  case errLog =>
    intro s pt page v t h hs hx hv
    exact State.headerWrite_of_permits h hs (State.headerW_errLog hx hv)
  case unmask =>
    intro s f n hl hf hn
    exact msixUnmask_vector hl hf hn

end Sys2Proof.Machine
end

section
/-! PROOF. The queue of waiting commands: a step takes its front, and no command touches the rest (R41). -/

namespace Sys2Proof.Machine

/-- The queue of the state a command answers is that of `s`. -/
def KeepsQueue (s : State) (o : Host.Outcome State Fault Refusal) : Prop := ∀ t, o = .next t → t.pending = s.pending

theorem KeepsQueue.next {s u : State} (h : u.pending = s.pending) : KeepsQueue s (.next u) := by
  intro t ht
  cases ht
  exact h

/-- A command that answers one of two states, as a live device and a dead one do, keeps the queue where both have it. -/
theorem KeepsQueue.ite {s u v : State} {p : Prop} [Decidable p] (hu : u.pending = s.pending) (hv : v.pending = s.pending) :
    KeepsQueue s (.next (if p then u else v)) := by
  apply KeepsQueue.next
  split
  · exact hu
  · exact hv

/-- REF_LOST changes the device alone where it is held in reset, and else ends as a run does (R626, R640). -/
theorem execRefLost_keepsQueue (s : State) : KeepsQueue s (execRefLost s) := by
  unfold execRefLost
  split
  · exact .next rfl
  · exact .ite rfl rfl

/-- VIN_OUT_OF_RANGE ends the trip of a device that is powered down, and else acts on the device (R628, R633). -/
theorem execVinOutOfRange_keepsQueue (mv : Nat) (s : State) : KeepsQueue s (execVinOutOfRange mv s) := by
  unfold execVinOutOfRange
  split
  · exact .ite rfl rfl
  · exact .ite rfl rfl

/-- REG_ACCESS acts on the device without the scope JTAG, and else ends as a run does (R608, R665). -/
theorem execRegAccess_keepsQueue (dr : BitVec 62) (s : State) : KeepsQueue s (execRegAccess dr s) := by
  unfold execRegAccess
  split
  · exact .ite rfl rfl
  · exact .ite rfl rfl

/-- Settles O4, by cases on the command: outside the four that do not, a command answers one state where its condition holds
(a live device, a powered one, an event that can happen) and another where it does not, and both are built on the queue of the
state it ran on. -/
theorem commandsKeepTheQueue : Obligations.CommandsKeepTheQueue := by
  intro c s
  change KeepsQueue s (exec c s)
  cases c with
  | refLost => exact execRefLost_keepsQueue s
  | vinOutOfRange mv => exact execVinOutOfRange_keepsQueue mv s
  | regAccess dr => exact execRegAccess_keepsQueue dr s
  | sysRstNRelease => exact .next rfl
  | _ => exact .ite rfl rfl

/-- Settles O1: a step is defined by the front of its queue. -/
theorem stepRunsFront : Obligations.StepRunsFront := fun _ _ _ => rfl

end Sys2Proof.Machine
end

section
/-! PROOF. The steps of a pass: what the distributor, the sluice, the scan and the late stages do with the frame or the pass
whose turn it is (R219 to R221, R230, R236, R283, R288, R362, R363). -/

namespace Sys2Proof.Machine

/-! ### The distributor and the wait before a pass (R236, R363) -/

/-- DISTRIBUTE takes the oldest frame in front of a distributor that accepts work. -/
theorem exec_distribute {s : State} {p : Pkt} {rest : List Pkt} (hl : s.live = true) (hd : s.dev.dst = p :: rest)
    (ha : s.dev.accepts .dst 0 = true) :
    exec .distribute s = .next (s.endsWith (({ s.dev with dst := rest } : Dev).distribute p)) := by
  simp only [exec, execDistribute]
  exact State.act_of hl (by simp only [hd, ha, if_true])

/-- A first pass of a pipeline that has waited too long leaves its queue and is dropped with SLUICE_WAIT. -/
theorem waitExpire_drops {d : Dev} {id i : Nat} {p : Pkt} {rest : List Pkt}
    (h : takeFirst (fun p => decide (p.id = id) && d.waitedOut p) (d.pipe i).firsts = some (p, rest)) :
    waitExpire id d i = (d.setPipe i { d.pipe i with firsts := rest }).dropPkt p 1 := by
  simp only [waitExpire, h]

/-- While the distributor accepts work, SLUICE_WAIT_EXPIRE looks at the sluice queues alone. -/
theorem exec_sluiceWaitExpire_accepts {s : State} (id : Nat) (hl : s.live = true) (ha : s.dev.accepts .dst 0 = true) :
    exec (.sluiceWaitExpire id) s = .next (s.endsWith ((rangeFrom 0 8).foldl (waitExpire id) s.dev)) := by
  simp only [exec, execSluiceWaitExpire]
  exact State.act_of hl (by simp only [ha, if_true])

/-- Before a distributor that takes no work, SLUICE_WAIT_EXPIRE drops the frame there as well. -/
theorem exec_sluiceWaitExpire_dst {s : State} {id : Nat} {p : Pkt} {rest : List Pkt} (hl : s.live = true)
    (ha : s.dev.accepts .dst 0 = false)
    (h : takeFirst (fun p => decide (p.id = id) && s.dev.waitedOut p) s.dev.dst = some (p, rest)) :
    exec (.sluiceWaitExpire id) s =
      .next (s.endsWith ((rangeFrom 0 8).foldl (waitExpire id) (({ s.dev with dst := rest } : Dev).dropPkt p 1))) := by
  simp only [exec, execSluiceWaitExpire]
  exact State.act_of hl (by simp only [ha, Bool.false_eq_true, if_false, h])

/-! ### The sluice (R124, R230, R231, R357, R362) -/

/-- A pipeline in service, with a slot left and no leat pass waiting, turns to the first pass the round chooses, stamped with
the low 16 bits of the turn. -/
theorem Dev.sluice_first {d : Dev} {p : Nat} {pkt : Pkt} {q : Pipe} (halive : d.pipeAlive p = true)
    (hdefer : (d.pipe p).deferred = false) (hslot : (d.pipe p).admitted < d.admitMax) (hleats : (d.pipe p).leats = [])
    (hserve : (d.pipe p).inService = true) (hfirst : d.chooseFirst (d.pipe p) = some (pkt, q)) (hcls : pkt.cls = none) :
    d.sluice p = d.sluiceIn p q { pkt with stamp := d.turn % 65536, pass := 1 } d.turn d.active false := by
  have hadmit : (!d.pipeAlive p || (d.pipe p).deferred || decide (d.admitMax ≤ (d.pipe p).admitted)) = false := by
    simp [halive, hdefer, hslot]
  have hleat : (if d.leatsOpen (d.pipe p) then takeFirst (fun l => !(d.pipe p).refused.contains l.src) (d.pipe p).leats else none)
      = none := by
    simp [hleats, takeFirst]
  simp only [Dev.sluice, hadmit, hleat, hserve, hfirst, hcls, Bool.false_eq_true, if_false, if_true]

/-- A pass whose lookups fit the turn and whose spare cell is there takes its slot and lookups and is parsed. -/
theorem Dev.sluiceIn_admits {d e : Dev} {p : Nat} {q : Pipe} {pkt : Pkt} {f : Int} {rs : RuleSet} {ret : Bool}
    (hcost : (d.pipe p).lookups + lookupCost rs ≤ d.budget) (hcell : d.cellAlloc pkt.src 1 = some e) :
    d.sluiceIn p q pkt f rs ret =
      (e.setPipe p { q with admitted := q.admitted + 1, lookups := q.lookups + lookupCost rs }).parseAndMatch p
        (d.newPass p pkt f rs ret) := by
  simp only [Dev.sluiceIn, if_neg (Nat.not_lt.2 hcost), hcell]

/-! ### The scan (R283, R288) -/

/-- The oldest pass at its mark gets its verdict and waits for the late stages. -/
theorem Dev.scanNext_oldest {d : Dev} {p : Nat} {ps : Pass} {rest : List Pass} (cut : Option Nat)
    (h : (d.pipe p).marks = ps :: rest) :
    d.scanNext p cut = (((d.inspectPass p ps cut).1.setPipe p { (d.inspectPass p ps cut).1.pipe p with
      marks := rest, ready := (d.pipe p).ready ++ [(d.inspectPass p ps cut).2] }).marksFlow p) := by
  simp only [Dev.scanNext, h]

/-- SCAN_CUT scans the oldest pass up to a place where its scan may be cut. -/
theorem exec_scanCut {s : State} {p n : Nat} {ps : Pass} {rest : List Pass} (hl : s.live = true)
    (h : (s.dev.pipe p).marks = ps :: rest) (hcut : mayCut ps n = true) :
    exec (.scanCut p n) s = .next (s.endsWith (s.dev.scanNext p (some n))) := by
  simp only [exec, execScanCut]
  exact State.act_of hl (by simp only [h, hcut, if_true])

/-! ### The late stages (R219 to R221, R252) -/

/-- The oldest pass with its verdict that no stage ends, and for which an action entry was found, reaches the action unit. -/
theorem Dev.lateStages_actUnit {d e : Dev} {p : Nat} {ps qs : Pass} {rest : List Pass} (h : (d.pipe p).ready = ps :: rest)
    (hearly : ps.early = none) (hm : matchStages (d.setPipe p { d.pipe p with ready := rest }) p 7 ps 6 = (e, qs, none))
    (hlist : qs.list ≠ []) : d.lateStages p = e.actUnit p qs := by
  simp only [Dev.lateStages, h, hearly, hm, if_neg hlist]

/-- Settles O29, by the step each clause is about: each command ends as `State.act_of` says, on the device the lemma about its
step gives. -/
theorem passesComplete : Obligations.PassesComplete := by
  refine ⟨?distribute, ?expire, ?expireDst, ?dropped, ?sluice, ?scan, ?late⟩
  case distribute => exact fun s p rest => exec_distribute
  case expire => exact fun s id => exec_sluiceWaitExpire_accepts id
  case expireDst => exact fun s id p rest => exec_sluiceWaitExpire_dst
  case dropped => exact fun d id i p rest => waitExpire_drops
  case sluice =>
    intro s p pkt q e hl halive hdefer hslot hleats hserve hfirst hcls hcost hcell
    simp only [exec, execSluiceAdmit]
    exact State.act_of hl ((Dev.sluice_first halive hdefer hslot hleats hserve hfirst hcls).trans
      (Dev.sluiceIn_admits hcost hcell))
  case scan =>
    intro s p cut ps rest hl h
    constructor
    · rintro rfl
      simp only [exec, execPatternScan]
      exact State.act_of hl (Dev.scanNext_oldest none h)
    · rintro n rfl hcut
      exact (exec_scanCut hl h hcut).trans (by rw [Dev.scanNext_oldest (some n) h])
  case late =>
    intro s p ps rest hl d h hearly q hnone hlist
    simp only [exec, execStage7Start]
    exact State.act_of hl (Dev.lateStages_actUnit h hearly (Prod.ext rfl (Prod.ext rfl hnone)) hlist)

end Sys2Proof.Machine
end

section
/-! PROOF. What happens to a volume without a command: it goes OFFLINE once quiesced, ONLINE once migrated, and home once its
home engine is back (R39, R470). -/

namespace Sys2Proof.Machine

/-- A QUIESCING volume without an outstanding command goes OFFLINE. -/
theorem exec_volumeQuiesced {s : State} {vol : Nat} {x : Vol} (hl : s.live = true) (hv : s.dev.vol? vol = some x)
    (hq : x.quiescing = true) (hc : (s.dev.qcmds.all fun c => decide (c.vol ≠ vol ∨ c.op = 3)) = true) :
    exec (.volumeQuiesced vol) s =
      .next (s.endsWith ((s.dev.setVol vol { x with quiescing := false }).blkEvent 0x72 0 0xFF vol 3 2 0 0 0 0 0xFF)) := by
  simp only [exec, execVolumeQuiesced]
  exact State.act_of hl (by simp only [hv, if_pos (And.intro hq hc)])

/-- A MIGRATING volume with no grain left in an old segment is ONLINE again, while cores and stores can be reached. -/
theorem exec_migrationDone {s : State} {vol : Nat} {x : Vol} (hl : s.live = true) (hv : s.dev.vol? vol = some x)
    (hst : s.dev.volState x = 4) (hold : s.dev.oldLive vol x = false) (hcores : s.dev.coresDead = false)
    (haway : s.dev.storesAway = false) : exec (.migrationDone vol) s = .next (s.endsWith (s.dev.volMigrated vol x)) := by
  have hgo : ¬ (s.dev.volState x ≠ 4 ∨ s.dev.oldLive vol x = true ∨ s.dev.coresDead = true ∨ s.dev.storesAway = true) := by
    simp [hst, hold, hcores, haway]
  simp only [exec, execMigrationDone]
  exact State.act_of hl (by simp only [hv, if_neg hgo])

/-- A narrow volume away from home is marked to return once its home engine takes work. -/
theorem exec_homeEngineReturn {s : State} {vol : Nat} {x : Vol} (hl : s.live = true) (hv : s.dev.vol? vol = some x)
    (hnarrow : vrWide x.rec_ = false) (haway : x.eng ≠ vrEngine x.rec_) (hback : s.dev.accepts .blke (vrEngine x.rec_) = true) :
    exec (.homeEngineReturn vol) s = .next (s.endsWith (s.dev.setVol vol { x with homing := true })) := by
  have hgo : ¬ vrWide x.rec_ = true ∧ x.eng ≠ vrEngine x.rec_ ∧ s.dev.accepts .blke (vrEngine x.rec_) = true :=
    ⟨by simp [hnarrow], haway, hback⟩
  simp only [exec, execHomeEngineReturn]
  exact State.act_of hl (by simp only [hv, if_pos hgo])

/-- At a boundary at which no command of it is in flight, a volume marked to return is back on its home engine. -/
theorem Dev.homeReturn_home {d : Dev} {v : Nat} {x : Vol} (hh : x.homing = true)
    (hback : d.accepts .blke (vrEngine x.rec_) = true)
    (hidle : (d.qcmds.all fun c => decide (c.vol ≠ v) || !c.started || c.done.isSome) = true) :
    d.homeReturn v x = d.setVol v { x with eng := vrEngine x.rec_, homing := false } :=
  if_pos ⟨hh, hback, hidle⟩

/-- Settles O45, by the event each clause is about.  That a command announces the return to the home engine is the model's
choice (log entry 200). -/
theorem volumeEventsComplete : Obligations.VolumeEventsComplete :=
  fun _ _ _ hl hv => ⟨exec_volumeQuiesced hl hv, exec_migrationDone hl hv, exec_homeEngineReturn hl hv, Dev.homeReturn_home⟩

end Sys2Proof.Machine
end

section
/-! PROOF. The pair: frames received, frames sent again, the loss of the partner, orders and groups (R45, R577 to R591). -/

namespace Sys2Proof.Machine

/-! ### Frames of the pair link (R577 to R581, R590) -/

section
variable {s : State} {alt : Bool} {f : List Byte} {d : Dev}

/-- A heartbeat received is taken. -/
theorem exec_heartbeat (hl : s.live = true) (h : s.dev.takeFrame 1 (some alt) = some (f, d)) :
    exec (.heartbeat alt) s = .next (s.endsWith (d.heartbeatTake f)) := by
  simp only [exec, execHeartbeat]
  exact State.act_of hl (by simp only [h])

/-- The oldest mirror frame received is applied, and block work that waited for it goes on. -/
theorem exec_mirrorFrame (hl : s.live = true) (h : s.dev.takeFrame 2 none = some (f, d)) :
    exec .mirrorFrame s = .next (s.endsWith (d.mirrorFrame f).blkPump) := by
  simp only [exec, execMirrorFrame]
  exact State.act_of hl (by simp only [h])

/-- An ACK frame acknowledges an order or frames of the two streams. -/
theorem exec_ack (hl : s.live = true) (h : s.dev.takeFrame 3 (some alt) = some (f, d)) :
    exec (.ack alt) s = .next (s.endsWith ((d.orderAck (pairBody f)).ackBoth (pairBody f))) := by
  simp only [exec, execAck]
  exact State.act_of hl (by simp only [h])

/-- A ROLE frame that orders a SWITCH is taken as an order. -/
theorem exec_role (hl : s.live = true) (h : s.dev.takeFrame 4 (some alt) = some (f, d)) (ho : byteAt (pairBody f) 1 = 1) :
    exec (.role alt) s = .next (s.endsWith (d.orderTake f)) := by
  simp only [exec, execRole]
  exact State.act_of hl (by simp only [h, if_neg (not_not_intro ho)])

end

/-- The unacknowledged frames of a stream are sent again once the wait has passed. -/
theorem exec_retransmit {s : State} {stream : Nat} (hl : s.live = true) (hu : (s.dev.pair.stream (stream % 2)).unacked ≠ [])
    (hw : (s.dev.pair.stream (stream % 2)).ackTurn + s.dev.fld (reg .prl 0 0x110) 0 8 ≤ s.dev.bounds) :
    exec (.retransmit stream) s = .next (s.endsWith (s.dev.pairResend (stream % 2))) := by
  simp only [exec, execRetransmit]
  exact State.act_of hl (if_pos ⟨hu, hw⟩)

/-! ### Loss of the partner (R582, R583) -/

section
variable {s : State} (hl : s.live = true) (hon : s.dev.bit (reg .prl 0 0x100) 0 = true)
  (hsilent : s.dev.silent s.dev.pair.heard = true)
include hl hon hsilent

/-- The partner is lost when neither path has carried a frame for the loss time. -/
theorem exec_partnerLost (halt : s.dev.silent s.dev.pair.heardAlt = true) (hlost : s.dev.pair.lost = false) :
    exec .partnerLost s = .next (s.endsWith s.dev.partnerLost) := by
  simp only [exec, execPartnerLost]
  exact State.act_of hl (if_pos (by simp [hon, hsilent, halt, hlost]))

/-- The pair link alone is cut when the alternate path still carries frames. -/
theorem exec_pairLinkFramesLost (halt : s.dev.silent s.dev.pair.heardAlt = false) :
    exec .pairLinkFramesLost s = .next (s.endsWith s.dev.pairCut) := by
  simp only [exec, execPairLinkFramesLost]
  exact State.act_of hl (if_pos (by simp [hon, hsilent, halt]))

end

/-! ### A write that R670 permits -/

/-- A write of the device that R670 permits has its own effect. -/
theorem State.ownWrite_of_permits {s : State} {pt : Party} {off width v : Nat} {t : Tgt} {f : Dev → Tgt → Dev}
    (h : s.permits pt off width v t) : s.dev.ownWrite pt off width v f = f s.dev t := by
  simp only [Dev.ownWrite, h.2]

theorem exec_switchRole {s : State} {pt : Party} {v : BitVec 32} {t : Tgt}
    (h : s.permits pt (reg .prl 0 0x128) 4 (putBits v.toNat 4 2 1) t) :
    exec (.switchRole pt v) s = .next (s.endsWith (roleCmdW s.dev t)) := by
  simp only [exec, execSwitchRole]
  exact State.act_of h.1 (State.ownWrite_of_permits h)

theorem exec_forceRole {s : State} {pt : Party} {v : BitVec 32} {t : Tgt}
    (h : s.permits pt (reg .prl 0 0x128) 4 (putBits v.toNat 4 2 2) t) :
    exec (.forceRole pt v) s = .next (s.endsWith (roleCmdW s.dev t)) := by
  simp only [exec, execForceRole]
  exact State.act_of h.1 (State.ownWrite_of_permits h)

theorem exec_groupKindWrite {s : State} {pt : Party} {g : Nat} {v : BitVec 32} {t : Tgt}
    (h : s.permits pt (reg .prl 0 (0x140 + 4 * g)) 4 v.toNat t) :
    exec (.groupKindWrite pt g v) s = .next (s.endsWith (groupCfgW s.dev t g)) := by
  simp only [exec, execGroupKindWrite]
  exact State.act_of h.1 (State.ownWrite_of_permits h)

/-! ### Orders (R45, R590) -/

/-- The partner has ordered a SWITCH of group `g` for the turn that runs. -/
def Dev.rivalOrder (d : Dev) (g : Nat) : Prop :=
  (d.pair.orders.any fun o => !o.own && decide (o.group = g ∧ o.turn = d.turn)) = true

/-- The roles of the two devices in group `g` are those that a SWITCH exchanges. -/
def Dev.rolesFit (d : Dev) (g : Nat) : Prop :=
  d.role g = .active ∧ d.pair.partner.getD g 64 % 8 = 2 ∨ d.role g = .standby ∧ d.pair.partner.getD g 64 % 8 = 3

/-- The orders with those of the partner for group `g` and this turn replaced by an order of the device's own. -/
def Dev.ordersWithOwn (d : Dev) (g : Nat) : List RoleOrder :=
  (d.pair.orders.filter fun o => !(!o.own && decide (o.group = g ∧ o.turn = d.turn))) ++
    [{ group := g, at_ := d.rd64 (reg .prl 0 0x130), acked := false, own := true, turn := d.turn }]

section
variable {d : Dev} {t : Tgt} {g : Nat} (hg : g = bitsOf t.acc.data 0 3)
include hg

/-- SWITCH sends its order where both roles fit and no order of a partner with the lower DEVICE_ID stands. -/
theorem roleCmdW_switch_sends (ho : bitsOf t.acc.data 4 2 = 1) (hrival : d.rivalOrder g → d.deviceId ≤ d.partnerId)
    (hfit : d.rolesFit g) : roleCmdW d t =
      ((({ d with pair := { d.pair with orders := d.ordersWithOwn g } } : Dev).pairSend 4 0 0 0
        ([byteN g, 1] ++ toBE 8 (d.rd64 (reg .prl 0 0x130)))).wrN (reg .prl 0 0x138) 0x100) := by
  have hstands : ¬ ((d.pair.orders.any fun o => !o.own && decide (o.group = g ∧ o.turn = d.turn)) &&
      decide (d.partnerId < d.deviceId)) = true := by
    simp only [Bool.and_eq_true, decide_eq_true_eq, not_and, Nat.not_lt]
    exact hrival
  subst hg
  simp only [roleCmdW, ho, if_neg hstands]
  exact if_pos hfit

/-- SWITCH is refused where an order of a partner with the lower DEVICE_ID stands or the roles do not fit. -/
theorem roleCmdW_switch_refused (ho : bitsOf t.acc.data 4 2 = 1)
    (h : d.rivalOrder g ∧ d.partnerId < d.deviceId ∨ ¬ d.rolesFit g) : roleCmdW d t = d.wrN (reg .prl 0 0x138) 0x05 := by
  subst hg
  simp only [roleCmdW, ho]
  split
  · rfl
  · rename_i hstands
    have hfit : ¬ d.rolesFit (bitsOf t.acc.data 0 3) := by
      refine h.resolve_left fun hr => hstands ?_
      simp only [Bool.and_eq_true, decide_eq_true_eq]
      exact hr
    exact if_neg hfit

/-- FORCE takes over a STALE group of a lost partner. -/
theorem roleCmdW_force (ho : bitsOf t.acc.data 4 2 = 2) (hlost : d.pair.lost = true) (hr : d.role g = .stale) :
    roleCmdW d t = (d.takeover [g]).wrN (reg .prl 0 0x138) 0 := by
  subst hg
  simp only [roleCmdW, ho]
  exact if_pos ⟨hlost, hr⟩

end

/-! ### A SWITCH at its boundary (R582, R590) -/

/-- A device told the result of an order in PRL_ROLE_RESULT where the order is its own. -/
def RoleOrder.told (o : RoleOrder) (d : Dev) (st : Nat) : Dev := if o.own then d.wrN (reg .prl 0 0x138) st else d

/-- The orders of the device replaced. -/
def Dev.withOrders (d : Dev) (os : List RoleOrder) : Dev := { d with pair := { d.pair with orders := os } }

section
variable {d : Dev} {o : RoleOrder} (h : d.pair.orders = [o]) (hack : o.acked = true) (hat : o.at_ ≤ d.turn)
include h hack hat

/-- Where a single order stands and is due, it leaves the list and is the only one acted on. -/
theorem Dev.due_single : (d.pair.orders.filter fun o => o.acked && decide (o.at_ ≤ d.turn)) = [o] ∧
    (d.pair.orders.filter fun o => !(o.acked && decide (o.at_ ≤ d.turn))) = [] := by
  simp [h, hack, hat]

/-- An ACTIVE group becomes STANDBY. -/
theorem Dev.switchDue_active (hr : d.role o.group = .active) :
    d.switchDue = (o.told (d.withOrders []) 0).setRole o.group .standby (decide (o.at_ < d.turn)) := by
  obtain ⟨hdue, hrest⟩ := Dev.due_single h hack hat
  have hr' : ({ d with pair := { d.pair with orders := [] } } : Dev).role o.group = .active := hr
  simp only [Dev.switchDue, hdue, hrest, List.foldl, hr', RoleOrder.told, Dev.withOrders]

/-- A STANDBY group becomes ACTIVE, and the device takes up what it covers. -/
theorem Dev.switchDue_standby (hr : d.role o.group = .standby) :
    d.switchDue = ((o.told (d.withOrders []) 0).setRole o.group .active (decide (o.at_ < d.turn))).takeGroup o.group := by
  obtain ⟨hdue, hrest⟩ := Dev.due_single h hack hat
  have hr' : ({ d with pair := { d.pair with orders := [] } } : Dev).role o.group = .standby := hr
  simp only [Dev.switchDue, hdue, hrest, List.foldl, hr', RoleOrder.told, Dev.withOrders]

/-- A group that is neither any more refuses the order. -/
theorem Dev.switchDue_refused (ha : d.role o.group ≠ .active) (hs : d.role o.group ≠ .standby) :
    d.switchDue = o.told (d.withOrders []) 0x05 := by
  obtain ⟨hdue, hrest⟩ := Dev.due_single h hack hat
  simp only [Dev.switchDue, hdue, hrest, List.foldl]
  split
  · exact absurd ‹_› ha
  · exact absurd ‹_› hs
  · rfl

end

/-! ### Groups (R580, R582) -/

/-- A write of KIND 0 turns a group that serves OFF. -/
theorem groupCfgW_off {d : Dev} {t : Tgt} {g : Nat} (hr : d.role g ≠ .off) (hk : bitsOf t.acc.data 0 3 = 0) :
    groupCfgW d t g = (((d.setRole g .off).store t).volsServed).blkPump := by
  simp only [groupCfgW, if_pos hr, hk, if_true]

/-- A write of a KIND within the limits of R580 opens a group that is OFF, ALONE or STALE. -/
theorem groupCfgW_opens {d : Dev} {t : Tgt} {g : Nat} (hr : d.role g = .off) (hb : d.groupBad g t.acc.data = false)
    (hk : bitsOf t.acc.data 0 3 ≠ 0) :
    groupCfgW d t g = (d.store t).setRole g (if bitOf t.acc.data 3 then .alone else .stale) := by
  simp only [groupCfgW, if_neg (not_not_intro hr), hb, Bool.false_eq_true, if_false, if_neg hk]

/-- Settles O51, by what each clause is about: the frames received, the frames sent again, the loss of the partner, the orders of
PRL_ROLE_CMD, a SWITCH at its boundary, and the writes of PRL_GROUP_CFG.  Which ACK frame acknowledges an order, and that an
order's SWITCH takes up what a takeover does, are the model's readings (log entries 230, 205). -/
theorem pairComplete : Obligations.PairComplete := by
  refine ⟨?frames, ?resend, ?loss, ?orders, ?switch, ?groups⟩
  case frames =>
    exact fun s alt f d hl => ⟨exec_heartbeat hl, exec_mirrorFrame hl, exec_ack hl, exec_role hl⟩
  case resend => exact fun s stream => exec_retransmit
  case loss =>
    exact fun s hl hon hsilent => ⟨exec_partnerLost hl hon hsilent, exec_pairLinkFramesLost hl hon hsilent⟩
  case orders =>
    intro s pt v t g hg
    constructor
    · intro rival fits h ho hrival hfits
      obtain rfl : rival = s.dev.rivalOrder g := propext hrival
      obtain rfl : fits = s.dev.rolesFit g := propext hfits
      constructor
      · intro hlow hfit os hos
        obtain rfl : os = s.dev.ordersWithOwn g := hos
        rw [exec_switchRole h, roleCmdW_switch_sends hg ho hlow hfit]
      · intro hno
        rw [exec_switchRole h, roleCmdW_switch_refused hg ho hno]
    · intro h ho hlost hr
      rw [exec_forceRole h, roleCmdW_force hg ho hlost hr]
  case switch =>
    rintro d e o told h hack hat rfl rfl
    exact ⟨Dev.switchDue_active h hack hat, Dev.switchDue_standby h hack hat, Dev.switchDue_refused h hack hat⟩
  case groups =>
    intro s pt g v t h
    constructor
    · intro hr hk
      rw [exec_groupKindWrite h, groupCfgW_off hr hk]
    · intro hr hb hk
      rw [exec_groupKindWrite h, groupCfgW_opens hr hb hk]

end Sys2Proof.Machine
end

section
/-! PROOF. Interrupts and the first-error log of a page (R60 to R65): what setting PG_INT_STATUS bits writes and sends, and what an
error leaves in the words of the log. -/

namespace Sys2Proof.Machine

/-! ### Register words and their fields -/

theorem reg_sys (x : Nat) : reg .sys 0 x = x := by simp [reg, blkBase, pageMap]

@[simp] theorem Dev.rd_wrN_self (d : Dev) (k v : Nat) : (d.wrN k v).rd k = w32 v := d.rd_wr_self k _

theorem Dev.rd_wrN_ne (d : Dev) {j k : Nat} (v : Nat) (h : j ≠ k) : (d.wrN k v).rd j = d.rd j := d.rd_wr_ne _ h

theorem Dev.rdN_of_rd {d : Dev} {k v : Nat} (h : d.rd k = w32 v) : d.rdN k = v % 4294967296 := by
  rw [Dev.rdN, h, w32, BitVec.toNat_ofNat]

/-- Words written one after the other from `k` on. -/
def Dev.putWords (d : Dev) (k : Nat) : List Nat → Dev
  | [] => d
  | v :: vs => (d.wrN k v).putWords (k + 4) vs

/-- A word outside those written reads as before. -/
theorem Dev.rd_putWords_ne (d : Dev) (k : Nat) (vs : List Nat) {j : Nat} (h : j < k ∨ k + 4 * vs.length ≤ j) :
    (d.putWords k vs).rd j = d.rd j := by
  induction vs generalizing d k with
  | nil => rfl
  | cons v vs ih =>
    simp only [List.length_cons] at h
    rw [Dev.putWords, ih _ _ (by omega), Dev.rd_wrN_ne _ _ (by omega)]

/-- Each word written reads as its value. -/
theorem Dev.rd_putWords (d : Dev) (k : Nat) (vs : List Nat) {i : Nat} (h : i < vs.length) :
    (d.putWords k vs).rd (k + 4 * i) = w32 vs[i] := by
  induction vs generalizing d k i with
  | nil => cases h
  | cons v vs ih =>
    cases i with
    | zero =>
      rw [Dev.putWords, Dev.rd_putWords_ne _ _ _ (by omega)]
      exact Dev.rd_wrN_self d k v
    | succ i =>
      have := ih (d.wrN k v) (k + 4) (i := i) (Nat.lt_of_succ_lt_succ h)
      rwa [show k + 4 + 4 * i = k + 4 * (i + 1) by omega] at this

/-! ### A message (R61 to R63) -/

@[simp] theorem Dev.rd_msixSend (d : Dev) (f : Func) (vec k : Nat) : (d.msixSend f vec).rd k = d.rd k := by
  unfold Dev.msixSend
  dsimp only
  split
  · rfl
  · split <;> rfl

/-- A message writes no register but the overflow word of SYS, where its vector has no table entry. -/
theorem Dev.rd_routeMsg (d : Dev) (f : Func) (vec : Nat) {k : Nat} (h : k ≠ reg .sys 0 0x204) :
    (d.routeMsg f vec).rd k = d.rd k := by
  unfold Dev.routeMsg
  split
  · exact d.rd_msixSend f vec k
  · rw [Dev.rd_msixSend, Dev.rd_wrN_ne _ _ h]

theorem Dev.rd_pageMsg (d : Dev) (page : Nat) {k : Nat} (h : k ≠ reg .sys 0 0x204) : (d.pageMsg page).rd k = d.rd k := by
  unfold Dev.pageMsg
  dsimp only
  split
  · exact d.rd_routeMsg _ _ h
  · rfl

/-- A page whose route is off sends no message. -/
theorem Dev.pageMsg_off {d : Dev} {page : Nat} (h : d.bit (page + 0x2C) 31 = false) : d.pageMsg page = d := by
  simp [Dev.pageMsg, h]

theorem Dev.pageMsg_on {d : Dev} {page : Nat} (h : d.bit (page + 0x2C) 31 = true) :
    d.pageMsg page = d.routeMsg ⟨d.fld (page + 0x2C) 28 1, d.fld (page + 0x2C) 16 12⟩ (d.fld (page + 0x2C) 0 11) := by
  simp [Dev.pageMsg, h]

/-- A vector in reach gets the message itself. -/
theorem Dev.routeMsg_inReach {d : Dev} {f : Func} {vec : Nat} (hf : d.fnExists f = true) (hv : vec < d.msixSize f) :
    d.routeMsg f vec = d.msixSend f vec := by
  simp [Dev.routeMsg, hf, hv]

theorem Dev.msixSend_goes {d : Dev} {f : Func} {vec : Nat} (hup : (d.link f.link).up = true)
    (hu : (d.msix.getD (vecKey f vec) {}).unmasked = true) (hfn : d.msixFn.getD (fkey f) false = true) (hm : d.master f = true) :
    d.msixSend f vec = d.emit (.msix f vec) := by
  simp [Dev.msixSend, hup, hu, hfn, hm]

theorem Dev.msixSend_masked {d : Dev} {f : Func} {vec : Nat} (hup : (d.link f.link).up = true)
    (hu : (d.msix.getD (vecKey f vec) {}).unmasked = false) : d.msixSend f vec =
      { d with msix := d.msix.set (vecKey f vec) { d.msix.getD (vecKey f vec) {} with pending := true } {} } := by
  simp [Dev.msixSend, hup, hu]

/-! ### PG_INT_STATUS (R60, R61) -/

/-- The device with the bits of `mask` set in PG_INT_STATUS of a page, before any message. -/
def Dev.withInt (d : Dev) (page mask : Nat) : Dev := d.wr (page + 0x20) (d.rd (page + 0x20) ||| w32 mask)

theorem Dev.setInt_eq (d : Dev) (page mask : Nat) : d.setInt page mask =
    if !d.intCond page && (d.withInt page mask).intCond page then (d.withInt page mask).pageMsg page else d.withInt page mask :=
  rfl

theorem Dev.rd_withInt_ne (d : Dev) (page mask : Nat) {k : Nat} (h : k ≠ page + 0x20) : (d.withInt page mask).rd k = d.rd k :=
  Dev.rd_wr_ne _ _ h

/-- Beside what `Dev.withInt` writes, only the overflow word of SYS can change. -/
theorem Dev.rd_setInt_eq (d : Dev) (page mask : Nat) {k : Nat} (h : k ≠ reg .sys 0 0x204) :
    (d.setInt page mask).rd k = (d.withInt page mask).rd k := by
  rw [Dev.setInt_eq]
  split
  · exact Dev.rd_pageMsg _ _ h
  · rfl

theorem Dev.rd_setInt_ne (d : Dev) (page mask : Nat) {k : Nat} (hk : k ≠ page + 0x20) (ho : k ≠ reg .sys 0 0x204) :
    (d.setInt page mask).rd k = d.rd k :=
  (d.rd_setInt_eq page mask ho).trans (d.rd_withInt_ne page mask hk)

section
variable {d : Dev} {page mask : Nat} (hp : page % 0x10000 = 0)
include hp

/-- A word of the page header below 0x204 is not the overflow word of SYS. -/
theorem header_ne_overflow {x : Nat} (hx : x < 0x204) : page + x ≠ reg .sys 0 0x204 := by
  rw [reg_sys]; omega

theorem Dev.rd_setInt_status : (d.setInt page mask).rd (page + 0x20) = d.rd (page + 0x20) ||| w32 mask :=
  (d.rd_setInt_eq page mask (header_ne_overflow hp (by decide))).trans (d.rd_wr_self _ _)

/-- The condition of a page is that of its words: a message does not move it. -/
theorem Dev.intCond_setInt : (d.setInt page mask).intCond page = (d.withInt page mask).intCond page := by
  simp only [Dev.intCond, Dev.rd_setInt_eq _ _ _ (header_ne_overflow hp (x := 0x20) (by decide)),
    Dev.rd_setInt_eq _ _ _ (header_ne_overflow hp (x := 0x24) (by decide))]

omit hp in
theorem Dev.rdN_withInt_route : (d.withInt page mask).rdN (page + 0x2C) = d.rdN (page + 0x2C) :=
  congrArg BitVec.toNat (d.rd_withInt_ne page mask (by omega))

/-- No message where the condition held already, where it stays false, or while the route is off. -/
theorem Dev.setInt_silent (h : d.intCond page = true ∨ (d.setInt page mask).intCond page = false ∨ d.bit (page + 0x2C) 31 = false) :
    d.setInt page mask = d.withInt page mask := by
  rw [Dev.intCond_setInt hp] at h
  rw [Dev.setInt_eq]
  split
  · rename_i hdue
    simp only [Bool.and_eq_true, Bool.not_eq_true'] at hdue
    obtain ⟨hwas, his⟩ := hdue
    have hen : d.bit (page + 0x2C) 31 = false := by simpa [hwas, his] using h
    exact Dev.pageMsg_off (by rwa [Dev.bit, Dev.rdN_withInt_route])
  · rfl

/-- One message where the condition becomes true while the route is on. -/
theorem Dev.setInt_sends (hwas : d.intCond page = false) (his : (d.setInt page mask).intCond page = true)
    (hen : d.bit (page + 0x2C) 31 = true) : d.setInt page mask = (d.withInt page mask).routeMsg
      ⟨d.fld (page + 0x2C) 28 1, d.fld (page + 0x2C) 16 12⟩ (d.fld (page + 0x2C) 0 11) := by
  rw [Dev.intCond_setInt hp] at his
  have hon : (d.withInt page mask).bit (page + 0x2C) 31 = true := by rwa [Dev.bit, Dev.rdN_withInt_route]
  simp only [Dev.setInt_eq, hwas, his, Bool.not_false, Bool.and_self, if_true, Dev.pageMsg_on hon, Dev.fld, Dev.rdN_withInt_route]

end

/-- Settles O59: `Dev.setInt_silent` and `Dev.setInt_sends` say when bits that are set send a message, and a message to a vector in
reach goes out or waits by the mask of the vector. -/
theorem interruptsMessageOnce : Obligations.InterruptsMessageOnce := by
  rintro d _ page mask _ _ rfl hp rfl rfl
  refine ⟨Dev.rd_setInt_status hp, fun k => Dev.rd_setInt_ne d page mask, ?silent, ?due⟩
  case silent =>
    intro h
    rw [Dev.setInt_silent hp h]
    exact ⟨rfl, rfl⟩
  case due =>
    intro hwas his hen hf hv hup
    rw [Dev.setInt_sends hp hwas his hen, Dev.routeMsg_inReach (d := d.withInt page mask) hf hv]
    constructor
    · intro hu hfn hm
      rw [Dev.msixSend_goes (d := d.withInt page mask) hup hu hfn hm]
      exact ⟨rfl, rfl⟩
    · intro hu
      rw [Dev.msixSend_masked (d := d.withInt page mask) hup hu]
      exact ⟨rfl, by simp⟩

/-! ### The first-error log (R65) -/

/-- The words PG_ERR_LOG0 to PG_ERR_LOG7 of an error. -/
def errWords (turn code who off data detail : Nat) : List Nat :=
  [0x80000000 + code % 65536, 0, turn % p32, turn / p32 % p32, who, off % 0x10000000, data % p32, detail]

/-- A log that holds no error captures one and sets ERR_LOGGED. -/
theorem Dev.logRaw_captures {d : Dev} {page : Nat} (code who off data detail : Nat) (h : d.bit (page + 0x40) 31 = false) :
    d.logRaw page code who off data detail =
      (d.putWords (page + 0x40) (errWords d.turn code who off data detail)).setInt page 1 := by
  simp [Dev.logRaw, h, errWords, Dev.putWords, Nat.add_assoc, Dev.wrN, Dev.wr_turn]

/-- A log that holds an error counts the next one, up to 65,535. -/
theorem Dev.logRaw_counts {d : Dev} {page : Nat} (code who off data detail : Nat) (h : d.bit (page + 0x40) 31 = true) :
    d.logRaw page code who off data detail =
      d.wrN (page + 0x44) (min 65535 (d.fld (page + 0x44) 0 16 + 1)) := by
  have hlt : d.fld (page + 0x44) 0 16 < 65536 := Nat.mod_lt _ (by decide)
  have hmin : (if d.fld (page + 0x44) 0 16 = 65535 then d.fld (page + 0x44) 0 16 else d.fld (page + 0x44) 0 16 + 1) =
      min 65535 (d.fld (page + 0x44) 0 16 + 1) := by
    split <;> omega
  simp only [Dev.logRaw, h, if_true, hmin]

section
variable {d : Dev} {page : Nat} (code who off data detail : Nat) (hp : page % 0x10000 = 0) (h : d.bit (page + 0x40) 31 = false)
include hp h

/-- Word `i` of the log after a capture. -/
theorem Dev.rd_logRaw_word {i : Nat} (hi : i < 8) :
    (d.logRaw page code who off data detail).rd (page + 0x40 + 4 * i) = w32 ((errWords d.turn code who off data detail)[i]) := by
  rw [Dev.logRaw_captures _ _ _ _ _ h, Dev.rd_setInt_ne _ _ _ (by omega) (by rw [reg_sys]; omega), Dev.rd_putWords _ _ _ hi]

omit hp in
/-- A capture writes the log, ERR_LOGGED and what its message writes. -/
theorem Dev.rd_logRaw_ne {k : Nat} (hk : k < page + 0x40 ∨ page + 0x60 ≤ k) (hs : k ≠ page + 0x20) (ho : k ≠ reg .sys 0 0x204) :
    (d.logRaw page code who off data detail).rd k = d.rd k := by
  rw [Dev.logRaw_captures _ _ _ _ _ h, Dev.rd_setInt_ne _ _ _ hs ho, Dev.rd_putWords_ne]
  exact hk

theorem Dev.rd_logRaw_status : (d.logRaw page code who off data detail).rd (page + 0x20) = d.rd (page + 0x20) ||| 1 := by
  rw [Dev.logRaw_captures _ _ _ _ _ h, Dev.rd_setInt_status hp, Dev.rd_putWords_ne _ _ _ (by omega)]
  rfl

end

/-- Settles O58, by VALID of the log: `Dev.logRaw_counts` writes one word, `Dev.logRaw_captures` the words of `errWords`. -/
theorem firstErrorIsKept : Obligations.FirstErrorIsKept := by
  rintro d _ page code who off data detail hp rfl
  constructor
  · intro h
    rw [Dev.logRaw_counts _ _ _ _ _ h]
    refine ⟨?_, fun k hk => Dev.rd_wrN_ne _ _ hk, rfl⟩
    rw [Dev.fld, bitsOf, Dev.rdN_of_rd (Dev.rd_wrN_self _ _ _)]
    omega
  · intro h
    have word := fun i (hi : i < 8) => Dev.rd_logRaw_word code who off data detail hp h hi
    have number := fun i hi => Dev.rdN_of_rd (word i hi)
    have hctl := number 0 (by decide)
    have hturnLow := number 2 (by decide)
    have hturnHigh := number 3 (by decide)
    have hoff := number 5 (by decide)
    have hdata := number 6 (by decide)
    simp only [errWords, List.getElem_cons_zero, List.getElem_cons_succ, Nat.add_assoc, Nat.reduceMul, Nat.reduceAdd, p32]
      at hctl hturnLow hturnHigh hoff hdata
    refine ⟨?_, ?_, word 1 (by decide), ?_, word 4 (by decide), ?_, ?_, word 7 (by decide), Dev.rd_logRaw_status _ _ _ _ _ hp h,
      fun k hk hs ho => Dev.rd_logRaw_ne _ _ _ _ _ h hk hs ho⟩
    · rw [Dev.bit, bitOf, hctl]
      exact decide_eq_true (by omega)
    · rw [Dev.fld, bitsOf, hctl]
      omega
    all_goals omega

end Sys2Proof.Machine
end

section
/-! PROOF. Which write reaches which register, and which is refused (R53, R56, R67, R68, R670). -/

namespace Sys2Proof.Machine

/-! ### A write that R670 refuses -/

/-- REGISTER_WRITE that R670 refuses leaves what the refusal logs. -/
theorem registerWrite_refused {s : State} {pt : Party} {off width : Nat} {v : BitVec 64} {d : Dev} (hl : s.live = true)
    (hm : msixPlace pt off = none) (h : s.dev.writeCheck pt off width v.toNat = .error d) :
    exec (.registerWrite pt off width v) s = .next (s.endsWith d) :=
  State.run_dev (f := fun s => s.busWrite pt off width v.toNat) hl (by simp only [State.busWrite, hm, State.ownWrite, h])

/-- A VF may write at no place of the page map. -/
theorem not_vf_of_mayWrite {d : Dev} {pt : Party} {l : Loc} {sp : Space} (h : mayWrite d pt l sp = true) (f : Func) : pt ≠ .vf f := by
  rintro rfl
  cases h

/-- What R670 makes of a write to the register at a place, or to none there, once party and width are right. -/
def Dev.rowCheck (d : Dev) (a : Access) (width : Nat) (l : Loc) (sp : Space) : Option (RegRow × Nat × Nat) → Except Dev Tgt
  | none => .error (d.logAcc a 0x0003)
  | some (row, x, k) =>
    if row.need8 ∧ width ≠ 8 then .error (d.logAcc a 0x0005)
    else if sp = .block ∧ d.fencedAt l.blk l.inst l.page then .error (d.logAcc a 0x0006)
    else if row.readOnly ∨ (row.tl ∧ k = l.instBase + x ∧ sp = .block) then .error (d.logAcc a 0x0004)
    else .ok (mkTgt a width l sp (row, x, k))

/-- The order of R670 for a write to a page: the party, the width, the register. -/
theorem Dev.writeCheck_at {d : Dev} {pt : Party} {off : Nat} {l : Loc} (width v : Nat) (hvf : ∀ f, pt ≠ .vf f)
    (hp : d.place off = some l) : d.writeCheck pt off width v =
      if !mayWrite d pt l (spaceOf d pt l) then .error (d.logSys (d.target pt off v).1 0x0002)
      else if !goodWidth off width (rowOf pt l (spaceOf d pt l)) then .error (d.logAcc (d.target pt off v).1 0x0005)
      else d.rowCheck (d.target pt off v).1 width l (spaceOf d pt l) (rowOf pt l (spaceOf d pt l)) := by
  have ht : d.target pt off v = ((d.target pt off v).1, some (l, spaceOf d pt l, rowOf pt l (spaceOf d pt l))) := by
    simp only [Dev.target, hp]
  generalize (d.target pt off v).1 = a at ht ⊢
  cases pt with
  | vf f => exact absurd rfl (hvf f)
  | _ => simp only [Dev.writeCheck, ht]; rfl

/-- An access to a page names its page, and its detail. -/
theorem Dev.target_access {d : Dev} {pt : Party} {off v : Nat} {l : Loc} (hp : d.place off = some l) :
    (d.target pt off v).1 =
      { pt := pt, off := off, data := v, page := l.pageBase, detail := (d.target pt off v).1.detail } := by
  simp only [Dev.target, hp]

/-- Settles O57, by `Dev.writeCheck_at`: the check of the party comes first, and SYS logs what it refuses. -/
theorem writesNeedOwnership : Obligations.WritesNeedOwnership := by
  constructor
  · intro d l sp
    refine ⟨fun h => by simp [mayWrite, h], fun h => by simp [mayWrite, h], fun hb hs => ?_⟩
    have howner : ownerLink d l sp = some l.inst := by
      obtain rfl | rfl := hs <;> simp only [ownerLink, if_pos hb]
    exact ⟨fun hi => by simp [mayWrite, howner, hi], fun hi => by simp [mayWrite, howner, hi]⟩
  · intro s pt off width v l hl hpt hp hw
    have hvf : ∀ f, pt ≠ .vf f := by obtain rfl | rfl := hpt <;> exact fun f => nofun
    refine ⟨(s.dev.target pt off v.toNat).1.detail, ?_⟩
    rw [← Dev.target_access hp]
    exact registerWrite_refused hl (msixPlace_none hvf (Dev.place_lt hp)) (by
      rw [Dev.writeCheck_at width _ hvf hp, hw]
      rfl)

/-! ### The register a permitted write reaches -/

/-- A row found in a space is of that space. -/
theorem space_of_map {α : Type} {o : Option α} {g : α → RegRow × Nat × Nat} {sp sp' : Space} {q : RegRow × Nat × Nat}
    (h : o.map (fun x => (sp', g x)) = some (sp, q)) : sp = sp' := by
  obtain ⟨x, -, hx⟩ := Option.map_eq_some_iff.1 h
  exact (congrArg Prod.fst hx).symm

/-- A VF reaches neither page headers nor block-specific registers (R548). -/
theorem Dev.vfPlace_space {d : Dev} {f : Func} {off : Nat} {sp : Space} {q : RegRow × Nat × Nat} (h : d.vfPlace f off = some (sp, q)) :
    sp ≠ .header ∧ sp ≠ .block := by
  unfold Dev.vfPlace at h
  split at h
  · split at h
    · rw [space_of_map h]; exact ⟨nofun, nofun⟩
    · cases h
  split at h
  · split at h
    · rw [space_of_map h]; exact ⟨nofun, nofun⟩
    · cases h
  split at h <;> rw [space_of_map h] <;> exact ⟨nofun, nofun⟩

theorem Dev.vfWriteCheck_space {d : Dev} {f : Func} {off width v : Nat} {t : Tgt} (h : d.vfWriteCheck f off width v = .ok t) :
    t.space ≠ .header ∧ t.space ≠ .block := by
  unfold Dev.vfWriteCheck at h
  dsimp only at h
  split at h
  · cases h
  split at h
  · cases h
  rename_i hp
  split at h
  · cases h
  split at h
  · cases h
  split at h
  · cases h
  cases h
  exact Dev.vfPlace_space hp

/-- A permitted write of a page header or of a block-specific register is none of a VF. -/
theorem not_vf_of_writeCheck {d : Dev} {pt : Party} {off width v : Nat} {t : Tgt} (h : d.writeCheck pt off width v = .ok t)
    (hs : t.space = .header ∨ t.space = .block) (f : Func) : pt ≠ .vf f := by
  rintro rfl
  obtain ⟨hh, hb⟩ := Dev.vfWriteCheck_space h
  exact hs.elim hh hb

/-- A permitted write reaches the register at its place, and not the active offset of a turn-latched one. -/
theorem Dev.writeCheck_reaches {d : Dev} {pt : Party} {off width v : Nat} {t : Tgt} (hvf : ∀ f, pt ≠ .vf f)
    (h : d.writeCheck pt off width v = .ok t) : ∃ l row x k,
      d.place off = some l ∧ rowOf pt l (spaceOf d pt l) = some (row, x, k) ∧
      t = mkTgt (d.target pt off v).1 width l (spaceOf d pt l) (row, x, k) ∧
      ¬ (row.tl = true ∧ k = l.instBase + x ∧ spaceOf d pt l = .block) := by
  cases hp : d.place off with
  | none =>
    exfalso
    cases pt with
    | vf f => exact hvf f rfl
    | _ => simp only [Dev.writeCheck, Dev.target, hp] at h; split at h <;> cases h
  | some l =>
    rw [Dev.writeCheck_at width v hvf hp] at h
    split at h
    · cases h
    split at h
    · cases h
    cases hr : rowOf pt l (spaceOf d pt l) with
    | none => rw [hr] at h; cases h
    | some q =>
      obtain ⟨row, x, k⟩ := q
      simp only [hr, Dev.rowCheck] at h
      split at h
      · cases h
      split at h
      · cases h
      split at h
      · cases h
      rename_i hro
      cases h
      exact ⟨l, row, x, k, rfl, hr, rfl, fun hx => hro (.inr hx)⟩

/-- Permitted writes of two values at one offset reach the same register, each with its own data. -/
theorem Dev.writeCheck_same {d : Dev} {pt : Party} {off width v w : Nat} {t u : Tgt} (hvf : ∀ f, pt ≠ .vf f)
    (ht : d.writeCheck pt off width v = .ok t) (hu : d.writeCheck pt off width w = .ok u) :
    t.acc.data = v ∧ u = { t with acc := { t.acc with data := w } } := by
  obtain ⟨l, row, x, k, hp, hr, rfl, -⟩ := Dev.writeCheck_reaches hvf ht
  obtain ⟨l', row', x', k', hp', hr', rfl, -⟩ := Dev.writeCheck_reaches hvf hu
  cases hp.symm.trans hp'
  cases hr.symm.trans hr'
  simp only [Dev.target, hp, mkTgt, and_self]

/-! ### ENABLE of a block that is always enabled (R53) -/

/-- What a write of PG_CTRL does with RESET: it acts where the block is quiesced. -/
def State.ctrlReset (s : State) (t : Tgt) : Dev :=
  if bitOf t.acc.data 2 && s.dev.bit (statusReg t.loc.blk t.loc.inst) 2 then (s.instReset t.loc.blk t.loc.inst).dev else s.dev

/-- What a write of PG_CTRL does with QUIESCE and RESET where ENABLE is or stays 1; QUIESCED goes without QUIESCE. -/
def State.ctrlKept (s : State) (t : Tgt) : Dev :=
  if bitOf t.acc.data 1 then (s.ctrlReset t).wrN (ctrlReg t.loc.blk t.loc.inst) 3
  else ((s.ctrlReset t).wrN (ctrlReg t.loc.blk t.loc.inst) 1).setFld (statusReg t.loc.blk t.loc.inst) 2 1 0

/-- ENABLE reads 1 after such a write. -/
theorem State.ctrlKept_enabled (s : State) (t : Tgt) : (s.ctrlKept t).bit (ctrlReg t.loc.blk t.loc.inst) 0 = true := by
  have hne : ctrlReg t.loc.blk t.loc.inst ≠ statusReg t.loc.blk t.loc.inst := by simp [ctrlReg, statusReg, reg]
  unfold State.ctrlKept
  split
  · simp [Dev.bit, Dev.rdN, w32, bitOf]
  · simp [Dev.bit, Dev.rdN, Dev.setFld, Dev.rd_wrN_ne _ _ hne, w32, bitOf]

/-- What a write of PG_CTRL does with QUIESCE and RESET depends on these bits alone. -/
theorem State.ctrlKept_congr (s : State) (t : Tgt) {v : Nat} (h1 : bitOf v 1 = bitOf t.acc.data 1) (h2 : bitOf v 2 = bitOf t.acc.data 2) :
    s.ctrlKept { t with acc := { t.acc with data := v } } = s.ctrlKept t := by
  simp only [State.ctrlKept, State.ctrlReset, h1, h2]

/-- A write of PG_CTRL of a block other than TIM that leaves ENABLE at 1: beside `State.ctrlKept`, ENABLE = 0 is logged
RESERVED_ENCODING, and else a RESET of a block that is not quiesced NOT_QUIESCED. -/
theorem State.ctrlW_eq {s : State} {t : Tgt} (hb : t.loc.blk ≠ .tim)
    (he : bitOf t.acc.data 0 = true ∨ blkAlwaysEnabled t.loc.blk = true) : s.ctrlW t =
      { s with dev := Dev.ctrlActs (if !bitOf t.acc.data 0 then (s.ctrlKept t).refuse t 0x0001
        else if bitOf t.acc.data 2 && !s.dev.bit (statusReg t.loc.blk t.loc.inst) 2 then (s.ctrlKept t).refuse t 0x0007
        else s.ctrlKept t) t } := by
  have hreset : (if bitOf t.acc.data 2 && s.dev.bit (statusReg t.loc.blk t.loc.inst) 2 then s.instReset t.loc.blk t.loc.inst
      else s) = { s with dev := s.ctrlReset t } := by
    unfold State.ctrlReset
    split
    · rw [State.instReset_of_ne_tim hb]
    · rfl
  have hbad : (!bitOf t.acc.data 0 && blkAlwaysEnabled t.loc.blk) = !bitOf t.acc.data 0 := by
    obtain h | h := he <;> simp [h]
  simp only [State.ctrlW, hreset, hbad, Bool.or_not_self]
  cases h1 : bitOf t.acc.data 1 <;> simp [State.ctrlKept, h1, b2n]

/-- A permitted REGISTER_WRITE of PG_CTRL. -/
theorem registerWrite_pgCtrl {s : State} {pt : Party} {off : Nat} {v : BitVec 64} {t : Tgt} {d : Dev}
    (h : s.permits pt off 4 v.toNat t) (hs : t.space = .header) (hx : t.x = 0x10) (hd : s.ctrlW t = { s with dev := d }) :
    exec (.registerWrite pt off 4 v) s = .next (s.endsWith d) :=
  registerWrite_of_busW h (by simp only [State.busW, hs, State.headerW_ctrl hx, hd])

theorem bitOf_toNat (v : BitVec 64) (i : Nat) : bitOf v.toNat i = v.getLsbD i := Nat.testBit_eq_decide_div_mod_eq.symm

/-- Setting bit 0 sets that bit and no other. -/
theorem bitOf_or_one (v : BitVec 64) (i : Nat) : bitOf (v ||| 1).toNat i = (bitOf v.toNat i || decide (i = 0)) := by
  rw [bitOf_toNat, bitOf_toNat, BitVec.getLsbD_or, show (1 : BitVec 64) = 1#64 from rfl, BitVec.getLsbD_one]
  simp

/-- Settles O18: both writes reach the same register, and what they do beside their log entry is `State.ctrlKept`.  That the write
with ENABLE = 0 and a RESET that cannot act is logged once, RESERVED_ENCODING, is the model's reading (log entry 20). -/
theorem enableStaysSet : Obligations.EnableStaysSet := by
  rintro s pt off v t u ht hu hs hx hb h0
  obtain ⟨hdata, rfl⟩ := Dev.writeCheck_same (not_vf_of_writeCheck ht.2 (.inl hs)) ht.2 hu.2
  have halways : blkAlwaysEnabled t.loc.blk = true := by
    simp only [List.mem_cons, List.not_mem_nil, or_false] at hb
    obtain h | h | h | h := hb <;> rw [h] <;> rfl
  have htim : t.loc.blk ≠ .tim := fun h => by rw [h] at halways; cases halways
  have b0 : bitOf (v ||| 1).toNat 0 = true := (bitOf_or_one v 0).trans (Bool.or_true _)
  have b1 : bitOf (v ||| 1).toNat 1 = bitOf t.acc.data 1 := by rw [bitOf_or_one, hdata]; exact Bool.or_false _
  have b2 : bitOf (v ||| 1).toNat 2 = bitOf t.acc.data 2 := by rw [bitOf_or_one, hdata]; exact Bool.or_false _
  have hkept := s.ctrlKept_congr t b1 b2
  have hdisable := State.ctrlW_eq (s := s) htim (.inr halways)
  have henable := State.ctrlW_eq (s := s) (t := { t with acc := { t.acc with data := (v ||| 1).toNat } }) htim (.inl b0)
  simp only [hkept, b0, b2, Bool.not_true, Bool.false_eq_true, if_false] at henable
  refine ⟨s.ctrlKept t, s.ctrlKept_enabled t, ?disabled, ?accepted, ?notQuiesced⟩
  case disabled => exact registerWrite_pgCtrl ht hs hx (by rw [hdisable, h0]; rfl)
  case accepted =>
    intro h
    have hgo : (bitOf t.acc.data 2 && !s.dev.bit (statusReg t.loc.blk t.loc.inst) 2) = false := by
      obtain h | h := h <;> simp [h]
    exact registerWrite_pgCtrl hu hs hx (by rw [henable, hgo]; rfl)
  case notQuiesced =>
    intro h2 hq
    exact registerWrite_pgCtrl hu hs hx (by rw [henable, h2, hq]; rfl)

/-! ### Turn-latched registers (R56) -/

/-- A block-specific register lies at its active offset, or is turn-latched and lies at its shadow. -/
theorem rowOf_block_key {pt : Party} {l : Loc} {row : RegRow} {x k : Nat} (h : rowOf pt l .block = some (row, x, k)) :
    k = l.instBase + x ∨ k = l.instBase + x + 0x8000 := by
  unfold rowOf at h
  dsimp only at h
  split at h
  · split at h
    · cases h; exact .inl rfl
    · split at h
      · cases h; exact .inr rfl
      · cases h
  · cases h

/-- Below the shadows, a block-specific register lies at its active offset. -/
theorem rowOf_block_active {pt : Party} {l : Loc} {row : RegRow} {a : Nat} (hlt : l.off < 0x8000)
    (h : rowAt l.blk.rows (l.page * 0x10000 + l.off) = some (row, a)) : rowOf pt l .block = some (row, a, l.instBase + a) := by
  have hx : unshadow l = l.off := if_neg fun hs => by omega
  simp only [rowOf, hx, h, if_true]

theorem spaceOf_block {d : Dev} {pt : Party} {l : Loc} (hr : l.blk ≠ .rng) (hq : l.blk ≠ .qrn) (hlo : 0x100 ≤ l.off)
    (hhi : l.off < 0x8000) : spaceOf d pt l = .block := by
  have hh : ¬ (l.off < 0x100 ∨ (0x8000 ≤ l.off ∧ l.off < 0x8100)) := by omega
  simp only [spaceOf, hr, hq, hh, false_and, if_false]

/-- A write that holds no reserved encoding puts what it leaves into a 4 B register. -/
theorem Dev.store_word {d : Dev} {t : Tgt} (hw : t.row.w64 = false) (hok : (d.settled t).2 = false) :
    d.store t = d.wrN t.key (d.settled t).1 := by
  simp only [Dev.store, hok, Dev.put, hw, Bool.false_eq_true, if_false]

/-- A 4 B write at the active offset of a turn-latched register is logged RO_WRITE. -/
theorem Dev.writeCheck_active {d : Dev} {pt : Party} {off v : Nat} {l : Loc} {row : RegRow} {a : Nat} (hp : d.place off = some l)
    (hb : l.blk ∈ [Blk.dst, .egr]) (hlo : 0x100 ≤ l.off) (hhi : l.off < 0x8000) (h4 : off % 4 = 0)
    (hrow : rowAt l.blk.rows (l.page * 0x10000 + l.off) = some (row, a)) (htl : row.tl = true) (h8 : row.need8 = false)
    (hw : mayWrite d pt l .block = true) (hf : d.fencedAt l.blk l.inst l.page = false) :
    d.writeCheck pt off 4 v = .error (d.logAcc { pt := pt, off := off, data := v, page := l.pageBase } 0x0004) := by
  have hsp : spaceOf d pt l = .block :=
    spaceOf_block (fun h => by rw [h] at hb; simp at hb) (fun h => by rw [h] at hb; simp at hb) hlo hhi
  have hreach := rowOf_block_active (pt := pt) hhi hrow
  have hacc : (d.target pt off v).1 = { pt := pt, off := off, data := v, page := l.pageBase } := by
    simp only [Dev.target, hp, hsp]
  rw [Dev.writeCheck_at 4 v (not_vf_of_mayWrite hw) hp, hacc, hsp, hreach]
  simp [Dev.rowCheck, goodWidth, hw, hf, h4, h8, htl]

/-- Settles O19, by the place R670 lets a write reach: of a turn-latched register, its shadow alone. -/
theorem shadowsAreWritten : Obligations.ShadowsAreWritten := by
  constructor
  · intro s pt off v t h hs hb htl hw hok
    have hplain : t.loc.blk ∈ plainBlks := by
      simp only [List.mem_cons, List.not_mem_nil, or_false] at hb ⊢
      obtain h | h := hb <;> simp [h]
    refine ⟨?_, registerWrite_of_busW h (State.busW_plain hs hplain), ?_⟩
    · obtain ⟨l, row, x, k, -, hrow, rfl, hact⟩ := Dev.writeCheck_reaches (not_vf_of_writeCheck h.2 (.inr hs)) h.2
      have hsp : spaceOf s.dev pt l = .block := hs
      rw [hsp] at hrow hact
      exact (rowOf_block_key hrow).resolve_left fun hk => hact ⟨htl, hk, rfl⟩
    · rw [Dev.store_word hw hok]
      exact ⟨Dev.rd_wrN_self _ _ _, fun k hk => Dev.rd_wrN_ne _ _ hk⟩
  · intro s pt off v l row a hl hp hb hlo hhi h4 hrow htl h8 hw hf
    exact registerWrite_refused hl (msixPlace_none (not_vf_of_mayWrite hw) (Dev.place_lt hp))
      (Dev.writeCheck_active hp hb hlo hhi h4 hrow htl h8 hw hf)

end Sys2Proof.Machine
end

section
/-! PROOF. Failed units and what they fence (R66, R127, R387, R610 to R612). -/

namespace Sys2Proof.Machine

/-! ### A unit that fails -/

/-- A pipeline in service without a cause is marked with one. -/
theorem Dev.pipeFail_marks {d : Dev} {p : Nat} (cause : Nat) (hp : p < 8) (ha : d.pipeAlive p = true) (hf : (d.pipe p).fault = none) :
    d.pipeFail p cause = d.setPipe p { d.pipe p with fault := some cause } :=
  if_pos ⟨hp, ha, hf⟩

/-- An engine that is not fenced yet is fenced. -/
theorem Dev.engineFail_fences {d : Dev} {e : Nat} (cause : Nat) (he : e < 4) (hf : d.fenced .blke e = false) :
    d.engineFail e cause = d.engineFence e cause :=
  if_neg (by simp [he, hf])

/-- A lane in service of a cluster that is not fenced leaves service. -/
theorem Dev.laneFail_fences {d : Dev} {c i : Nat} (cause : Nat) (hc : c < 3) (hi : i < laneCount c) (hl : (d.lane c i).fenced = none)
    (hf : d.fenced .cip c = false) : d.laneFail c i cause = d.laneFence c i cause :=
  if_neg (by simp [hc, hi, hl, hf])

/-- A control-core cluster in service is fenced. -/
theorem Dev.clusterFail_fences {d : Dev} {c : Nat} (cause : Nat) (hc : c < 4) (hg : d.clusterGone c = false) :
    d.clusterFail c cause = d.clusterFence c cause :=
  if_neg (by simp [hc, hg])

/-! ### Bounds that are broken -/

/-- A pass of the third turn after its admission breaks the bound of its pipeline, unless the clocks coast or it is exempt. -/
theorem Dev.transitBroken_of {d : Dev} {p : Nat}
    (h : ∃ x ∈ (d.pipe p).marks ++ (d.pipe p).ready, x.exempt = false ∧ x.admitted + 3 ≤ d.turn)
    (hc : d.bit (reg .clk 0 0x100) 1 = false) : d.transitBroken p = true := by
  obtain ⟨x, hx, hex, hturn⟩ := h
  have hany : (((d.pipe p).marks ++ (d.pipe p).ready).any fun x => !x.exempt && decide (x.admitted + 3 ≤ d.turn)) = true :=
    List.any_eq_true.2 ⟨x, hx, by simp [hex, hturn]⟩
  simp only [Dev.transitBroken, hc, hany, Bool.not_false, Bool.and_self]

theorem exec_transitBoundExceeded {s : State} {p : Nat} (hl : s.live = true) (hb : s.dev.transitBroken p = true) :
    exec (.transitBoundExceeded p) s = .next (s.endsWith (s.dev.pipeFail p 1)) := by
  simp only [exec, execTransitBoundExceeded]
  exact State.act_of hl (if_pos hb)

/-- A command of an engine that has not moved for 16 boundaries fails the engine. -/
theorem exec_engineNoProgress {s : State} {e : Nat} (hl : s.live = true) (h : ∃ c ∈ s.dev.flying e, c.moved + 16 ≤ s.dev.bounds) :
    exec (.engineNoProgress e) s = .next (s.endsWith (s.dev.engineFail e 1)) := by
  obtain ⟨c, hc, hm⟩ := h
  simp only [exec, execEngineNoProgress]
  exact State.act_of hl (if_pos (List.any_eq_true.2 ⟨c, hc, decide_eq_true hm⟩))

/-- A packet that an inline lane has not returned in time fails the lane. -/
theorem exec_laneBoundExceeded {s : State} {i : Nat} {r : InlineRun} (hl : s.live = true) (ha : (s.dev.lane 0 i).active = some r)
    (hr : r.started + 2 ≤ s.dev.bounds) : exec (.laneBoundExceeded 0 i) s = .next (s.endsWith (s.dev.laneFail 0 i 1)) := by
  simp only [exec, execLaneBoundExceeded, true_and]
  exact State.act_of hl (if_pos (by simp [Dev.laneLate, ha, hr]))

/-- An uncorrectable error of a block whose failure fences nothing shows in its page. -/
theorem exec_uncorrectableError_other {s : State} {page : Nat} {l : Loc} (hl : s.live = true) (hp : locate page = some l)
    (ho : l.off = 0) (hg : l.page = 0) (hb : l.blk ∉ [Blk.prs, .cls, .act, .blke]) :
    exec (.uncorrectableError (.other page)) s = .next (s.endsWith ((s.dev.setError l.blk l.inst).logUncorrectable l.blk l.inst)) := by
  simp only [exec, execUncorrectableError]
  exact State.act_of hl (by simp only [hp, if_pos (And.intro ho (And.intro hg hb))])

/-! ### The fence of a pipeline at its boundary -/

/-- A marked pipeline loses its passes, is fenced with its pattern engine, shows an uncorrectable error in the pages of its
stages, and tells its cause. -/
theorem Dev.pipeFence_of {d e : Dev} {p cause n : Nat} (hf : (d.pipe p).fault = some cause)
    (he : (d.setPipe p { d.pipe p with fault := none }).pipeEmpty p = (e, n)) : d.pipeFence p =
      (if cause = 0 then
          [Blk.prs, .cls, .act].foldl (fun d b => d.logUncorrectable b p) (pipeBlks.foldl (fun d b => d.fenceInst b p true) e)
        else pipeBlks.foldl (fun d b => d.fenceInst b p true) e).fwEvent 0xA0 p cause n 0 := by
  simp only [Dev.pipeFence, hf, he]

/-- Settles O53, by the unit each clause is about.  In which page an uncorrectable error is recorded is the model's reading (log
entry 30). -/
theorem failedUnitsAreContained : Obligations.FailedUnitsAreContained := by
  refine ⟨?pipeline, ?engine, ?lane, ?cluster, ?other, ?fence⟩
  case pipeline =>
    intro s p hl hp ha hf
    constructor
    · simp only [exec, execUncorrectableError]
      exact State.act_of hl (Dev.pipeFail_marks 0 hp ha hf)
    · intro hx hc
      rw [exec_transitBoundExceeded hl (Dev.transitBroken_of hx hc), Dev.pipeFail_marks 1 hp ha hf]
  case engine =>
    intro s e hl he hf
    constructor
    · simp only [exec, execUncorrectableError]
      exact State.act_of hl (Dev.engineFail_fences 0 he hf)
    · intro hx
      rw [exec_engineNoProgress hl hx, Dev.engineFail_fences 1 he hf]
  case lane =>
    intro s c i hl hc hi hn hf
    constructor
    · simp only [exec, execUncorrectableError]
      exact State.act_of hl (Dev.laneFail_fences 0 hc hi hn hf)
    · rintro r rfl ha hr
      rw [exec_laneBoundExceeded hl ha hr, Dev.laneFail_fences 1 hc hi hn hf]
  case cluster =>
    intro s c hl hc hg
    constructor
    · simp only [exec, execUncorrectableError]
      exact State.act_of hl (Dev.clusterFail_fences 0 hc hg)
    · simp only [exec, execWatchdogExpire]
      exact State.act_of hl (Dev.clusterFail_fences 2 hc hg)
  case other => exact fun s page l => exec_uncorrectableError_other
  case fence =>
    rintro d p cause hf e n he _ rfl
    rw [Dev.pipeFence_of hf he]
    exact ⟨fun hc => by rw [if_pos hc]; rfl, fun hc => by rw [if_neg hc]; rfl⟩

end Sys2Proof.Machine
end

section
/-! PROOF. Supplies, temperature, the switching of power domains and the resets of the device (R628 to R641). -/

namespace Sys2Proof.Machine

/-! ### Supply and temperature (R628, R629, R634) -/

section
variable {s : State}

/-- VIN outside its range is shown with its warning. -/
theorem exec_vinOutOfRange {mv : Nat} (hl : s.live = true) (h : mv < 10800 ∨ 13200 < mv) : exec (.vinOutOfRange mv) s = .next (s.endsWith
    (((s.dev.wrN (reg .pwr 0 0x104) (mv % 65536)).pwrBit 0 10 (decide (mv < 10800))).pwrBit 1 10 (decide (13200 < mv)))) := by
  have hd : s.dev.dead = false := by
    simp only [State.live, Bool.and_eq_true, Bool.not_eq_true'] at hl
    exact hl.1
  simp only [exec, execVinOutOfRange, hd, Bool.false_eq_true, if_false]
  exact State.act_of hl (if_neg (by omega))

/-- A fall of VIN below 10.5 V releases the trip of a device that is down. -/
theorem exec_vinOutOfRange_dead {mv : Nat} (hd : s.dev.dead = true) : exec (.vinOutOfRange mv) s =
    .next (if mv < 10500 then { s with dev := { s.dev with tripped := false } } else s) := by
  simp only [exec, execVinOutOfRange, hd, if_true]

theorem exec_vinReturnToRange {mv : Nat} (hl : s.live = true) (h : 10800 ≤ mv ∧ mv ≤ 13200) : exec (.vinReturnToRange mv) s =
    .next (s.endsWith (((s.dev.wrN (reg .pwr 0 0x104) mv).pwrBit 0 10 false).pwrBit 1 10 false)) := by
  simp only [exec, execVinReturnToRange]
  exact State.act_of hl (if_pos h)

/-- IIN is shown; above 25 A it warns, below 23 A the warning ends, and between them it stays. -/
theorem exec_iinWindow {ma : Nat} {d : Dev} (hl : s.live = true) (hd : d = s.dev.wrN (reg .pwr 0 0x108) (ma % 65536)) :
    exec (.iinWindow ma) s = .next (s.endsWith
      (if 25000 < ma then { d.pwrBit 2 11 true with ocLevel := if d.ocLevel = 0 then 1 else 2 }
      else if ma < 23000 then { d.pwrBit 2 11 false with ocLevel := 0 }
      else d)) := by
  subst hd
  simp only [exec, execIinWindow]
  exact State.act_of hl rfl

/-! ### PWR_SW_CMD (R635, R636) -/

/-- A command of a party that R670 permits. -/
theorem State.switchCmd_of_permits {pt : Party} {v : Nat} {t : Tgt} (h : s.permits pt (reg .pwr 0 0x120) 4 v t) :
    s.switchCmd pt v = .next (s.endsWith (switchW s.dev t)) :=
  State.act_of h.1 (by simp only [Dev.ownWrite, h.2])

end

section
variable {d : Dev} {t : Tgt} {m : Nat} {on : Bool} (hm : m = bitsOf t.acc.data 0 6) (h0 : m ≠ 0) (h32 : m ≤ 32)
  (hs : d.domSwitch = none) (hon : bitOf t.acc.data 8 = on) (hoff : bitOf t.acc.data 9 = !on)
include hm h0 h32 hs hon hoff

/-- A well-formed command while no switch is under way: it ends at once where the domain is in that state or the switch-off is
refused, and else starts. -/
theorem switchW_wellFormed : switchW d t =
    if d.domainOn m = on then d.switchEnd m 0
    else if !on && d.offRefused m then d.switchEnd m 0x05
    else ({ d with domSwitch := some { dom := m, on := on } } : Dev).wrN (reg .pwr 0 0x124) (256 + 65536 * m) := by
  subst hm
  have hr : ¬ (bitsOf t.acc.data 0 6 = 0 ∨ 32 < bitsOf t.acc.data 0 6) := by omega
  have hx : ¬ (d.domSwitch.isSome = true ∨ on = !on) := by simp [hs]
  simp only [switchW, if_neg hr, hon, hoff, if_neg hx]

theorem switchW_same (h : d.domainOn m = on) : switchW d t = d.switchEnd m 0 := by
  rw [switchW_wellFormed hm h0 h32 hs hon hoff, if_pos h]

theorem switchW_starts (h : d.domainOn m = !on) (hr : (!on && d.offRefused m) = false) : switchW d t =
    ({ d with domSwitch := some { dom := m, on := on } } : Dev).wrN (reg .pwr 0 0x124) (256 + 65536 * m) := by
  rw [switchW_wellFormed hm h0 h32 hs hon hoff, if_neg (by simp [h]), hr, if_neg (by simp)]

theorem switchW_refused (h : d.domainOn m = !on) (hr : (!on && d.offRefused m) = true) : switchW d t = d.switchEnd m 0x05 := by
  rw [switchW_wellFormed hm h0 h32 hs hon hoff, if_neg (by simp [h]), if_pos hr]

end

/-! ### The end of a switch (R637, R638) -/

section
variable {s : State}

/-- A withdrawn and quiet domain is fenced and loses its power. -/
theorem exec_domainOffComplete {w : DomSwitch} {d e : Dev} {m : Nat} (hl : s.live = true) (hw : s.dev.domSwitch = some w)
    (hoff : w.on = false) (hwd : w.withdrawn = true) (hq : s.dev.domainQuiet w.dom = true) (hm : m = w.dom)
    (hd : d = (if 1 ≤ m ∧ m ≤ 8 then s.dev.pipeFence (m - 1)
      else if 17 ≤ m ∧ m ≤ 19 then s.dev.lanesReset (m - 17) false else s.dev))
    (he : e = ((domainInsts m).foldl (fun d q => d.fenceInst q.1 q.2 false) d).setDomain m false) :
    exec .domainOffComplete s = .next (s.endsWith
      ((if s.dev.coresDead = false ∧ e.coresDead = true then e.fwEvent 0xA6 (m - 23) 0 0 0 else e).switchEnd m 0)) := by
  subst hm hd he
  have hgo : ¬ (w.on = true ∨ ¬ w.withdrawn = true ∨ ¬ s.dev.domainQuiet w.dom = true) := by simp [hoff, hwd, hq]
  simp only [exec, execDomainOffComplete]
  refine State.act_of hl ?_
  simp only [hw, if_neg hgo, Bool.and_eq_true, Bool.not_eq_true']

theorem exec_domainOnComplete {w : DomSwitch} (hl : s.live = true) (hw : s.dev.domSwitch = some w) (hon : w.on = true) :
    exec .domainOnComplete s = .next (s.endsWith ((s.dev.domainUp w.dom).switchEnd w.dom 0)) := by
  simp only [exec, execDomainOnComplete]
  exact State.act_of hl (by simp only [hw, hon, Bool.not_true, Bool.false_eq_true, if_false])

/-- Leat passes left at a pipeline that no longer takes them are dropped. -/
theorem exec_leatWithdrawExpire {p : Nat} (hl : s.live = true) (hp : p < 8) (hi : (s.dev.pipe p).inService = false)
    (ho : s.dev.leatsOpen (s.dev.pipe p) = false) : exec (.leatWithdrawExpire p) s = .next (s.endsWith
      ((s.dev.pipe p).leats.foldl (fun d x => d.dropPkt x 11) (s.dev.setPipe p { s.dev.pipe p with leats := [], leatUntil := none }))) := by
  have hgo : ¬ ((s.dev.pipe p).inService = true ∨ s.dev.leatsOpen (s.dev.pipe p) = true ∨ 8 ≤ p) := by simp [hi, ho, hp]
  simp only [exec, execLeatWithdrawExpire]
  exact State.act_of hl (if_neg hgo)

/-! ### Resets (R633, R640) -/

/-- POR starts the device again, unless it is down with its trip held. -/
theorem exec_por (h : s.dev.dead = false ∨ s.dev.tripped = false) : exec .por s = .next (s.porReset false false) := by
  have hgo : ¬ (s.dev.dead = true ∧ s.dev.tripped = true) := by
    obtain h | h := h <;> simp [h]
  simp only [exec, execPor, if_neg hgo]

theorem exec_por_tripped (hd : s.dev.dead = true) (ht : s.dev.tripped = true) : exec .por s = .next s := by
  simp only [exec, execPor, if_pos (And.intro hd ht)]

theorem exec_brownOut : exec .brownOut s =
    .next (if s.dev.dead then { s with dev := { s.dev with tripped := false } } else s.porReset true false) := rfl

theorem exec_thermalTrip {tj : Int} (hd : s.dev.dead = false) (ht : 1840 ≤ tj) :
    exec (.thermalTrip tj) s = .next (s.porReset true true) := by
  have hgo : ¬ (s.dev.dead = true ∨ tj < 1840) := by
    simp only [hd, Bool.false_eq_true, false_or]; omega
  simp only [exec, execThermalTrip, if_neg hgo]

theorem exec_deviceReset (hd : s.dev.dead = false) : exec .deviceReset s = .next (s.deviceReset true) := by
  simp only [exec, execDeviceReset, hd, Bool.false_eq_true, if_false]

end

/-- Settles O55, by the command each clause is about.  When an overcurrent persists, and what a fault of a pipeline that is switched
off leaves, are the model's readings (log entries 159, 234). -/
theorem supplyAndDomainsComplete : Obligations.SupplyAndDomainsComplete := by
  refine ⟨?vin, ?vinDead, ?iin, ?warnings, ?resets, ?commands, ?complete, ?leats⟩
  case vin => exact fun s mv hl => ⟨exec_vinOutOfRange hl, fun hlo hhi => exec_vinReturnToRange hl ⟨hlo, hhi⟩⟩
  case vinDead =>
    intro s mv hd
    rw [exec_vinOutOfRange_dead hd]
    exact ⟨fun h => by rw [if_pos h], fun h => by rw [if_neg (Nat.not_lt.2 h)]⟩
  case iin =>
    intro s ma d hl hd
    rw [exec_iinWindow hl hd]
    refine ⟨fun h => by rw [if_pos h], fun h => ?_, fun hlo hhi => ?_⟩
    · rw [if_neg (by omega), if_pos h]
    · rw [if_neg (by omega), if_neg (by omega)]
  case warnings =>
    intro s tj hl
    constructor
    · simp only [exec, execVioFault]
      exact State.act_of hl rfl
    · simp only [exec, execTjWarn]
      exact State.act_of hl rfl
  case resets =>
    intro s
    refine ⟨exec_por, exec_por_tripped, rfl, fun hd => ?_, fun hd => ⟨?_, fun tj => exec_thermalTrip hd, exec_deviceReset hd⟩⟩
    · rw [exec_brownOut, if_pos hd]
    · rw [exec_brownOut, hd, if_neg Bool.false_ne_true]
  case commands =>
    intro s pt v t m hm h0 h32 hs
    simp only [exec, execDomainOff, execDomainOn]
    refine ⟨fun h h8 h9 hon hr => ?_, fun h h8 h9 hoff => ?_, fun h h8 h9 => ⟨fun hoff => ?_, fun hon hr => ?_⟩⟩ <;>
      rw [State.switchCmd_of_permits h]
    · rw [switchW_starts hm h0 h32 hs h8 h9 hon hr]
    · rw [switchW_starts hm h0 h32 hs h8 h9 hoff rfl]
    · rw [switchW_same hm h0 h32 hs h8 h9 hoff]
    · rw [switchW_refused hm h0 h32 hs h8 h9 hon hr]
  case complete =>
    exact fun s w hl hw =>
      ⟨fun m d e hoff hwd hq hm hd he => exec_domainOffComplete hl hw hoff hwd hq hm hd he, exec_domainOnComplete hl hw⟩
  case leats => exact fun s p => exec_leatWithdrawExpire

end Sys2Proof.Machine
end

section
/-! PROOF. The counter: what a pass of R86 adds, and that the closed form of several passes repeats it (R76, R77, R86). -/

namespace Sys2Proof.Machine

/-! ### What a pass takes off the remaining offset (R86) -/

theorem ceilDiv_zero (m : Nat) : ceilDiv 0 m = 0 := by
  unfold ceilDiv
  rcases m with _ | m
  · rfl
  · exact Nat.div_eq_of_lt (by omega)

theorem ceilDiv_of_le {r m : Nat} (h0 : 0 < r) (h : r ≤ m) : ceilDiv r m = 1 :=
  Nat.div_eq_of_lt_le (by omega) (by omega)

theorem ceilDiv_of_lt {r m : Nat} (hm : 0 < m) (h : m < r) : ceilDiv r m = ceilDiv (r - m) m + 1 := by
  unfold ceilDiv
  rw [show r + m - 1 = (r - m + m - 1) + m by omega, Nat.add_div_right _ hm]

theorem TimeSt.takeMax_pos {t : TimeSt} (h : 0 < t.incr) : 0 < t.takeMax := by
  unfold TimeSt.takeMax
  omega

theorem TimeSt.takeMax_le (t : TimeSt) : t.takeMax ≤ t.incr := Nat.sub_le _ _

/-- Settles O9, by the branch of R86 that the pass takes. -/
theorem cycleAdvancesAtLeastQuarter : Obligations.CycleAdvancesAtLeastQuarter := by
  rintro t ⟨⟨hlo, hhi⟩, hslo, hshi⟩
  unfold TimeSt.pass TimeSt.takeMax
  split
  · dsimp only
    omega
  · split <;> dsimp only <;> omega

/-! ### Passes one after another -/

theorem TimeSt.passes_zero (t : TimeSt) : t.passes 0 = t := by simp [TimeSt.passes]

section
variable {t : TimeSt}

/-- A pass over a remaining offset that it absorbs whole. -/
theorem TimeSt.passes_succ_absorbed (n : Nat) (h0 : 0 < t.remain) (h : t.remain ≤ t.takeMax) :
    t.passes (n + 1) = t.pass.passes n := by
  have hp : t.pass = { t with count := t.count + (t.incr - t.remain), remain := 0 } := by
    simp only [TimeSt.pass, if_pos h0, Nat.min_eq_right h, Nat.sub_self]
  rw [hp]
  simp [TimeSt.passes, ceilDiv_of_le h0 h, ceilDiv_zero, Nat.min_eq_left h]

/-- A pass over a remaining offset that outlasts it. -/
theorem TimeSt.passes_succ_absorbing (n : Nat) (hi : 0 < t.incr) (h : t.takeMax < t.remain) :
    t.passes (n + 1) = t.pass.passes n := by
  have hle := t.takeMax_le
  have hp : t.pass = { t with count := t.count + (t.incr - t.takeMax), remain := t.remain - t.takeMax } := by
    simp only [TimeSt.pass, if_pos (Nat.zero_lt_of_lt h), Nat.min_eq_left (Nat.le_of_lt h)]
  have hm : t.pass.takeMax = t.takeMax := by rw [hp]; rfl
  obtain ⟨k, hk⟩ : ∃ k, k = min n (ceilDiv (t.remain - t.takeMax) t.takeMax) := ⟨_, rfl⟩
  have hk1 : min (n + 1) (ceilDiv t.remain t.takeMax) = k + 1 := by
    rw [ceilDiv_of_lt (TimeSt.takeMax_pos hi) h]
    omega
  have htake : k * t.takeMax ≤ k * t.incr := Nat.mul_le_mul_left k hle
  simp only [TimeSt.passes, hm, hk1]
  simp only [hp, ← hk, Nat.add_mul, Nat.one_mul, Nat.add_sub_add_right, TimeSt.mk.injEq, and_true, true_and]
  omega

/-- A pass of a slew. -/
theorem TimeSt.passes_succ_slewing (n : Nat) (h0 : t.remain = 0) (h : 0 < t.slewLeft) :
    t.passes (n + 1) = t.pass.passes n := by
  have hp : t.pass = { t with count := t.count + t.slewIncr, slewLeft := t.slewLeft - 1 } := by
    simp only [TimeSt.pass, h0, Nat.lt_irrefl, if_false, if_pos h]
  obtain ⟨k, hk⟩ : ∃ k, k = min n (t.slewLeft - 1) := ⟨_, rfl⟩
  have hk1 : min (n + 1) t.slewLeft = k + 1 := by omega
  rw [hp]
  simp only [TimeSt.passes, h0, ceilDiv_zero, Nat.min_zero, Nat.zero_mul, Nat.sub_zero, hk1, ← hk, Nat.add_mul, Nat.one_mul,
    Nat.add_sub_add_right, TimeSt.mk.injEq, and_true, true_and]
  omega

/-- A pass at the rate of TIM_INCR. -/
theorem TimeSt.passes_succ_running (n : Nat) (h0 : t.remain = 0) (h : t.slewLeft = 0) :
    t.passes (n + 1) = t.pass.passes n := by
  have hp : t.pass = { t with count := t.count + t.incr } := by
    simp only [TimeSt.pass, h0, h, Nat.lt_irrefl, if_false]
  rw [hp]
  simp only [TimeSt.passes, h0, h, ceilDiv_zero, Nat.min_zero, Nat.zero_mul, Nat.sub_zero, Nat.add_zero, Nat.add_mul,
    Nat.one_mul, TimeSt.mk.injEq, and_true]
  omega

end

theorem TimeSt.passes_succ {t : TimeSt} (n : Nat) (hi : 0 < t.incr) : t.passes (n + 1) = t.pass.passes n := by
  rcases Nat.eq_zero_or_pos t.remain with h0 | h0
  · rcases Nat.eq_zero_or_pos t.slewLeft with h | h
    · exact TimeSt.passes_succ_running n h0 h
    · exact TimeSt.passes_succ_slewing n h0 h
  · rcases Nat.lt_or_ge t.takeMax t.remain with h | h
    · exact TimeSt.passes_succ_absorbing n hi h
    · exact TimeSt.passes_succ_absorbed n h0 h

@[simp] theorem TimeSt.pass_incr (t : TimeSt) : t.pass.incr = t.incr := by
  unfold TimeSt.pass
  split
  · rfl
  · split <;> rfl

/-- Settles O10, by induction on the number of passes: `TimeSt.passes_succ` takes one off by what it does. -/
theorem passesAreIterated : Obligations.PassesAreIterated := by
  intro t n hi
  induction n generalizing t with
  | zero => exact t.passes_zero
  | succ n ih => rw [TimeSt.passes_succ n hi, TimeSt.repeated, ih t.pass (by rwa [TimeSt.pass_incr])]

end Sys2Proof.Machine
end

section
/-! PROOF. Writes of the servo registers (R79 to R88, R91): what each leaves, of the servo owner and of another party. -/

namespace Sys2Proof.Machine

/-! ### A write of the servo owner -/

/-- A write of a party that R670 permits, with an effect on time and device. -/
theorem State.run_ownWrite {s u : State} {pt : Party} {off width v : Nat} {t : Tgt} {f : State → Tgt → State} (hl : s.live = true)
    (h : s.dev.writeCheck pt off width v = .ok t) (hf : f s t = u) (hp : u.pending = s.pending) :
    s.run (fun s => s.ownWrite pt off width v f) = .next u.ends :=
  State.run_of hl (by simp only [State.ownWrite, h, hf]) hp

theorem State.run_ownWrite_dev {s : State} {pt : Party} {off width v : Nat} {t : Tgt} {f : State → Tgt → State} {d : Dev}
    (hl : s.live = true) (h : s.dev.writeCheck pt off width v = .ok t) (hf : f s t = { s with dev := d }) :
    s.run (fun s => s.ownWrite pt off width v f) = .next (s.endsWith d) :=
  State.run_dev hl (by simp only [State.ownWrite, h, hf])

@[simp] theorem State.jumped_time (s : State) : s.jumped.time = s.time := by
  unfold State.jumped
  dsimp only
  split <;> rfl

@[simp] theorem State.jumped_pending (s : State) : s.jumped.pending = s.pending := by
  unfold State.jumped
  dsimp only
  split <;> rfl

@[simp] theorem State.forward_pending (s : State) (t : TimeSt) : (s.forward t).pending = s.pending := by
  simp only [State.forward, State.jumped_pending, State.setTime_pending]

section
variable {s : State} {t : Tgt}

theorem State.servoW_owner {f : State → State} (h : s.dev.servoOwner t.acc.pt = true) : s.servoW t f = f s := if_pos h

theorem State.servoW_other {f : State → State} (h : ¬ s.dev.servoOwner t.acc.pt = true) :
    s.servoW t f = { s with dev := s.dev.refuse t 0x0101 } := if_neg h

section
variable (ho : s.dev.servoOwner t.acc.pt = true)
include ho

/-! ### The rates, the slew and the kick (R79, R81, R85, R88) -/

theorem State.incrW_sets (hv : incrOk (t.merge s.time.incr)) :
    s.incrW t = s.setTime ({ s.time with incr := t.merge s.time.incr } : TimeSt).update :=
  (State.servoW_owner ho).trans (if_pos hv)

theorem State.incrW_reserved (hv : ¬ incrOk (t.merge s.time.incr)) : s.incrW t = { s with dev := s.dev.logAcc t.acc 0x0001 } :=
  (State.servoW_owner ho).trans (if_neg hv)

theorem State.slewIncrW_sets (hv : incrOk (t.merge s.time.slewIncr)) :
    s.slewIncrW t = s.setTime ({ s.time with slewIncr := t.merge s.time.slewIncr } : TimeSt).update :=
  (State.servoW_owner ho).trans (if_pos hv)

theorem State.slewIncrW_reserved (hv : ¬ incrOk (t.merge s.time.slewIncr)) :
    s.slewIncrW t = { s with dev := s.dev.logAcc t.acc 0x0001 } :=
  (State.servoW_owner ho).trans (if_neg hv)

theorem State.slewCyclesW_sets : s.slewCyclesW t = s.setTime ({ s.time with slewLeft := t.acc.data % p32 } : TimeSt).update :=
  State.servoW_owner ho

theorem State.kickW_updates : s.kickW t = s.setTime s.time.update := State.servoW_owner ho

/-! ### Steps and loads (R82 to R84) -/

/-- A step of more than 2^40 ns is reserved. -/
theorem State.stepW_reserved (h : stepValue t.acc.data < -(2 ^ 40 : Int) ∨ (2 ^ 40 : Int) < stepValue t.acc.data) :
    s.stepW t = { s with dev := s.dev.logAcc t.acc 0x0001 } :=
  (State.servoW_owner ho).trans (if_pos h)

/-- A backward step adds its magnitude to the remaining offset. -/
theorem State.stepW_backward (hlo : -(2 ^ 40 : Int) ≤ stepValue t.acc.data) (hneg : stepValue t.acc.data < 0) :
    s.stepW t =
      s.setTime ({ s.time with remain := s.time.remain + (stepValue t.acc.data).natAbs * nsUnit } : TimeSt).update := by
  have hrange : ¬ (stepValue t.acc.data < -(2 ^ 40 : Int) ∨ (2 ^ 40 : Int) < stepValue t.acc.data) := by omega
  exact (State.servoW_owner ho).trans ((if_neg hrange).trans (if_pos hneg))

theorem State.stepW_forward (hpos : 0 ≤ stepValue t.acc.data) (hhi : stepValue t.acc.data ≤ (2 ^ 40 : Int)) :
    s.stepW t = s.stepUp ((stepValue t.acc.data).natAbs * nsUnit) := by
  have hrange : ¬ (stepValue t.acc.data < -(2 ^ 40 : Int) ∨ (2 ^ 40 : Int) < stepValue t.acc.data) := by omega
  exact (State.servoW_owner ho).trans ((if_neg hrange).trans (if_neg (Int.not_lt.2 hpos)))

/-- A load of an earlier time is refused. -/
theorem State.load1W_earlier (hc : loadCount s.time.load0.toNat t.acc.data < s.nextCount) :
    s.load1W t = { s with dev := s.dev.logAcc t.acc 0x0102 } :=
  (State.servoW_owner ho).trans (if_pos hc)

/-- A load of a time that is not earlier, after the addition of the next cycle. -/
theorem State.load1W_loads (hc : s.nextCount ≤ loadCount s.time.load0.toNat t.acc.data) :
    s.load1W t = s.loadTo (loadCount s.time.load0.toNat t.acc.data) :=
  (State.servoW_owner ho).trans (if_neg (Nat.not_lt.2 hc))

end

/-- A forward offset that the remaining offset holds is taken off it, and the counter stays. -/
theorem State.stepUp_absorbed {n : Nat} (h : n ≤ s.time.remain) :
    s.stepUp n = s.setTime ({ s.time with remain := s.time.remain - n } : TimeSt).update := by
  simp only [State.stepUp, Nat.min_eq_left h, if_true]

/-- What is beyond the remaining offset moves the counter, after the addition of the next cycle. -/
theorem State.stepUp_excess {n : Nat} (h : s.time.remain < n) :
    s.stepUp n = s.forward { ({ s.time with remain := 0 } : TimeSt).update.advance 1 with
      count := (({ s.time with remain := 0 } : TimeSt).update.advance 1).count + (n - s.time.remain) } := by
  simp only [State.stepUp, Nat.min_eq_right (Nat.le_of_lt h), if_neg (Nat.ne_of_gt h), Nat.sub_self]

end

/-- Settles O11: each of the four writes ends as its own equation says. -/
theorem rateWritesComplete : Obligations.RateWritesComplete :=
  ⟨fun _ _ _ _ _ _ hl hc ho hv => State.run_ownWrite hl hc (State.incrW_sets ho hv) (State.setTime_pending _ _),
   fun _ _ _ _ _ _ hl hc ho hv => State.run_ownWrite hl hc (State.slewIncrW_sets ho hv) (State.setTime_pending _ _),
   fun _ _ _ _ hl hc ho => State.run_ownWrite hl hc (State.slewCyclesW_sets ho) (State.setTime_pending _ _),
   fun _ _ _ _ hl hc ho => State.run_ownWrite hl hc (State.kickW_updates ho) (State.setTime_pending _ _)⟩

/-- Settles O12, by the sign of a step and by what of it the remaining offset holds.  That the next cycle runs with the command is
the model's choice (log entry 4), a step of zero as an update and the carry of a load's nanoseconds are its readings (log entries
209, 175). -/
theorem stepsAndLoadsComplete : Obligations.StepsAndLoadsComplete := by
  refine ⟨fun s pt o width v t hl hc ho => ⟨fun hlo hneg => ?backward, fun hpos hhi hle => ?absorbed, fun hpos hhi hlt => ?excess⟩,
    fun s pt v t hl hc ho hload => ?load⟩
  case backward => exact State.run_ownWrite hl hc (State.stepW_backward ho hlo hneg) (State.setTime_pending _ _)
  case absorbed =>
    exact State.run_ownWrite hl hc ((State.stepW_forward ho hpos hhi).trans (State.stepUp_absorbed hle)) (State.setTime_pending _ _)
  case excess =>
    exact State.run_ownWrite hl hc ((State.stepW_forward ho hpos hhi).trans (State.stepUp_excess hlt)) (State.forward_pending _ _)
  case load => exact State.run_ownWrite hl hc (State.load1W_loads ho hload) (State.forward_pending _ _)

/-! ### The range of the rates (R79, R88) -/

/-- A place of the page map that the device answers at. -/
theorem Dev.place_eq {d : Dev} {off : Nat} {l k : Loc} (h : d.place off = some l) (hk : locate off = some k) : l = k := by
  unfold Dev.place at h
  rw [hk] at h
  dsimp only at h
  split at h
  · cases h
  · exact (Option.some.inj h).symm

/-- The place of a register of TIM. -/
def timLoc (x : Nat) : Loc :=
  { blk := .tim, code := 4, inst := 0, page := 0, pages := 1, instBase := 0x30000, pageBase := 0x30000, off := x }

/-- A permitted write to a register of TIM reaches that register. -/
theorem Dev.writeCheck_tim {d : Dev} {pt : Party} {x width v a : Nat} {row : RegRow} {t : Tgt} (hvf : ∀ f, pt ≠ .vf f)
    (hl : locate (reg .tim 0 x) = some (timLoc x)) (hlo : 0x100 ≤ x) (hhi : x < 0x8000) (hr : rowAt rowsTim x = some (row, a))
    (h : d.writeCheck pt (reg .tim 0 x) width v = .ok t) :
    t.acc.pt = pt ∧ t.acc.data = v ∧ t.width = width ∧ t.row = row ∧
      t.half = if width = 4 ∧ row.w64 ∧ reg .tim 0 x % 8 = 4 then 4 else 0 := by
  obtain ⟨l, r, y, k, hp, hrow, rfl, -⟩ := Dev.writeCheck_reaches hvf h
  obtain rfl := Dev.place_eq hp hl
  have hs : spaceOf d pt (timLoc x) = .block := spaceOf_block nofun nofun hlo hhi
  have hat := rowOf_block_active (pt := pt) (l := timLoc x) hhi (by simpa [timLoc, Blk.rows] using hr)
  rw [hs, hat] at hrow
  cases hrow
  simp [mkTgt, Dev.target, hp]

theorem locate_timIncr : locate (reg .tim 0 0x120) = some (timLoc 0x120) := by rfl
theorem locate_timSlewIncr : locate (reg .tim 0 0x138) = some (timLoc 0x138) := by rfl

/-- A whole write of a 64-bit register whose 34 low bits can be written, and which holds no more, leaves these bits of the value. -/
theorem Tgt.merge_rate {t : Tgt} {old : Nat} (hrw : t.row.rw = 0x3FFFFFFFF) (hw1c : t.row.w1c = 0) (hw : t.width = 8) (hh : t.half = 0)
    (hv : t.acc.data < 0x10000000000000000) (ho : old < 0x400000000) :
    t.merge old = t.acc.data % 0x400000000 := by
  have hold : old &&& 0x3FFFFFFFF = old := Nat.and_two_pow_sub_one_of_lt_two_pow (n := 34) ho
  have hmask : 0x3FFFFFFFF &&& t.mask = 0x3FFFFFFFF := by simp [Tgt.mask, hw, hh]
  have hdata : t.data = t.acc.data := by
    simp only [Tgt.data, hw, hh, Nat.mul_zero, Nat.pow_zero, Nat.mul_one]
    exact Nat.mod_eq_of_lt hv
  have hand : t.acc.data &&& 0x3FFFFFFFF = t.acc.data % 0x400000000 := Nat.and_two_pow_sub_one_eq_mod _ 34
  simp only [Tgt.merge, hrw, hw1c, hmask, hold, hdata, hand, Nat.xor_self, Nat.zero_or, Nat.and_zero, Nat.zero_and, Nat.xor_zero]

/-- A write of the servo owner is none of a VF. -/
theorem not_vf_of_servoOwner {d : Dev} {pt : Party} (h : d.servoOwner pt = true) (f : Func) : pt ≠ .vf f := by
  rintro rfl
  cases h

/-- What a permitted 8 B write of the servo owner to a rate register leaves, were it in range: bits [33:0] of the value. -/
theorem rate_written {d : Dev} {pt : Party} {x old : Nat} {v : BitVec 64} {row : RegRow} {t : Tgt} (ho : d.servoOwner pt = true)
    (hl : locate (reg .tim 0 x) = some (timLoc x)) (hlo : 0x100 ≤ x) (hhi : x < 0x8000) (hr : rowAt rowsTim x = some (row, x))
    (hrw : row.rw = 0x3FFFFFFFF) (hw1c : row.w1c = 0) (hold : incrOk old)
    (h : d.writeCheck pt (reg .tim 0 x) 8 v.toNat = .ok t) :
    t.acc.pt = pt ∧ t.merge old = v.toNat % 0x400000000 := by
  obtain ⟨hpt, hdata, hw, rfl, hh⟩ := Dev.writeCheck_tim (not_vf_of_servoOwner ho) hl hlo hhi hr h
  refine ⟨hpt, ?_⟩
  rw [Tgt.merge_rate hrw hw1c hw hh (by rw [hdata]; exact v.isLt) (Nat.lt_of_le_of_lt hold.2 (by decide)), hdata]

theorem incrOk_not {v : Nat} (h : v < 0x80000000 ∨ 0x180000000 < v) : ¬ incrOk v := by
  rintro ⟨hlo, hhi⟩
  omega

/-- Settles O20: the value a permitted write leaves is bits [33:0] of what is written, and the write goes by its range. -/
theorem ratesAcceptTheirRange : Obligations.RatesAcceptTheirRange := by
  rintro s pt v t ⟨hincr, hslew⟩
  constructor
  · rintro ⟨hl, hc⟩ ho
    obtain ⟨rfl, hv⟩ := rate_written ho locate_timIncr (by decide) (by decide) rfl rfl rfl hincr hc
    rw [← hv]
    exact ⟨fun hlo hhi => ⟨_, State.run_ownWrite hl hc (State.incrW_sets ho ⟨hlo, hhi⟩) (State.setTime_pending _ _), by simp⟩,
      fun hout => State.run_ownWrite_dev hl hc (State.incrW_reserved ho (incrOk_not hout))⟩
  · rintro ⟨hl, hc⟩ ho
    obtain ⟨rfl, hv⟩ := rate_written ho locate_timSlewIncr (by decide) (by decide) rfl rfl rfl hslew hc
    rw [← hv]
    exact ⟨fun hlo hhi => ⟨_, State.run_ownWrite hl hc (State.slewIncrW_sets ho ⟨hlo, hhi⟩) (State.setTime_pending _ _), by simp⟩,
      fun hout => State.run_ownWrite_dev hl hc (State.slewIncrW_reserved ho (incrOk_not hout))⟩

end Sys2Proof.Machine
end

section
/-! PROOF. Device time through a step: the rates stay in the range of R79 and the counter never decreases but by a reset to
power-on time (R75, R79, R84 to R86). -/

namespace Sys2Proof.Machine

/-! ### Time states that can follow one another -/

/-- Time goes on from `t` to `u`: rates in range stay in range, and the counter does not decrease. -/
structure TimeSt.GoesOn (t u : TimeSt) : Prop where
  rates : t.RatesOk → u.RatesOk
  count : t.count ≤ u.count

namespace TimeSt.GoesOn

variable {t u v : TimeSt}

/-- A change of anything but the counter and the rates. -/
theorem of_eq (hc : u.count = t.count) (hi : u.incr = t.incr) (hs : u.slewIncr = t.slewIncr) : t.GoesOn u :=
  ⟨fun h => by rwa [TimeSt.RatesOk, hi, hs], Nat.le_of_eq hc.symm⟩

theorem refl (t : TimeSt) : t.GoesOn t := of_eq rfl rfl rfl

theorem trans (h : t.GoesOn u) (k : u.GoesOn v) : t.GoesOn v := ⟨fun hr => k.rates (h.rates hr), Nat.le_trans h.count k.count⟩

/-- A change of the rates to such in range. -/
theorem of_rates (hc : u.count = t.count) (hi : incrOk u.incr) (hs : incrOk u.slewIncr) : t.GoesOn u :=
  ⟨fun _ => ⟨hi, hs⟩, Nat.le_of_eq hc.symm⟩

theorem of_incr (hc : u.count = t.count) (hi : incrOk u.incr) (hs : u.slewIncr = t.slewIncr) : t.GoesOn u :=
  ⟨fun h => ⟨hi, by rw [hs]; exact h.2⟩, Nat.le_of_eq hc.symm⟩

theorem of_slewIncr (hc : u.count = t.count) (hi : u.incr = t.incr) (hs : incrOk u.slewIncr) : t.GoesOn u :=
  ⟨fun h => ⟨by rw [hi]; exact h.1, hs⟩, Nat.le_of_eq hc.symm⟩

/-- A change of the counter to one that is not earlier. -/
theorem of_count (hc : t.count ≤ u.count) (hi : u.incr = t.incr) (hs : u.slewIncr = t.slewIncr) : t.GoesOn u :=
  ⟨fun h => by rwa [TimeSt.RatesOk, hi, hs], hc⟩

end TimeSt.GoesOn

theorem TimeSt.goesOn_update (t : TimeSt) : t.GoesOn t.update := .of_eq rfl rfl rfl

/-- A change of the remaining offset. -/
theorem TimeSt.goesOn_remain (t : TimeSt) (r : Nat) : t.GoesOn { t with remain := r } := .of_eq rfl rfl rfl

theorem TimeSt.count_le_passes (t : TimeSt) (n : Nat) : t.count ≤ (t.passes n).count := by
  simp only [TimeSt.passes, Nat.add_assoc]
  exact Nat.le_add_right _ _

/-- The time clock runs. -/
theorem TimeSt.goesOn_advance (t : TimeSt) (n : Nat) : t.GoesOn (t.advance n) :=
  .of_count (t.count_le_passes _) rfl rfl

theorem TimeSt.goesOn_reach (t : TimeSt) (c : Nat) : t.GoesOn (t.reach c) := t.goesOn_advance _

/-! ### Pulse outputs over a forward step (R113) -/

/-- What a forward step does to the pulse outputs changes nothing else of the time state. -/
theorem tpoJump_time (q : TimeSt × Dev) (n : Nat) : ∃ m, (tpoJump q n).1 = { q.1 with tpo := m } := by
  unfold tpoJump
  dsimp only
  split
  · split
    · split <;> exact ⟨_, rfl⟩
    · exact ⟨_, rfl⟩
  · exact ⟨_, rfl⟩

theorem foldl_tpoJump_time (ns : List Nat) (q : TimeSt × Dev) : ∃ m, (ns.foldl tpoJump q).1 = { q.1 with tpo := m } := by
  induction ns generalizing q with
  | nil => exact ⟨_, rfl⟩
  | cons n ns ih =>
    obtain ⟨m, hm⟩ := ih (tpoJump q n)
    obtain ⟨k, hk⟩ := tpoJump_time q n
    exact ⟨m, by rw [List.foldl_cons, hm, hk]⟩

theorem tpoJumps_time (q : TimeSt × Dev) : ∃ m, (tpoJumps q).1 = { q.1 with tpo := m } := foldl_tpoJump_time _ q

/-! ### Operations of the servo and the clocks -/

/-- The counter moved forward to the time state `t`: what is left is `t` but for the pulse outputs. -/
theorem State.forward_time (s : State) (t : TimeSt) : ∃ m, (s.forward t).time = { t with tpo := m } := by
  obtain ⟨m, hm⟩ := tpoJumps_time (t, { s.dev with ft := s.dev.ft.jump (t.count - (s.time.advance 1).count) })
  exact ⟨m, by rw [State.forward, State.jumped_time, State.setTime_time, hm]⟩

theorem State.goesOn_forward {s : State} {t u : TimeSt} (h : t.GoesOn u) : t.GoesOn (s.forward u).time := by
  obtain ⟨m, hm⟩ := s.forward_time u
  rw [hm]
  exact h.trans (.of_eq rfl rfl rfl)

/-- A load of a time that is not earlier than the counter after the next cycle. -/
theorem State.goesOn_loadTo {s : State} {c : Nat} (h : s.nextCount ≤ c) : s.time.GoesOn (s.loadTo c).time :=
  State.goesOn_forward (.of_count (Nat.le_trans (s.time.goesOn_advance 1).count h) rfl rfl)

theorem State.goesOn_setTime {s : State} {t u : TimeSt} (h : t.GoesOn u) : t.GoesOn (s.setTime u).time := h

theorem State.goesOn_stepUp (s : State) (n : Nat) : s.time.GoesOn (s.stepUp n).time := by
  rcases Nat.lt_or_ge s.time.remain n with h | h
  · rw [State.stepUp_excess h]
    exact State.goesOn_forward ((((TimeSt.goesOn_remain _ 0).trans (TimeSt.goesOn_update _)).trans (TimeSt.goesOn_advance _ 1)).trans
      (.of_count (Nat.le_add_right _ _) rfl rfl))
  · rw [State.stepUp_absorbed h, State.setTime_time]
    exact (TimeSt.goesOn_remain _ _).trans (TimeSt.goesOn_update _)

/-! ### Writes of TIM and TRN -/

/-- Time goes on where it does in either branch. -/
theorem State.goesOn_ite {t : TimeSt} {u v : State} {p : Prop} [Decidable p] (hu : p → t.GoesOn u.time) (hv : ¬ p → t.GoesOn v.time) :
    t.GoesOn (if p then u else v).time := by
  split
  · exact hu ‹_›
  · exact hv ‹_›

section
variable (s : State) (t : Tgt)

/-- A write to a servo register lets time go on where its effect does. -/
theorem State.goesOn_servoW {f : State → State} (h : s.time.GoesOn (f s).time) : s.time.GoesOn (s.servoW t f).time :=
  goesOn_ite (fun _ => h) fun _ => .refl _

theorem State.goesOn_incrW : s.time.GoesOn (s.incrW t).time := by
  unfold State.incrW
  exact s.goesOn_servoW t (goesOn_ite (fun hok => .of_incr rfl hok rfl) fun _ => .refl _)

theorem State.goesOn_slewIncrW : s.time.GoesOn (s.slewIncrW t).time := by
  unfold State.slewIncrW
  exact s.goesOn_servoW t (goesOn_ite (fun hok => .of_slewIncr rfl rfl hok) fun _ => .refl _)

theorem State.goesOn_stepW : s.time.GoesOn (s.stepW t).time := by
  by_cases ho : s.dev.servoOwner t.acc.pt = true
  · by_cases hv : stepValue t.acc.data < -(2 ^ 40 : Int) ∨ (2 ^ 40 : Int) < stepValue t.acc.data
    · rw [stepW_reserved ho hv]
      exact .refl _
    · obtain ⟨hlo, hhi⟩ := not_or.1 hv
      rcases Int.lt_or_le (stepValue t.acc.data) 0 with hneg | hpos
      · rw [stepW_backward ho (Int.not_lt.1 hlo) hneg, setTime_time]
        exact (TimeSt.goesOn_remain _ _).trans (TimeSt.goesOn_update _)
      · rw [stepW_forward ho hpos (Int.not_lt.1 hhi)]
        exact s.goesOn_stepUp _
  · rw [stepW, servoW_other ho]
    exact .refl _

theorem State.goesOn_load0W : s.time.GoesOn (s.load0W t).time := s.goesOn_servoW t (.of_eq rfl rfl rfl)

theorem State.goesOn_load1W : s.time.GoesOn (s.load1W t).time := by
  by_cases ho : s.dev.servoOwner t.acc.pt = true
  · rcases Nat.lt_or_ge (loadCount s.time.load0.toNat t.acc.data) s.nextCount with hc | hc
    · rw [load1W_earlier ho hc]
      exact .refl _
    · rw [load1W_loads ho hc]
      exact goesOn_loadTo hc
  · rw [load1W, servoW_other ho]
    exact .refl _

theorem State.goesOn_slewCyclesW : s.time.GoesOn (s.slewCyclesW t).time := s.goesOn_servoW t (.of_eq rfl rfl rfl)

theorem State.goesOn_kickW : s.time.GoesOn (s.kickW t).time := s.goesOn_servoW t (.of_eq rfl rfl rfl)

theorem State.goesOn_timCtrlW : s.time.GoesOn (s.timCtrlW t).time := by
  unfold State.timCtrlW
  extract_lets old lock locked
  have hlocked : s.time.GoesOn locked.time := goesOn_ite (fun _ => .of_eq rfl rfl rfl) fun _ => .refl _
  exact goesOn_ite (fun _ => hlocked) fun _ => hlocked.trans (.of_eq rfl rfl rfl)

theorem State.goesOn_tpoCtrlW : s.time.GoesOn (s.tpoCtrlW t).time := by
  unfold State.tpoCtrlW
  dsimp only
  split
  · exact .refl _
  split
  · exact .of_eq rfl rfl rfl
  split
  · exact .refl _
  split
  · exact .of_eq rfl rfl rfl
  · exact .refl _

theorem State.goesOn_timW : s.time.GoesOn (s.timW t).time := by
  unfold State.timW
  refine goesOn_ite (fun _ => s.goesOn_timCtrlW t) fun _ => goesOn_ite (fun _ => s.goesOn_incrW t) fun _ =>
    goesOn_ite (fun _ => s.goesOn_stepW t) fun _ => goesOn_ite (fun _ => s.goesOn_slewIncrW t) fun _ =>
    goesOn_ite (fun _ => s.goesOn_slewCyclesW t) fun _ => goesOn_ite (fun _ => s.goesOn_load0W t) fun _ =>
    goesOn_ite (fun _ => s.goesOn_load1W t) fun _ => goesOn_ite (fun _ => s.goesOn_kickW t) fun _ =>
    goesOn_ite ?holdLimit fun _ => goesOn_ite (fun _ => goesOn_ite (fun _ => s.goesOn_tpoCtrlW t) ?tpo) fun _ => goesOn_ite ?tci ?stored
  all_goals exact fun _ => .refl _

@[simp] theorem State.periodW_time : (s.periodW t).time = s.time := by
  unfold State.periodW
  dsimp only
  split
  · rfl
  · split <;> rfl

@[simp] theorem State.trnW_time : (s.trnW t).time = s.time := by
  unfold State.trnW
  split
  · exact s.periodW_time t
  · rfl

/-- The reset value of both rates, 1 ns (R79). -/
theorem incrOk_reset : incrOk 4294967296 := by decide

/-- A RESET of TIM sets the rates to their reset values, and no RESET moves the counter. -/
theorem State.goesOn_instReset (b : Blk) (i : Nat) : s.time.GoesOn (s.instReset b i).time := by
  unfold State.instReset
  dsimp only
  split
  · exact .of_rates rfl incrOk_reset incrOk_reset
  · exact .refl _

theorem State.goesOn_ctrlW : s.time.GoesOn (s.ctrlW t).time := by
  unfold State.ctrlW
  dsimp only
  split
  · exact s.goesOn_instReset _ _
  · exact .refl _

theorem State.goesOn_headerW : s.time.GoesOn (s.headerW t).time := by
  unfold State.headerW
  dsimp only
  split
  · exact s.goesOn_ctrlW t
  · exact .refl _

/-! ### Reads with an effect on the time state -/

theorem State.goesOn_now0Read : s.time.GoesOn (s.now0Read t).1.time := by
  unfold State.now0Read
  dsimp only
  split
  · exact .refl _
  · exact .of_eq rfl rfl rfl

theorem State.goesOn_tciPop (n : Nat) : s.time.GoesOn (s.tciPop n).1.time := by
  unfold State.tciPop
  split
  · exact .of_eq rfl rfl rfl
  · split <;> exact .refl _

theorem State.goesOn_busR : s.time.GoesOn (s.busR t).1.time := by
  unfold State.busR
  split
  · exact .refl _
  split
  · exact s.goesOn_now0Read t
  split
  · exact s.goesOn_tciPop _
  split <;> exact .refl _

end

/-! ### The corrections of the fantail (R91, R95, R99) -/

theorem incrOk_rateOf (x : Nat) : incrOk (rateOf x) := by
  unfold rateOf
  constructor <;> omega

theorem incrOk_clamp (b : Nat) : incrOk (min (max b 0x80000000) 0x180000000) := by
  constructor <;> omega

theorem State.goesOn_ftCorrect (s : State) : s.time.GoesOn s.ftCorrect.time :=
  .of_rates rfl (incrOk_rateOf _) (incrOk_clamp _)

theorem State.goesOn_ftFirst (s : State) (offset : Int) : s.time.GoesOn (s.ftFirst offset).time := by
  unfold State.ftFirst
  dsimp only
  split
  · split
    · rw [State.setTime_time]
      exact TimeSt.goesOn_update _
    · exact State.goesOn_loadTo (by omega)
  · rw [State.setTime_time]
    exact (TimeSt.goesOn_remain _ _).trans (TimeSt.goesOn_update _)

end Sys2Proof.Machine
end

section
/-! PROOF. A step of any command lets time go on or returns it to power-on time (R75, R79, R95, R640). -/

namespace Sys2Proof.Machine

/-! ### A Sync taken by the fantail (R90, R91, R93, R95) -/

/-- A Sync comes from another master, or through another port, than the last. -/
def State.ftOther (s : State) (port : Nat) (master : DWord) : Bool :=
  decide (s.time.ftPort.isSome ∧ (s.time.ftMaster ≠ master ∨ s.time.ftPort ≠ some port))

/-- The offset and the master of a Sync recorded; another master than the last raises an interrupt bit. -/
def State.ftNote (s : State) (port : Nat) (master : DWord) (offset : Int) : State :=
  if s.ftOther port master then
    { s.setTime { s.time with ftOffset := offset, ftMaster := master, ftPort := some port } with
      dev := (s.setTime { s.time with ftOffset := offset, ftMaster := master, ftPort := some port }).dev.raise .tim 0 0 11 }
  else s.setTime { s.time with ftOffset := offset, ftMaster := master, ftPort := some port }

@[simp] theorem State.ftNote_time (s : State) (port : Nat) (master : DWord) (offset : Int) :
    (s.ftNote port master offset).time = { s.time with ftOffset := offset, ftMaster := master, ftPort := some port } := by
  unfold State.ftNote
  split <;> rfl

/-- The threshold of lock in 2^-16 ns. -/
def Dev.ftLimit (d : Dev) : Nat := d.fld (reg .tim 0 0x164) 0 16 * 65536

/-- The lock counts of a Sync, after the correction it makes. -/
def State.ftCounts (s : State) (offset : Int) : TimeSt := lockCounts s.ftCorrect.time s.dev.ftLimit offset

/-- The fantail reports lock, with the counts begun again (R90, R93). -/
def State.ftLock (s : State) (t : TimeSt) : State :=
  let u := s.setTime ({ t with servo := .locked, inLock := 0, outLock := 0 } : TimeSt).lock
  { u with dev := u.dev.raise .tim 0 0 10 }

section
variable {s u : State} {port : Nat} {master : DWord} {offset : Int} (hu : u = s.ftNote port master offset)
include hu

theorem State.ftTakeSync_unset (h : s.time.servo = .unset) : s.ftTakeSync port master offset =
    (u.ftFirst offset).setTime { (u.ftFirst offset).time with servo := .acquiring, inLock := 0, outLock := 0 } := by
  subst hu
  unfold State.ftTakeSync
  extract_lets t
  rw [show t.servo = _ from h]
  rfl

theorem State.ftTakeSync_acquiring (h : s.time.servo = .acquiring) : s.ftTakeSync port master offset =
    if s.ftOther port master then u.ftCorrect.setTime { u.ftCorrect.time with inLock := 0, outLock := 0 }
    else if 16 ≤ (u.ftCounts offset).inLock then u.ftCorrect.ftLock (u.ftCounts offset)
    else u.ftCorrect.setTime (u.ftCounts offset) := by
  subst hu
  unfold State.ftTakeSync
  extract_lets t
  rw [show t.servo = _ from h]
  rfl

theorem State.ftTakeSync_locked (h : s.time.servo = .locked) : s.ftTakeSync port master offset =
    if s.ftOther port master then
      u.ftCorrect.setTime { u.ftCorrect.time with servo := .acquiring, inLock := 0, outLock := 0 }
    else if 4 ≤ (u.ftCounts offset).outLock then
      u.ftCorrect.setTime { u.ftCounts offset with servo := .acquiring, inLock := 0, outLock := 0 }
    else u.ftCorrect.setTime (u.ftCounts offset) := by
  subst hu
  unfold State.ftTakeSync
  extract_lets t
  rw [show t.servo = _ from h]
  rfl

theorem State.ftTakeSync_holdover (h : s.time.servo = .holdover) : s.ftTakeSync port master offset =
    u.ftCorrect.setTime { u.ftCorrect.time with inLock := 0, outLock := 0 } := by
  subst hu
  unfold State.ftTakeSync
  extract_lets t
  rw [show t.servo = _ from h]
  rfl

/-- In COAST and HOST the fantail makes no correction. -/
theorem State.ftTakeSync_other (h : s.time.servo = .coast ∨ s.time.servo = .host) : s.ftTakeSync port master offset = u := by
  subst hu
  unfold State.ftTakeSync
  extract_lets t
  obtain h | h := h <;>
  · rw [show t.servo = _ from h]
    rfl

end

/-- Whatever the servo state, a Sync lets time go on. -/
theorem State.goesOn_ftTakeSync (s : State) (port : Nat) (master : DWord) (offset : Int) :
    s.time.GoesOn (s.ftTakeSync port master offset).time := by
  have hnote : s.time.GoesOn (s.ftNote port master offset).time := by
    rw [ftNote_time]
    exact .of_eq rfl rfl rfl
  have hcorrect := hnote.trans (s.ftNote port master offset).goesOn_ftCorrect
  have hcount : s.time.GoesOn ((s.ftNote port master offset).ftCounts offset) := hcorrect.trans (.of_eq rfl rfl rfl)
  cases h : s.time.servo with
  | unset =>
    rw [ftTakeSync_unset rfl h]
    exact goesOn_setTime ((hnote.trans (goesOn_ftFirst _ _)).trans (.of_eq rfl rfl rfl))
  | acquiring =>
    rw [ftTakeSync_acquiring rfl h]
    exact goesOn_ite (fun _ => hcorrect.trans (.of_eq rfl rfl rfl)) fun _ =>
      goesOn_ite (fun _ => hcount.trans (.of_eq rfl rfl rfl)) fun _ => hcount
  | locked =>
    rw [ftTakeSync_locked rfl h]
    exact goesOn_ite (fun _ => hcorrect.trans (.of_eq rfl rfl rfl)) fun _ =>
      goesOn_ite (fun _ => hcount.trans (.of_eq rfl rfl rfl)) fun _ => hcount
  | holdover =>
    rw [ftTakeSync_holdover rfl h]
    exact hcorrect.trans (.of_eq rfl rfl rfl)
  | coast =>
    rw [ftTakeSync_other rfl (.inl h)]
    exact hnote
  | host =>
    rw [ftTakeSync_other rfl (.inr h)]
    exact hnote

end Sys2Proof.Machine
end

section
/-! PROOF. Device time over a step of any command (R75, R79, R621, R640). -/

namespace Sys2Proof.Machine

/-- The state a command answers has the time state of `s` gone on, or that of power-on. -/
structure TimeGoesOn (s : State) (o : Host.Outcome State Fault Refusal) : Prop where
  of_next : ∀ t, o = .next t → s.time.GoesOn t.time ∨ t.time = {}

namespace TimeGoesOn

variable {s : State}

theorem next {u : State} (h : s.time.GoesOn u.time ∨ u.time = {}) : TimeGoesOn s (.next u) := by
  refine ⟨fun t ht => ?_⟩
  cases ht
  exact h

/-- A command that answers one of two states. -/
theorem ite {u v : State} {p : Prop} [Decidable p] (hu : s.time.GoesOn u.time ∨ u.time = {}) (hv : s.time.GoesOn v.time ∨ v.time = {}) :
    TimeGoesOn s (.next (if p then u else v)) := by
  apply next
  split
  · exact hu
  · exact hv

/-- A command that acts on the device alone, whether it takes it or not. -/
theorem kept {u v : State} {p : Prop} [Decidable p] (hu : u.time = s.time) (hv : v.time = s.time) :
    TimeGoesOn s (.next (if p then u else v)) :=
  ite (.inl (hu ▸ .refl _)) (.inl (hv ▸ .refl _))

/-- A command that acts on time and device. -/
theorem run_or {f : State → State} (h : s.time.GoesOn (f s).time ∨ (f s).time = {}) : TimeGoesOn s (s.run f) :=
  ite h (.inl (.refl _))

theorem run {f : State → State} (h : s.time.GoesOn (f s).time) : TimeGoesOn s (s.run f) := run_or (.inl h)

end TimeGoesOn

/-! ### Accesses -/

/-- A write of a party lets time go on where its effect does. -/
theorem State.goesOn_ownWrite {s : State} {pt : Party} {off width v : Nat} {f : State → Tgt → State}
    (h : ∀ t, s.time.GoesOn (f s t).time) : s.time.GoesOn (s.ownWrite pt off width v f).time := by
  unfold State.ownWrite
  split
  · exact .refl _
  · exact h _

/-- A read of a party lets time go on where its effect does. -/
theorem State.goesOn_ownRead {s : State} {pt : Party} {off width : Nat} {f : State → Tgt → State × Nat}
    (h : ∀ d t, s.time.GoesOn (f { s with dev := d } t).1.time) : s.time.GoesOn (s.ownRead pt off width f).time := by
  unfold State.ownRead
  split
  · exact h _ _
  · exact .refl _

/-- A write of FWC_CTRL is the one register write that can return time to that of power-on: REBOOT (R600, R615). -/
theorem State.fwcCtrl_time (s : State) (v : Nat) : (s.fwcCtrl v).time = s.time ∨ (s.fwcCtrl v).time = {} := by
  unfold State.fwcCtrl
  split
  · exact .inr rfl
  · exact .inl rfl

theorem State.goesOn_busW (s : State) (t : Tgt) : s.time.GoesOn (s.busW t).time ∨ (s.busW t).time = {} := by
  unfold State.busW
  split
  · exact .inl (s.goesOn_headerW t)
  · split
    · exact .inl (s.goesOn_timW t)
    · rw [trnW_time]
      exact .inl (.refl _)
    · split
      · exact (s.fwcCtrl_time _).imp_left fun h => by rw [h]; exact .refl _
      · exact .inl (.refl _)
    · exact .inl (.refl _)
  all_goals exact .inl (.refl _)

theorem State.goesOn_busWrite (s : State) (pt : Party) (off width v : Nat) :
    s.time.GoesOn (s.busWrite pt off width v).time ∨ (s.busWrite pt off width v).time = {} := by
  unfold State.busWrite State.ownWrite
  split
  · exact .inl (.refl _)
  · split
    · exact .inl (.refl _)
    · exact s.goesOn_busW _

theorem State.goesOn_busRead (s : State) (pt : Party) (off width : Nat) : s.time.GoesOn (s.busRead pt off width).1.time := by
  unfold State.busRead
  split
  · exact .refl _
  · split
    · next d t _ => exact goesOn_busR { s with dev := d } t
    · exact .refl _

theorem TimeGoesOn.busWrite {s : State} {pt : Party} {off width v : Nat} : TimeGoesOn s (s.run fun s => s.busWrite pt off width v) :=
  .run_or (s.goesOn_busWrite _ _ _ _)

theorem TimeGoesOn.ownWrite {s : State} {pt : Party} {off width v : Nat} {f : State → Tgt → State}
    (h : ∀ t, s.time.GoesOn (f s t).time) : TimeGoesOn s (s.run fun s => s.ownWrite pt off width v f) :=
  .run (State.goesOn_ownWrite h)

/-! ### Commands that act on time by more than one of the operations above -/

theorem execRegAccess_timeGoesOn (dr : BitVec 62) (s : State) : TimeGoesOn s (execRegAccess dr s) := by
  unfold execRegAccess
  split
  · exact .kept rfl rfl
  · have hw := State.goesOn_busWrite { s with dev := (s.dev.tapLoad 0x20).tapCapture } (.core 0) (bitsOf dr.toNat 32 28) 4
      (dr.toNat % p32)
    have hr := State.goesOn_busRead { s with dev := (s.dev.tapLoad 0x20).tapCapture } (.core 0) (bitsOf dr.toNat 32 28) 4
    cases hb : bitOf dr.toNat 60 with
    | true => exact .run_or (by simp only [hb, if_true]; exact hw)
    | false => exact .run (by simp only [hb, Bool.false_eq_true, if_false]; exact hr)

theorem execRefLost_timeGoesOn (s : State) : TimeGoesOn s (execRefLost s) := by
  unfold execRefLost
  split
  · exact .next (.inl (.refl _))
  · exact .run (State.goesOn_ite (fun _ => .of_eq rfl rfl rfl) fun _ => .refl _)

theorem execVinOutOfRange_timeGoesOn (mv : Nat) (s : State) : TimeGoesOn s (execVinOutOfRange mv s) := by
  unfold execVinOutOfRange
  split <;> exact .kept rfl rfl

theorem execReboot_timeGoesOn (pt : Party) (v : BitVec 32) (s : State) : TimeGoesOn s (execReboot pt v s) := by
  refine .run_or ?_
  split
  · exact .inl (.refl _)
  · exact (s.fwcCtrl_time _).imp_left fun h => by rw [h]; exact .refl _

theorem TimeSt.goesOn_setTpo (t : TimeSt) (n : Nat) (o : TpoSt) : t.GoesOn (t.setTpo n o) := .of_eq rfl rfl rfl

theorem execTpoEdge_timeGoesOn (n : Nat) (s : State) : TimeGoesOn s (execTpoEdge n s) := by
  refine .run ?_
  split
  · exact State.goesOn_setTime ((s.time.goesOn_reach _).trans (TimeSt.goesOn_setTpo _ _ _))
  · exact .refl _

theorem execTpoPulseEnd_timeGoesOn (n : Nat) (s : State) : TimeGoesOn s (execTpoPulseEnd n s) := by
  refine .run ?_
  split
  · have hgo := fun c o => (s.time.goesOn_reach c).trans (TimeSt.goesOn_setTpo _ n o)
    exact State.goesOn_ite (fun _ => hgo _ _) fun _ => hgo _ _
  · exact .refl _

theorem execFantailSync_timeGoesOn (port : Nat) (sender : BitVec 80) (seq : BitVec 16) (s : State) :
    TimeGoesOn s (execFantailSync port sender seq s) := by
  have htake : ∀ (u : State) n m o, u.time = s.time → s.time.GoesOn (u.ftTakeSync n m o).time :=
    fun u n m o hu => hu ▸ u.goesOn_ftTakeSync n m o
  refine .run ?_
  cases hq : s.dev.ft.readySync port sender.toNat seq.toNat with
  | none =>
    simp only [hq]
    exact .refl _
  | some q =>
    simp only [hq]
    refine State.goesOn_ite (fun _ => .refl _) fun _ => ?_
    split
    · exact htake _ _ _ _ rfl
    · exact .refl _

theorem execTciEdge_timeGoesOn (n : Nat) (rising : Bool) (s : State) : TimeGoesOn s (execTciEdge n rising s) :=
  .run (State.goesOn_ite (fun _ => .refl _) fun _ => State.goesOn_ite (fun _ => .of_eq rfl rfl rfl) fun _ => .refl _)

theorem execTimNowCapture_timeGoesOn (pt : Party) (width : Nat) (s : State) : TimeGoesOn s (execTimNowCapture pt width s) :=
  .run (State.goesOn_ownRead fun d t => State.goesOn_now0Read { s with dev := d } t)

theorem execTciRead_timeGoesOn (pt : Party) (n width : Nat) (s : State) : TimeGoesOn s (execTciRead pt n width s) :=
  .run (State.goesOn_ownRead fun d _ => State.goesOn_tciPop { s with dev := d } _)

theorem execHoldoverTimeout_timeGoesOn (s : State) : TimeGoesOn s (execHoldoverTimeout s) :=
  .run (State.goesOn_ite (fun _ => .refl _) fun _ => .of_eq rfl rfl rfl)

theorem execHoldLimitExpire_timeGoesOn (s : State) : TimeGoesOn s (execHoldLimitExpire s) :=
  .run (State.goesOn_ite (fun _ => .of_eq rfl rfl rfl) fun _ => .refl _)

theorem execSlewDone_timeGoesOn (s : State) : TimeGoesOn s (execSlewDone s) :=
  .run (State.goesOn_ite (fun _ => .refl _) fun _ => s.time.goesOn_advance _)

theorem execAbsorbDone_timeGoesOn (s : State) : TimeGoesOn s (execAbsorbDone s) :=
  .run (State.goesOn_ite (fun _ => .refl _) fun _ => s.time.goesOn_advance _)

theorem execTurnBoundary_timeGoesOn (cycles : Nat) (s : State) : TimeGoesOn s (execTurnBoundary cycles s) :=
  .run (State.goesOn_ite (fun _ => s.time.goesOn_advance _) fun _ => s.time.goesOn_advance _)

theorem execRefAccepted_timeGoesOn (s : State) : TimeGoesOn s (execRefAccepted s) :=
  .run (State.goesOn_ite (fun _ => .of_eq rfl rfl rfl) fun _ => .refl _)

/-! ### Every command -/

/-- Writes of registers and of the servo, reads of the latches and the FIFOs, events of time and the resets each keep time going or
return it to that of power-on; every other command acts on the device alone. -/
theorem exec_timeGoesOn (c : Instr) (s : State) : TimeGoesOn s (exec c s) := by
  cases c with
  | registerWrite | pgEnableWrite | pgQuiesceWrite | pgReset | pgIntForce | pgIntStatusClear | pgIntEnableWrite | pgIntRouteWrite
    | errLogClear => exact .busWrite
  | timNowCapture => exact execTimNowCapture_timeGoesOn _ _ s
  | timIncrWrite => exact .ownWrite s.goesOn_incrW
  | timSlewIncrWrite => exact .ownWrite s.goesOn_slewIncrW
  | timStep => exact .ownWrite s.goesOn_stepW
  | timLoad => exact .ownWrite s.goesOn_load1W
  | timSlewStart => exact .ownWrite s.goesOn_slewCyclesW
  | servoKick => exact .ownWrite s.goesOn_kickW
  | timOwnerChange | validSet => exact .ownWrite s.goesOn_timCtrlW
  | tpoEnable => exact .ownWrite s.goesOn_tpoCtrlW
  | periodChange => exact .ownWrite fun t => by rw [State.periodW_time]; exact .refl _
  | slewDone => exact execSlewDone_timeGoesOn s
  | absorbDone => exact execAbsorbDone_timeGoesOn s
  | holdoverTimeout => exact execHoldoverTimeout_timeGoesOn s
  | holdLimitExpire => exact execHoldLimitExpire_timeGoesOn s
  | fantailSync => exact execFantailSync_timeGoesOn _ _ _ s
  | tpoEdge => exact execTpoEdge_timeGoesOn _ s
  | tpoPulseEnd => exact execTpoPulseEnd_timeGoesOn _ s
  | tciEdge => exact execTciEdge_timeGoesOn _ _ s
  | tciRead => exact execTciRead_timeGoesOn _ _ _ s
  | turnBoundary => exact execTurnBoundary_timeGoesOn _ s
  | refAccepted => exact execRefAccepted_timeGoesOn s
  | refLost => exact execRefLost_timeGoesOn s
  | vinOutOfRange => exact execVinOutOfRange_timeGoesOn _ s
  | regAccess => exact execRegAccess_timeGoesOn _ s
  | reboot => exact execReboot_timeGoesOn _ _ s
  | brownOut => exact .ite (.inl (.refl _)) (.inr rfl)
  | por | thermalTrip | deviceReset => exact .ite (.inl (.refl _)) (.inr rfl)
  | sysRstNRelease => exact .next (.inl (.refl _))
  | _ => exact .kept rfl rfl

/-- A step lets time go on, by a command or by a cycle of the time clock, or returns it to that of power-on. -/
theorem step_timeGoesOn (s : State) : TimeGoesOn s (step s) := by
  unfold step
  split
  · exact .next (.inl (State.goesOn_ite (fun _ => s.time.goesOn_advance 1) fun _ => .refl _))
  · next c cs _ => exact ⟨(exec_timeGoesOn c { s with pending := cs }).of_next⟩

/-- The rates of power-on time lie in the range of R79. -/
theorem TimeSt.ratesOk_powerOn : ({} : TimeSt).RatesOk := ⟨incrOk_reset, incrOk_reset⟩

/-- Settles O7: where time goes on the rates stay in range, and those of power-on are. -/
theorem stepKeepsRates : Obligations.StepKeepsRates := by
  intro s t hs ht
  obtain h | h := (step_timeGoesOn s).of_next t ht
  · exact h.rates hs
  · rw [State.Inv, h]
    exact TimeSt.ratesOk_powerOn

/-- Settles O8, by `step_timeGoesOn`. -/
theorem timeNeverDecreases : Obligations.TimeNeverDecreases :=
  fun s t ht => ((step_timeGoesOn s).of_next t ht).imp_left TimeSt.GoesOn.count

end Sys2Proof.Machine
end

section
/-! PROOF. The latches of the parties, pulse outputs and capture inputs (R78, R110 to R116). -/

namespace Sys2Proof.Machine

/-! ### What a command leaves of the time state -/

/-- The time state after a command that acts on time and device. -/
theorem State.run_time {s : State} {f : State → State} {t : TimeSt} (hl : s.live = true) (h : (f s).time = t) :
    ∃ u, s.run f = .next u ∧ u.time = t :=
  ⟨{ f s with dev := (f s).dev.settle, pending := s.pending }, by simp only [State.run, hl, if_true], h⟩

/-- The time state after a read of a party that reaches a register. -/
theorem State.run_ownRead_time {s : State} {pt : Party} {off width : Nat} {d : Dev} {t : Tgt} {f : State → Tgt → State × Nat}
    {v : TimeSt} (hl : s.live = true) (h : s.dev.readCheck pt off width = (d, some t)) (hv : (f { s with dev := d } t).1.time = v) :
    ∃ u, s.run (fun s => s.ownRead pt off width f) = .next u ∧ u.time = v :=
  State.run_time hl (by simp only [State.ownRead, h, hv])

/-! ### The latches (R78) -/

/-- A read that includes the low word captures the counter into the latch of its party. -/
theorem State.now0Read_captures {s : State} {t : Tgt} (h : t.half ≠ 4) : (s.now0Read t).1.time =
    { s.time with latches := s.time.latches.set (partyOrder t.acc.pt) s.time.count 0 } := by
  simp only [State.now0Read, if_neg h]

/-! ### Pulse outputs (R110 to R112) -/

/-- An output enabled with a good configuration and START not in the past is scheduled to START. -/
theorem State.tpoCtrlW_schedules {s : State} {t : Tgt} (hwas : s.dev.bit (tpoReg (tpoNum t.x)) 0 = false)
    (hon : (s.dev.store t).bit (tpoReg (tpoNum t.x)) 0 = true) (hok : (s.dev.store t).tpoOk (tpoNum t.x) = true)
    (hstart : s.time.count ≤ (s.dev.store t).tpoStart (tpoNum t.x)) : s.tpoCtrlW t =
      { s with dev := s.dev.store t,
               time := s.time.setTpo (tpoNum t.x) { next := some ((s.dev.store t).tpoStart (tpoNum t.x)) } } := by
  simp only [State.tpoCtrlW, hwas, hon, hok, firstEdge, if_pos hstart, Bool.not_true, Bool.false_eq_true, Bool.true_eq_false, if_false]

/-! ### Capture inputs (R114 to R116) -/

/-- A read of a FIFO that holds captures takes the oldest. -/
theorem State.tciPop_oldest {s : State} {n : Nat} {e : TciEntry} {q : List TciEntry} (h : s.time.fifo n = e :: q) :
    (s.tciPop n).1.time = { s.time with tciFifo := s.time.tciFifo.set n q [], tciHold := s.time.tciHold.put n e } := by
  simp only [State.tciPop, h]

/-- Settles O15, by the command each clause is about.  That the time clock runs up to the edge, and that an edge is captured with the
exact count and never lost, are the model's choices (log entries 37, 176). -/
theorem captureAndPulseComplete : Obligations.CaptureAndPulseComplete := by
  refine ⟨?latch, ?enable, ?edge, ?pulseEnd, ?capture, ?read⟩
  case latch =>
    rintro s pt width d t hl hc hh rfl
    exact State.run_ownRead_time hl hc (State.now0Read_captures (by rw [hh]; decide))
  case enable =>
    exact fun s pt n v t hl hc hwas hon hok hstart => State.run_ownWrite hl hc (State.tpoCtrlW_schedules hwas hon hok hstart) rfl
  case edge =>
    intro s n e hl he
    simp only [exec, execTpoEdge]
    exact State.run_of hl (by simp only [he]) (State.setTime_pending _ _)
  case pulseEnd =>
    intro s n e hl he
    simp only [exec, execTpoPulseEnd]
    refine State.run_time hl ?_
    simp only [he]
    split <;> rfl
  case capture =>
    intro s n rising hl hb hq
    simp only [exec, execTciEdge]
    refine State.run_time hl ?_
    simp only [hb, Bool.not_true, Bool.false_eq_true, if_false, if_pos hq]
  case read =>
    exact fun s pt n width d t e q hl hc hf => State.run_ownRead_time hl hc (State.tciPop_oldest hf)

end Sys2Proof.Machine
end

section
/-! PROOF. What a change of the time state does to the device: interrupts and LOCAL_ONLY, and nothing else (R61, R90, R128), so
also a step on an empty queue; and the state at reset. -/

namespace Sys2Proof.Machine

/-! ### An interrupt writes registers, sends, and marks vectors (R61 to R63) -/

/-- `e` is `d` but for registers, what has been sent, and the state of the vectors. -/
def Dev.Notified (d e : Dev) : Prop := ∃ r o m, e = { d with regs := r, out := o, msix := m }

theorem Dev.Notified.refl (d : Dev) : d.Notified d := ⟨_, _, _, rfl⟩

theorem Dev.Notified.trans {d e f : Dev} (h : d.Notified e) (k : e.Notified f) : d.Notified f := by
  obtain ⟨_, _, _, rfl⟩ := h
  obtain ⟨r, o, m, rfl⟩ := k
  exact ⟨r, o, m, rfl⟩

theorem Dev.notified_wr (d : Dev) (k : Nat) (v : Word) : d.Notified (d.wr k v) := ⟨_, _, _, rfl⟩

theorem Dev.notified_msixSend (d : Dev) (f : Func) (vec : Nat) : d.Notified (d.msixSend f vec) := by
  unfold Dev.msixSend
  dsimp only
  split
  · exact .refl _
  · split <;> exact ⟨_, _, _, rfl⟩

theorem Dev.notified_pageMsg (d : Dev) (page : Nat) : d.Notified (d.pageMsg page) := by
  unfold Dev.pageMsg Dev.routeMsg
  dsimp only
  split
  · split
    · exact d.notified_msixSend _ _
    · exact (d.notified_wr _ _).trans (Dev.notified_msixSend _ _ _)
  · exact .refl _

theorem Dev.notified_setInts (d : Dev) (page mask : Nat) : d.Notified (d.setInts page mask) := by
  unfold Dev.setInts
  split
  · exact .refl _
  · rw [Dev.setInt_eq]
    split
    · exact (d.notified_wr _ _).trans (Dev.notified_pageMsg _ _)
    · exact d.notified_wr _ _

/-- A change of the time state notifies, and sets LOCAL_ONLY. -/
theorem State.setTime_notifies (s : State) (t : TimeSt) :
    ∃ d, s.dev.Notified d ∧ (s.setTime t).dev = { d with localOnly := t.suspect s.dev.holdLimit } :=
  ⟨_, (Dev.notified_setInts _ _ _).trans (Dev.notified_setInts _ _ _), rfl⟩

/-- Settles O2, by whether the device is live: a cycle of the time clock only notifies.  The cycle itself is the model's choice (log
entry 2). -/
theorem idleStepTicks : Obligations.IdleStepTicks := by
  intro s hq
  have hstep : step s = .next s.tick := by
    unfold step
    rw [hq]
  constructor
  · intro hl
    obtain ⟨_, ⟨r, o, m, rfl⟩, hd⟩ := s.setTime_notifies (s.time.advance 1)
    exact ⟨s.setTime (s.time.advance 1), hstep.trans (by rw [State.tick, if_pos hl]), rfl, hq, by rw [hd], by rw [hd], by rw [hd],
      by rw [hd], by rw [hd]⟩
  · intro hl
    rw [hstep, State.tick, hl, if_neg Bool.false_ne_true]

/-- Settles O6: at reset time is that of power-on. -/
theorem ratesHoldAtReset : Obligations.RatesHoldAtReset := ⟨TimeSt.ratesOk_powerOn, rfl, rfl⟩

/-! ### Registers over a change of the time state -/

theorem Dev.rd_setInts_ne (d : Dev) (page mask : Nat) {k : Nat} (hk : k ≠ page + 0x20) (ho : k ≠ reg .sys 0 0x204) :
    (d.setInts page mask).rd k = d.rd k := by
  unfold Dev.setInts
  split
  · rfl
  · exact d.rd_setInt_ne page mask hk ho

/-- A change of the time state writes no register but PG_INT_STATUS of TIM and TRN, and the overflow word of SYS. -/
theorem State.rd_setTime (s : State) (t : TimeSt) {k : Nat} (htim : k ≠ pageOf .tim 0 0 + 0x20) (htrn : k ≠ pageOf .trn 0 0 + 0x20)
    (ho : k ≠ reg .sys 0 0x204) : (s.setTime t).dev.rd k = s.dev.rd k :=
  (Dev.rd_setInts_ne _ _ _ htrn ho).trans (Dev.rd_setInts_ne _ _ _ htim ho)

theorem State.setTime_ftLimit (s : State) (t : TimeSt) : (s.setTime t).dev.ftLimit = s.dev.ftLimit := by
  simp only [Dev.ftLimit, Dev.fld, Dev.rdN, s.rd_setTime t (k := reg .tim 0 0x164) (by decide) (by decide) (by decide)]

end Sys2Proof.Machine
end

section
/-! PROOF. The fantail takes a Sync and sends a message (R93 to R99). -/

namespace Sys2Proof.Machine

/-! ### The corrections of the fantail (R95, R99) -/

/-- A correction sets rates and slew, and nothing else but what a servo update does. -/
theorem State.ftCorrect_time (s : State) :
    ∃ i j k, s.ftCorrect.time = ({ s.time with incr := i, slewIncr := j, slewLeft := k } : TimeSt).update := ⟨_, _, _, rfl⟩

/-- A servo update with the counter, the remaining offset, the slew and the pulse outputs given. -/
def TimeSt.moved (t : TimeSt) (count remain slewLeft : Nat) (tpo : NMap TpoSt) : TimeSt :=
  { t.update with count := count, remain := remain, slewLeft := slewLeft, tpo := tpo }

/-- The first offset in UNSET moves the counter or the remaining offset, and the pulse outputs and the slew with the counter. -/
theorem State.ftFirst_time (s : State) (offset : Int) : ∃ c r k m, (s.ftFirst offset).time = s.time.moved c r k m := by
  unfold State.ftFirst
  dsimp only
  split
  · split
    · exact ⟨_, _, _, _, rfl⟩
    · generalize (s.time.count + offset.natAbs * 65536) / nsUnit * nsUnit = c
      obtain ⟨m, hm⟩ := s.forward_time ({ s.time.advance 1 with count := c, remain := 0 } : TimeSt).update
      exact ⟨c, 0, (s.time.advance 1).slewLeft, m, hm⟩
  · generalize s.time.remain + min (offset.natAbs / 65536) (2 ^ 40) * nsUnit = r
    exact ⟨s.time.count, r, s.time.slewLeft, s.time.tpo, rfl⟩

/-! ### A Sync by the state of the servo (R93, R95) -/

section
variable {s : State} {port : Nat} {master : DWord} {offset : Int}

theorem State.ftOther_same (h : s.time.ftPort = some port ∧ s.time.ftMaster = master) : s.ftOther port master = false := by
  simp [State.ftOther, h.1, h.2]

/-- A Sync of the same master leaves the threshold of lock. -/
theorem State.ftNote_ftLimit (h : s.ftOther port master = false) : (s.ftNote port master offset).dev.ftLimit = s.dev.ftLimit := by
  simp only [State.ftNote, h, Bool.false_eq_true, if_false, State.setTime_ftLimit]

/-- In UNSET a Sync starts ACQUIRING. -/
theorem State.ftTakeSync_unset_time (h : s.time.servo = .unset) {u : TimeSt} (hu : u = (s.ftTakeSync port master offset).time) :
    u.servo = .acquiring ∧ u.ftOffset = offset ∧ u.ftMaster = master ∧ u.ftPort = some port ∧ u.incr = s.time.incr := by
  obtain ⟨c, r, k, m, hf⟩ := (s.ftNote port master offset).ftFirst_time offset
  rw [ftTakeSync_unset rfl h, setTime_time, hf, ftNote_time] at hu
  subst hu
  exact ⟨rfl, rfl, rfl, rfl, rfl⟩

/-- A Sync of the same master leaves its offset, the counter and VALID; its lock counts are those before it, each gone on by one or
begun again. -/
theorem State.ftCounts_same (h : s.ftOther port master = false) {u : TimeSt} (hu : u = (s.ftNote port master offset).ftCounts offset) :
    u.inLock = (if offset.natAbs ≤ s.dev.ftLimit then s.time.inLock + 1 else 0) ∧
    u.outLock = (if 10 * s.dev.ftLimit < offset.natAbs then s.time.outLock + 1 else 0) ∧
    u.ftOffset = offset ∧ u.count = s.time.count ∧ u.valid = s.time.valid := by
  obtain ⟨i, j, k, hc⟩ := (s.ftNote port master offset).ftCorrect_time
  rw [ftCounts, ftNote_ftLimit h, hc, ftNote_time] at hu
  subst hu
  exact ⟨rfl, rfl, rfl, rfl, rfl⟩

/-- In ACQUIRING the sixteenth Sync in a row within the threshold locks. -/
theorem State.ftTakeSync_locks (h : s.time.servo = .acquiring) (hsame : s.ftOther port master = false)
    (hin : offset.natAbs ≤ s.dev.ftLimit) (h15 : s.time.inLock = 15) {u : TimeSt} (hu : u = (s.ftTakeSync port master offset).time) :
    u.servo = .locked ∧ u.valid = true ∧ u.ftOffset = offset ∧ u.lossSinceLock = false ∧ u.count = s.time.count := by
  obtain ⟨hn, -, ho, hc, -⟩ := ftCounts_same (offset := offset) hsame rfl
  rw [if_pos hin, h15] at hn
  rw [ftTakeSync_acquiring rfl h, hsame, if_neg Bool.false_ne_true, if_pos (Nat.le_of_eq hn.symm)] at hu
  subst hu
  exact ⟨rfl, rfl, ho, rfl, hc⟩

/-- In LOCKED the fourth Sync in a row beyond ten times the threshold goes back to ACQUIRING. -/
theorem State.ftTakeSync_unlocks (h : s.time.servo = .locked) (hsame : s.ftOther port master = false)
    (hout : 10 * s.dev.ftLimit < offset.natAbs) (h3 : s.time.outLock = 3) {u : TimeSt} (hu : u = (s.ftTakeSync port master offset).time) :
    u.servo = .acquiring ∧ u.ftOffset = offset ∧ u.valid = s.time.valid ∧ u.count = s.time.count := by
  obtain ⟨-, hn, ho, hc, hv⟩ := ftCounts_same (offset := offset) hsame rfl
  rw [if_pos hout, h3] at hn
  rw [ftTakeSync_locked rfl h, hsame, if_neg Bool.false_ne_true, if_pos (Nat.le_of_eq hn.symm)] at hu
  subst hu
  exact ⟨rfl, ho, hv, hc⟩

end

/-- The Sync message `y` leaves the messages received, and is the last one used. -/
def State.ftUses (s : State) (y : FtSync) (rest : List FtSync) : State :=
  { s with dev := { s.dev with ft := { s.dev.ft with ready := rest, last := some y } } }

/-- FANTAIL_SYNC uses a complete Sync of the master selected. -/
theorem exec_fantailSync {s : State} {port : Nat} {sender : BitVec 80} {seq : BitVec 16} {y : FtSync} {rest : List FtSync} {m : FtMaster}
    (hl : s.live = true) (hr : s.dev.fantailRuns = true)
    (hq : s.dev.ft.readySync port sender.toNat seq.toNat = some (y, rest)) (hm : s.dev.ftFrom y = some m) :
    ∃ t, exec (.fantailSync port sender seq) s = .next t ∧
      t.time = ((s.ftUses y rest).ftTakeSync y.port (w64 (beNat m.gm)) (s.dev.ft.offset y)).time := by
  simp only [exec, execFantailSync]
  exact State.run_time hl (by simp only [hq, hr, hm, Bool.not_true, Bool.false_eq_true, if_false]; rfl)

/-! ### Messages sent (R96, R97) -/

section
variable {s : State} {n : Nat} (hl : s.live = true) (hr : s.dev.fantailRuns = true) (hn : s.dev.ftPortOn n = true)
include hl hr hn

/-- A delay request goes toward the master selected. -/
theorem exec_fantailSend_delayReq {m : FtMaster} (hp : s.dev.ftPeerDelay = false) (hb : s.dev.ft.best = some m) (hm : m.port = n) :
    exec (.fantailSend (.delayReq n)) s = .next (s.endsWith (s.dev.ftDelayReq n)) := by
  simp only [exec, execFantailSend]
  exact State.act_of hl (by simp [hr, hn, hp, hb, hm])

theorem exec_fantailSend_peerReq (hp : s.dev.ftPeerDelay = true) :
    exec (.fantailSend (.peerReq n)) s = .next (s.endsWith (s.dev.ftPeerReq n)) := by
  simp only [exec, execFantailSend]
  exact State.act_of hl (by simp [hr, hn, hp])

/-- The oldest peer request not answered is answered. -/
theorem exec_fantailSend_peerResp {x : FtPeer} {rest : List FtPeer} (hx : s.dev.ft.peerOf n (fun x => !x.sent) = some (x, rest)) :
    exec (.fantailSend (.peerResp n)) s = .next (s.endsWith (s.dev.ftPeerResp n x rest)) := by
  simp only [exec, execFantailSend]
  exact State.act_of hl (by simp [hr, hn, hx])

/-- The oldest answer that has left is followed up. -/
theorem exec_fantailSend_peerFollowUp {x : FtPeer} {rest : List FtPeer} {t : Ts}
    (hx : s.dev.ft.peerOf n (fun x => x.left.isSome) = some (x, rest)) (ht : x.left = some t) :
    exec (.fantailSend (.peerFollowUp n)) s = .next (s.endsWith (s.dev.ftPeerFollowUp n x t rest)) := by
  simp only [exec, execFantailSend]
  exact State.act_of hl (by simp [hr, hn, hx, ht])

end

/-- Settles O16: a Sync by the state of the servo, a message by its kind.  That the Sync which starts ACQUIRING is not one of the
consecutive ones is the model's choice (log entry 178). -/
theorem fantailCompletes : Obligations.FantailCompletes := by
  constructor
  · intro s port sender seq y rest m hl hr hq hm o lim same
    obtain ⟨t, ht, htime⟩ := exec_fantailSync hl hr hq hm
    refine ⟨fun h => ?unset, fun h hsame hin h15 => ?acquiring, fun h hsame hout h3 => ?locked⟩
    case unset =>
      obtain ⟨hservo, hoff, hmaster, hport, hincr⟩ := State.ftTakeSync_unset_time (s := s.ftUses y rest) h htime
      exact ⟨t, ht, hservo, hoff, hmaster, hport, hincr, htime ▸ ((s.ftUses y rest).goesOn_ftTakeSync _ _ _).count⟩
    case acquiring =>
      exact ⟨t, ht, State.ftTakeSync_locks (s := s.ftUses y rest) h (State.ftOther_same (s := s.ftUses y rest) hsame) hin h15 htime⟩
    case locked =>
      exact ⟨t, ht, State.ftTakeSync_unlocks (s := s.ftUses y rest) h (State.ftOther_same (s := s.ftUses y rest) hsame) hout h3 htime⟩
  · exact fun s n hl hr hn => ⟨fun m => exec_fantailSend_delayReq hl hr hn, exec_fantailSend_peerReq hl hr hn,
      fun x rest => exec_fantailSend_peerResp hl hr hn, fun x rest t => exec_fantailSend_peerFollowUp hl hr hn⟩

end Sys2Proof.Machine
end

section
/-! PROOF. The reference: its judgement, its acceptance and its loss (R619 to R626). -/

namespace Sys2Proof.Machine

section
variable {s : State}

/-! ### The judgement (R619, R620) -/

section
variable {iosc : Nat} {d : Dev} (hl : s.live = true) (hup : s.dev.refUp = false) (hlock : s.dev.locking = false)
  (hj : s.dev.bit clkStatus 1 = true → s.dev.bit clkStatus 2 = true) (hd : d = s.dev.setFld clkStatus 2 1 1)
include hl hup hlock hj hd

/-- The sixty-fourth good window lets the PLLs lock. -/
theorem exec_judgeWindow_last (hlo : 41524 ≤ iosc) (hhi : iosc ≤ 42362) (hn : s.dev.windows = 63) :
    exec (.judgeWindow iosc) s = .next (s.endsWith
      ((({ d with windows := 0, locking := true } : Dev).setFld clkStatus 2 1 0).wrN (reg .clk 0 0x104) 64)) := by
  subst hd
  simp only [exec, execJudgeWindow]
  refine State.act_of hl ?_
  rw [if_neg (by simpa [hup, hlock] using hj), if_pos (And.intro hlo hhi), if_pos hn]

/-- A good window before it is counted. -/
theorem exec_judgeWindow_good (hlo : 41524 ≤ iosc) (hhi : iosc ≤ 42362) (hn : s.dev.windows ≠ 63) :
    exec (.judgeWindow iosc) s = .next (s.endsWith { d with windows := s.dev.windows + 1 }) := by
  subst hd
  simp only [exec, execJudgeWindow]
  refine State.act_of hl ?_
  rw [if_neg (by simpa [hup, hlock] using hj), if_pos (And.intro hlo hhi), if_neg hn]

/-- A window out of range fails the judgement. -/
theorem exec_judgeWindow_bad (hout : iosc < 41524 ∨ 42362 < iosc) :
    exec (.judgeWindow iosc) s = .next (s.endsWith
      (({ d with windows := 0 } : Dev).wrN (reg .clk 0 0x104) (s.dev.windows + 65536 * (iosc % 65536))).judgeFail) := by
  subst hd
  simp only [exec, execJudgeWindow]
  refine State.act_of hl ?_
  rw [if_neg (by simpa [hup, hlock] using hj), if_neg (by omega)]

end

/-- A PLL that does not lock fails the judgement, which is repeated. -/
theorem exec_pllLockTimeout (hl : s.live = true) (hlock : s.dev.locking = true) : exec .pllLockTimeout s =
    .next (s.endsWith ((({ s.dev with locking := false, windows := 0 } : Dev).setFld clkStatus 2 1 1).judgeFail)) := by
  simp only [exec, execPllLockTimeout]
  exact State.act_of hl (if_pos hlock)

/-- The next edge after a loss starts a judgement. -/
theorem exec_refEdgesResume (hl : s.live = true) (hup : s.dev.refUp = false) (hj : s.dev.bit clkStatus 2 = false)
    (hlock : s.dev.locking = false) : exec .refEdgesResume s =
      .next (s.endsWith (({ s.dev with windows := 0 } : Dev).setFld clkStatus 2 1 1)) := by
  simp only [exec, execRefEdgesResume]
  exact State.act_of hl (if_pos (by simp [hup, hj, hlock]))

/-! ### Acceptance (R94, R95, R620) -/

/-- Acceptance ends COAST. -/
theorem exec_refAccepted {u : State} (hl : s.live = true) (hlock : s.dev.locking = true)
    (hu : u = s.setTime { s.time with coast := false, servo := if s.time.servo = .coast then .holdover else s.time.servo }) :
    exec .refAccepted s = .next (State.ends { u with dev := u.dev.accept }) := by
  subst hu
  simp only [exec, execRefAccepted]
  exact State.run_of hl (if_pos hlock) rfl

/-! ### Loss (R93 to R95, R619, R624 to R626) -/

theorem State.not_held_of_live (hl : s.live = true) : (!s.dev.dead && s.dev.resetHeld) = false := by
  unfold State.live at hl
  simp only [Bool.and_eq_true, Bool.not_eq_true'] at hl
  simp [hl.2]

section
variable {lost : Prop} (hl : s.live = true)
  (hlost : lost ↔ s.dev.refUp = true ∨ (s.dev.bit clkStatus 0 = true ∧ (s.dev.bit clkStatus 2 = true ∨ s.dev.locking = true)))
include hl hlost

/-- The loss of a reference that was accepted puts time in COAST. -/
theorem exec_refLost_coasts {u : State}
    (hu : u = s.setTime { s.time with coast := true, lossSinceLock := true, servo := if s.time.servo = .host then .host else .coast })
    (h : lost) : exec .refLost s = .next (State.ends { u with dev := u.dev.judgeLost.loseRef }) := by
  subst hu
  simp only [exec, execRefLost, State.not_held_of_live hl, Bool.false_eq_true, if_false]
  exact State.run_of hl (if_pos (hlost.1 h)) rfl

/-- Before the first acceptance there is nothing to lose but the judgement. -/
theorem exec_refLost_judgement (h : ¬ lost) : exec .refLost s = .next (s.endsWith s.dev.judgeLost) := by
  simp only [exec, execRefLost, State.not_held_of_live hl, Bool.false_eq_true, if_false]
  exact State.run_dev hl (if_neg (mt hlost.2 h))

end

/-- While SYS_RST_N is low a loss is only remembered. -/
theorem exec_refLost_held (hd : s.dev.dead = false) (hh : s.dev.resetHeld = true) :
    exec .refLost s = .next { s with dev := { s.dev with locking := false, lossSince := true } } := by
  simp only [exec, execRefLost, hd, hh, Bool.not_false, Bool.and_self, if_true]

end

/-- A judgement under way that was not skipped fails at a loss. -/
theorem Dev.judgeLost_fails {d : Dev} (hj : d.bit clkStatus 2 = true ∨ d.locking = true)
    (hs : d.locking = false ∨ d.bit clkStatus 0 = false ∨ d.lossSince = true) :
    d.judgeLost = ((({ d with windows := 0, locking := false } : Dev).setFld clkStatus 2 1 0).wrN (reg .clk 0 0x104)
      (if d.locking then 64 else d.windows)).judgeFail := by
  have hjudged : (d.bit clkStatus 2 || d.locking) = true := by simpa using hj
  have hskipped : (d.locking && d.bit clkStatus 0 && !d.lossSince) = false := by
    obtain h | h | h := hs <;> simp [h]
  simp only [Dev.judgeLost, hjudged, hskipped, Bool.not_false, Bool.and_self, if_true]

/-- Settles O54, by the event each clause is about.  That a judgement after the first acceptance, too, can be lost is the model's
reading (log entry 158). -/
theorem referenceIsJudged : Obligations.ReferenceIsJudged := by
  refine ⟨?judged, ?locks, ?resumes, ?lost, ?held, ?fails⟩
  case judged =>
    exact fun s iosc d hl hup hlock hj hd =>
      ⟨fun hlo hhi => ⟨exec_judgeWindow_last hl hup hlock hj hd hlo hhi, exec_judgeWindow_good hl hup hlock hj hd hlo hhi⟩,
        exec_judgeWindow_bad hl hup hlock hj hd⟩
  case locks => exact fun s hl hlock => ⟨exec_pllLockTimeout hl hlock, exec_refAccepted hl hlock rfl⟩
  case resumes => exact fun s hl hup hj hlock => exec_refEdgesResume hl hup hj hlock
  case lost => exact fun s u lost hl hlost hu => ⟨exec_refLost_coasts hl hlost hu, exec_refLost_judgement hl hlost⟩
  case held => exact fun s hd hh => exec_refLost_held hd hh
  case fails => exact fun d hj hs => Dev.judgeLost_fails hj hs

end Sys2Proof.Machine
end

section
/-! PROOF. A write of TRN_PERIOD that R670 permits: the register it reaches, and what it stores (R20, R118). -/

namespace Sys2Proof.Machine

/-! ### The register (R73, R670) -/

/-- The row of TRN_PERIOD. -/
def periodRow : RegRow := { off := 0x100, rw := 7, reset := 1, ranges := [⟨0, 3, 0, 4, false⟩] }

/-- The place of TRN_PERIOD. -/
def periodLoc : Loc :=
  { blk := .trn, code := 5, inst := 0, page := 0, pages := 1, instBase := 0x40000, pageBase := 0x40000, off := 0x100 }

/-- A 4 B write of `v` to TRN_PERIOD by a party. -/
def periodTgt (pt : Party) (v : Nat) : Tgt :=
  { acc := { pt := pt, off := reg .trn 0 0x100, data := v, page := 0x40000 }, width := 4, loc := periodLoc, space := .block,
    row := periodRow, x := 0x100, key := reg .trn 0 0x100, half := 0 }

theorem locate_period : locate (reg .trn 0 0x100) = some periodLoc := by rfl

theorem reg_period : reg .trn 0 0x100 = 0x40100 := by simp [reg, blkBase, pageMap]

theorem rowOf_period (pt : Party) : rowOf pt periodLoc .block = some (periodRow, 0x100, reg .trn 0 0x100) := by
  have hrow : rowAt rowsTrn 0x100 = some (periodRow, 0x100) := by rfl
  rw [reg_period]
  exact rowOf_block_active (l := periodLoc) (by decide) (by simpa [periodLoc, Blk.rows] using hrow)

/-- TRN_PERIOD lies behind no control page of a VF. -/
theorem not_vf_of_period {d : Dev} {pt : Party} {width v : Nat} {t : Tgt}
    (h : d.writeCheck pt (reg .trn 0 0x100) width v = .ok t) (f : Func) : pt ≠ .vf f := by
  rintro rfl
  have hplace : d.vfPlace f (reg .trn 0 0x100) = none := by
    have hrow : rowAt rowsVfPage 0x40100 = none := by rfl
    simp [Dev.vfPlace, reg_period, hrow]
  simp only [Dev.writeCheck, Dev.vfWriteCheck, hplace] at h
  split at h <;> cases h

/-- A permitted write at the offset of TRN_PERIOD reaches TRN_PERIOD, and is none of a VF. -/
theorem Dev.writeCheck_period {d : Dev} {pt : Party} {v : Nat} {t : Tgt} (h : d.writeCheck pt (reg .trn 0 0x100) 4 v = .ok t) :
    (∀ f, pt ≠ .vf f) ∧ t = periodTgt pt v := by
  have hvf := not_vf_of_period h
  obtain ⟨l, row, x, k, hp, hrow, rfl, -⟩ := Dev.writeCheck_reaches hvf h
  obtain rfl := Dev.place_eq hp locate_period
  have hs : spaceOf d pt periodLoc = .block := spaceOf_block nofun nofun (by decide) (by decide)
  rw [hs, rowOf_period] at hrow
  cases hrow
  refine ⟨hvf, ?_⟩
  simp only [Dev.target, hp, hs, mkTgt]
  rfl

/-! ### The value stored (R15, R20) -/

/-- A write whose row replaces the three low bits, and clears none, puts those of the data there. -/
theorem Tgt.merge_low_three {t : Tgt} (old : Nat) (hrw : t.row.rw = 7) (hw1c : t.row.w1c = 0) (hw : t.width = 4) (hh : t.half = 0) :
    t.merge old % 8 = t.acc.data % 8 := by
  have low (n : Nat) : n % 8 = n &&& 7 := (Nat.and_two_pow_sub_one_eq_mod n 3).symm
  have hmask : 7 &&& t.mask = 7 := by simp [Tgt.mask, hw, hh]
  have hdata : t.data % 8 = t.acc.data % 8 := by
    simp only [Tgt.data, hw, hh]
    omega
  have hcleared : (old ^^^ (old &&& 7)) &&& 7 = 0 := by
    rw [Nat.and_xor_distrib_right, Nat.and_assoc, Nat.and_self, Nat.xor_self]
  rw [← hdata, low, low]
  simp only [Tgt.merge, hrw, hw1c, hmask, Nat.and_zero, Nat.zero_and, Nat.xor_zero]
  rw [Nat.and_or_distrib_right, hcleared, Nat.zero_or, Nat.and_assoc, Nat.and_self]

/-- What a write leaves in TRN_PERIOD.EXP: a value above 4 is reserved, and keeps the one there. -/
theorem Dev.settled_period (d : Dev) (pt : Party) (v : Nat) :
    (d.settled (periodTgt pt v)).1 % 8 = if v % 8 ≤ 4 then v % 8 else d.fld (reg .trn 0 0x100) 0 3 := by
  have hmerge : (periodTgt pt v).merge (d.old (periodTgt pt v)) % 8 = v % 8 := Tgt.merge_low_three _ rfl rfl rfl rfl
  have hcov : (⟨0, 3, 0, 4, false⟩ : FieldRange).covered (periodTgt pt v).mask = true := by
    simp [FieldRange.covered, Tgt.mask, bitsOf, periodTgt]
  have hok : (⟨0, 3, 0, 4, false⟩ : FieldRange).ok ((periodTgt pt v).merge (d.old (periodTgt pt v))) = decide (v % 8 ≤ 4) := by
    simp [FieldRange.ok, bitsOf, hmerge]
  have hmust : ¬ (periodTgt pt v).data &&& (periodTgt pt v).row.must0 ≠ 0 := by simp [periodTgt, periodRow]
  have hranges : (periodTgt pt v).row.ranges = [⟨0, 3, 0, 4, false⟩] := rfl
  simp only [Dev.settled, if_neg hmust, hranges, keepFields, hcov, hok, decide_eq_true_eq, true_and]
  by_cases hv : v % 8 ≤ 4
  · rw [if_neg (fun h => h hv), if_pos hv]
    exact hmerge
  · rw [if_pos hv, if_neg hv]
    have hold : d.old (periodTgt pt v) = d.rdN (reg .trn 0 0x100) := rfl
    simp only [putBits, bitsOf, hold, Dev.fld]
    omega

/-! ### The register over a refusal logged -/

/-- An error recorded writes the log of its page, PG_INT_STATUS and what a message writes. -/
theorem Dev.rd_logRaw_outside (d : Dev) {page : Nat} (code who off data detail : Nat) {k : Nat} (hk : k < page + 0x40 ∨ page + 0x60 ≤ k)
    (hs : k ≠ page + 0x20) (ho : k ≠ reg .sys 0 0x204) : (d.logRaw page code who off data detail).rd k = d.rd k := by
  cases h : d.bit (page + 0x40) 31 with
  | false => exact Dev.rd_logRaw_ne code who off data detail h hk hs ho
  | true =>
    rw [Dev.logRaw_counts code who off data detail h]
    exact Dev.rd_wrN_ne _ _ (by omega)

theorem Dev.rd_logAcc_outside (d : Dev) {a : Access} (code : Nat) {k : Nat} (hvf : ∀ f, a.pt ≠ .vf f)
    (hk : k < a.page + 0x40 ∨ a.page + 0x60 ≤ k) (hs : k ≠ a.page + 0x20) (ho : k ≠ reg .sys 0 0x204) :
    (d.logAcc a code).rd k = d.rd k := by
  unfold Dev.logAcc
  split
  · exact absurd ‹_› (hvf _)
  · exact d.rd_logRaw_outside _ _ _ _ _ hk hs ho

/-- TRN_PERIOD.EXP after a write of a party that is no VF. -/
theorem Dev.store_period (d : Dev) {pt : Party} (v : Nat) (hvf : ∀ f, pt ≠ .vf f) :
    (d.store (periodTgt pt v)).fld (reg .trn 0 0x100) 0 3 = if v % 8 ≤ 4 then v % 8 else d.fld (reg .trn 0 0x100) 0 3 := by
  have hrd : (d.store (periodTgt pt v)).rd (reg .trn 0 0x100) = w32 (d.settled (periodTgt pt v)).1 := by
    have hput : (d.put (periodTgt pt v) (d.settled (periodTgt pt v)).1).rd (reg .trn 0 0x100) = w32 (d.settled (periodTgt pt v)).1 :=
      Dev.rd_wrN_self _ _ _
    unfold Dev.store
    dsimp only
    split
    · rw [Dev.rd_logAcc_outside (a := (periodTgt pt v).acc) _ _ hvf (by simp [periodTgt, reg_period]) (by simp [periodTgt, reg_period])
        (by decide), hput]
    · exact hput
  rw [← d.settled_period pt v, Dev.fld, Dev.rdN_of_rd hrd, bitsOf]
  omega

end Sys2Proof.Machine
end

section
/-! PROOF. Turns: the entry into the next turn, the filling of the staged copy, and a change of the period (R117 to R121, R137). -/

namespace Sys2Proof.Machine

/-! ### The turn number of a time (R117) -/

theorem State.setTime_period (s : State) (t : TimeSt) : (s.setTime t).dev.period = s.dev.period := by
  simp only [Dev.period, Dev.fld, Dev.rdN, s.rd_setTime t (k := reg .trn 0 0x100) (by decide) (by decide) (by decide)]

theorem State.setTime_turnAt (s : State) (t u : TimeSt) : (s.setTime t).dev.turnAt u = u.ns / s.dev.period := by
  rw [Dev.turnAt, State.setTime_period]

/-! ### TURN_BOUNDARY (R118, R121) -/

theorem State.ends_withDev (s : State) (d : Dev) : State.ends { s with dev := d } = s.endsWith d := rfl

/-- The next turn is entered, and no other, where device time has reached it; otherwise only time passes. -/
theorem exec_turnBoundary {s u : State} {n : Nat} (hl : s.live = true) (hu : u = s.setTime (s.time.advance n)) :
    exec (.turnBoundary n) s = .next (if s.dev.turn < u.dev.turnAt (s.time.advance n)
      then u.endsWith (u.dev.enter (s.dev.turn + 1) none) else u.ends) := by
  have hturn : u.dev.turn = s.dev.turn := by rw [hu, State.setTime_turn]
  have htime : u.time = s.time.advance n := by rw [hu, State.setTime_time]
  have hpend : u.pending = s.pending := by rw [hu, State.setTime_pending]
  simp only [exec, execTurnBoundary]
  split
  case isTrue h =>
    rw [← State.ends_withDev]
    exact State.run_of hl (by simp only [← hu, hturn, htime, h, if_true]) hpend
  case isFalse h => exact State.run_of hl (by simp only [← hu, hturn, htime, h, if_false]) hpend

/-! ### STAGE_OPEN (R137) -/

theorem exec_stageOpen_fills {s : State} (hl : s.live = true) (h : s.dev.stageFill = true) : exec .stageOpen s = .next (s.endsWith
    (({ s.dev with staged := some s.dev.active, stageFill := false } : Dev).raise .trn 0 0 12)) := by
  simp only [exec, execStageOpen]
  exact State.act_of hl (if_pos h)

/-! ### PERIOD_CHANGE (R118, R119) -/

/-- The device after an accepted write of TRN_PERIOD: in a later turn under the new period, or in the present turn extended, or as
it was under the same period. -/
def State.periodSet (s : State) (t : Tgt) : Dev :=
  if (s.dev.store t).period = s.dev.period then s.dev.store t
  else if s.dev.turn < (s.dev.store t).turnAt s.time then (s.dev.store t).stepInto ((s.dev.store t).turnAt s.time)
  else (s.dev.store t).extendTurn

section
variable {s : State} {pt : Party} {v : BitVec 32} {t : Tgt} (h : s.permits pt (reg .trn 0 0x100) 4 v.toNat t)
include h

theorem exec_periodChange_locked (hv : s.time.valid = true) :
    exec (.periodChange pt v) s = .next (s.endsWith (s.dev.logAcc t.acc 0x0201)) := by
  simp only [exec, execPeriodChange]
  exact State.run_ownWrite_dev h.1 h.2 (if_pos hv)

theorem exec_periodChange_accepted (hv : s.time.valid = false) :
    exec (.periodChange pt v) s = .next (s.endsWith (s.periodSet t)) := by
  simp only [exec, execPeriodChange]
  refine State.run_ownWrite_dev h.1 h.2 ?_
  simp only [State.periodW, State.periodSet, hv, Bool.false_eq_true, if_false]
  split <;> rfl

end

section
variable {s : State} {t : Tgt}

theorem State.periodSet_same (h : (s.dev.store t).period = s.dev.period) : s.periodSet t = s.dev.store t := if_pos h

theorem State.periodSet_steps (h : (s.dev.store t).period ≠ s.dev.period) (hn : s.dev.turn < (s.dev.store t).turnAt s.time) :
    s.periodSet t = (s.dev.store t).stepInto ((s.dev.store t).turnAt s.time) := (if_neg h).trans (if_pos hn)

theorem State.periodSet_extends (h : (s.dev.store t).period ≠ s.dev.period) (hn : (s.dev.store t).turnAt s.time ≤ s.dev.turn) :
    s.periodSet t = (s.dev.store t).extendTurn := (if_neg h).trans (if_neg (Nat.not_lt.2 hn))

end

/-- Settles O22: a permitted write reaches TRN_PERIOD and goes by VALID, and a boundary by whether floor(T / P) exceeds the last turn
issued.  That the change acts with its command, before another cycle passes, is the model's choice (log entry 4); that
TURN_BOUNDARY enters exactly the next turn, and that a write of the period there is changes nothing, are its readings (log entries
42, 43). -/
theorem periodIsLockedWhileValid : Obligations.PeriodIsLockedWhileValid := by
  refine ⟨fun s pt v t h hv => exec_periodChange_locked h hv, fun s pt v t h hv => ?stored, fun s n hl hle => ?waits,
    fun s n hl hlt => ?enters, fun s pt v t h hv => ?accepted⟩
  case stored =>
    obtain ⟨hvf, rfl⟩ := Dev.writeCheck_period h.2
    exact s.dev.store_period _ hvf
  case waits =>
    exact ⟨_, by rw [exec_turnBoundary hl rfl, State.setTime_turnAt, if_neg (Nat.not_lt.2 hle)], by simp, by simp⟩
  case enters =>
    exact ⟨_, State.setTime_turn _ _, State.setTime_bounds _ _, by rw [exec_turnBoundary hl rfl, State.setTime_turnAt, if_pos hlt]⟩
  case accepted =>
    rw [exec_periodChange_accepted h hv]
    by_cases hp : (s.dev.store t).period = s.dev.period
    · exact .inl (by rw [State.periodSet_same hp])
    · obtain hn | hn := Nat.lt_or_ge s.dev.turn ((s.dev.store t).turnAt s.time)
      · exact .inr (.inr ⟨_, hn, by rw [State.periodSet_steps hp hn]⟩)
      · exact .inr (.inl (by rw [State.periodSet_extends hp hn]))

/-- Settles O21, by the command each clause is about.  That TURN_BOUNDARY enters exactly the next turn is the model's reading (log
entry 42); that STAGE_OPEN ends the filling, and that a change of the period acts with its command where R119 names the next cycle,
are its choices (log entries 44, 4). -/
theorem boundariesAndStageComplete : Obligations.BoundariesAndStageComplete := by
  refine ⟨fun s n hl => ⟨fun hlt => ?enters, fun hle => ?waits⟩, fun s hl hf => exec_stageOpen_fills hl hf,
    fun s pt v t h hv hp => ⟨fun hn => ?steps, fun hn => ?extended⟩⟩
  case enters => rw [exec_turnBoundary hl rfl, if_pos hlt]
  case waits => rw [exec_turnBoundary hl rfl, if_neg (Nat.not_lt.2 hle)]
  case steps => rw [exec_periodChange_accepted h hv, State.periodSet_steps hp hn]
  case extended => rw [exec_periodChange_accepted h hv, State.periodSet_extends hp hn]

end Sys2Proof.Machine
end

section
/-! PROOF. Ring control and doorbells: what a write of RNG_CFG leaves of an OFF ring and of one that runs, the end of draining, and
what a doorbell does by the kind of its ring (R154 to R157, R166, R167, R177, R178, R551, R552). -/

namespace Sys2Proof.Machine

/-! ### The write of RNG_CFG (R74, R549) -/

/-- A permitted write of RNG_CFG has the effect of the register it reaches. -/
theorem Dev.ringCfgWrite_reaches {s : State} {pt : Party} {r v : Nat} {d : Dev} {t : Tgt} (h : s.reachesRing pt r v d t) :
    s.dev.ringCfgWrite pt r v = ringCfgW d t r := by
  obtain ⟨-, h⟩ := h
  cases pt with
  | vf f =>
    obtain ⟨hf, rfl, hc⟩ := h
    simp only [Dev.ringCfgWrite, hf, if_true, Dev.ownWrite, hc]
  | _ =>
    dsimp only at h
    split at h
    all_goals
      rename_i hr
      obtain ⟨rfl, hc⟩ := h
      simp only [Dev.ringCfgWrite, hr, if_true, if_false, Dev.ownWrite, hc]

section
variable {s : State} {pt : Party} {r : Nat} {v : BitVec 32} {d : Dev} {t : Tgt}

theorem exec_ringEnable (h : s.reachesRing pt r v.toNat d t) :
    exec (.ringEnable pt r v) s = .next (s.endsWith (ringCfgW d t r)) := by
  simp only [exec, execRingEnable]
  exact State.act_of h.1 (Dev.ringCfgWrite_reaches h)

theorem exec_ringDisable (h : s.reachesRing pt r (putBits v.toNat 9 1 0) d t) :
    exec (.ringDisable pt r v) s = .next (s.endsWith (ringCfgW d t r)) := by
  simp only [exec, execRingDisable]
  exact State.act_of h.1 (Dev.ringCfgWrite_reaches h)

theorem exec_ringReset (h : s.reachesRing pt r (putBits v.toNat 11 1 1) d t) :
    exec (.ringReset pt r v) s = .next (s.endsWith (ringCfgW d t r)) := by
  simp only [exec, execRingReset]
  exact State.act_of h.1 (Dev.ringCfgWrite_reaches h)

end

/-! ### RNG_CFG of an OFF ring (R154 to R156, R177) -/

/-- KIND and the capacity of a value of RNG_CFG are not reserved (R151, R154). -/
structure RingCfgLegal (v : Nat) : Prop where
  kind : 1 ≤ bitsOf v 0 4 ∧ bitsOf v 0 4 ≤ 7
  cap : 6 ≤ bitsOf v 4 5 ∧ bitsOf v 4 5 ≤ 20

/-- RNG_CFG as a write of a legal value leaves it, but for ENABLE. -/
def Dev.ringCfgSet (d : Dev) (t : Tgt) : Dev :=
  d.wrN t.key (bitsOf t.acc.data 0 4 + 16 * bitsOf t.acc.data 4 5 + 1024 * bitsOf t.acc.data 10 1)

section
variable {d : Dev} {t : Tgt} {r : Nat}

/-- An OFF ring whose VF is not quiesced starts where the register then meets R156. -/
theorem ringCfgW_starts (hoff : (d.ring r).state = .off) (hlegal : RingCfgLegal t.acc.data) (hon : bitOf t.acc.data 9 = true)
    (hrst : bitOf t.acc.data 11 = false) (hq : (d.ringCfgSet t).fnQuiesced ((d.ringCfgSet t).ringFunc r) = false)
    (hok : (d.ringCfgSet t).ringEnableOk r = true) : ringCfgW d t r = (d.ringCfgSet t).ringStart r := by
  simp only [Dev.ringCfgSet] at hq hok ⊢
  simp [ringCfgW, hoff, hlegal.kind, hlegal.cap, hon, hrst, hq, hok]

/-- RESET without ENABLE zeroes an OFF ring. -/
theorem ringCfgW_resets (hoff : (d.ring r).state = .off) (hlegal : RingCfgLegal t.acc.data) (hon : bitOf t.acc.data 9 = false)
    (hrst : bitOf t.acc.data 11 = true) : ringCfgW d t r = (d.ringCfgSet t).ringZero r := by
  simp [ringCfgW, Dev.ringCfgSet, hoff, hlegal.kind, hlegal.cap, hon, hrst]

/-! ### RNG_CFG of a ring that is not OFF (R155, R177, R178, R551) -/

/-- ENABLE = 0, with the other fields as they are, stops a ring that runs. -/
theorem ringCfgW_stops (hrun : (d.ring r).state = .active ∨ (d.ring r).state = .haltActive) (hon : bitOf t.acc.data 9 = false)
    (hrst : bitOf t.acc.data 11 = false) (hlow : bitsOf t.acc.data 0 9 = bitsOf (d.rdN t.key) 0 9)
    (hwb : bitsOf t.acc.data 10 1 = bitsOf (d.rdN t.key) 10 1) (hok : (d.ringStop r).2 = false) :
    ringCfgW d t r = (d.ringStop r).1 := by
  have hoff : (d.ring r).state ≠ .off := by obtain h | h := hrun <;> rw [h] <;> nofun
  simp [ringCfgW, hoff, hrun, hon, hrst, hlow, hwb, hok]

/-- RESET with ENABLE changes no ring that is not OFF: one refusal is logged, VF_QUIESCED before RING_BUSY. -/
theorem ringCfgW_reset_refused (hoff : (d.ring r).state ≠ .off) (hon : bitOf t.acc.data 9 = true)
    (hrst : bitOf t.acc.data 11 = true) :
    ringCfgW d t r = d.logAcc t.acc (if d.fnQuiesced (d.ringFunc r) then 0x0F02 else 0x0301) := by
  cases hq : d.fnQuiesced (d.ringFunc r) <;> simp [ringCfgW, Dev.refuse, hoff, hon, hrst, hq]

end

/-- A draining ring that has nothing outstanding turns OFF and raises RING_IDLE. -/
theorem exec_ringDrainDone {s : State} {r : Nat} (hl : s.live = true) (hd : (s.dev.ring r).state = .draining)
    (hi : s.dev.ringIdle r = true) : exec (.ringDrainDone r) s =
      .next (s.endsWith ((s.dev.setRing r { s.dev.ring r with state := .off }).setInt (ringPage r) (2 ^ 11))) := by
  simp only [exec, execRingDrainDone]
  exact State.act_of hl (if_pos ⟨hd, hi⟩)

/-- Settles O25: a permitted write reaches RNG_CFG of the ring, and acts by the state of the ring.  That a write which
R155 and R551 both refuse is logged once, with VF_QUIESCED, is the model's choice (log entry 219); that a ring whose function may
not master the bus starts halted, and that one halted drains halted, are its readings (log entry 50). -/
theorem ringControlCompletes : Obligations.RingControlCompletes := by
  refine ⟨?starts, ?stops, ?resets, ?refused, fun s r => exec_ringDrainDone⟩
  case starts =>
    intro s pt r v d t h hoff hon hrst hk1 hk7 hc6 hc20 e hq hok
    rw [exec_ringEnable h, ringCfgW_starts hoff ⟨⟨hk1, hk7⟩, hc6, hc20⟩ hon hrst hq hok]
    rfl
  case stops =>
    intro s pt r v d t h hrun hon hrst hlow hwb hok
    rw [exec_ringDisable h, ringCfgW_stops hrun hon hrst hlow hwb hok]
  case resets =>
    intro s pt r v d t h hoff hon hrst hk1 hk7 hc6 hc20
    rw [exec_ringReset h, ringCfgW_resets hoff ⟨⟨hk1, hk7⟩, hc6, hc20⟩ hon hrst]
    rfl
  case refused =>
    intro s pt r v d t h hoff hon hrst
    rw [exec_ringReset h, ringCfgW_reset_refused hoff hon hrst]
    exact ⟨fun hq => by simp [hq], fun hq => by simp [hq]⟩

/-! ### Doorbells (R157, R166, R167, R175, R552) -/

/-- A write to BAR2 at a location of a ring of the function is a doorbell of that ring. -/
theorem exec_doorbell {s : State} {f : Func} {off r : Nat} (width : Nat) (v : BitVec 32) (hl : s.live = true)
    (hf : s.dev.fnExists f = true) (hr : s.dev.ringOfLocal f (off / 8) = some r) :
    exec (.doorbell f off width v) s = .next (s.endsWith (s.dev.ringDoorbell r off width v.toNat)) := by
  simp only [exec, execDoorbell]
  exact State.act_of hl (by simp only [hf, if_true, hr])

section
variable {d : Dev} {r off v : Nat}

/-- A write of another size or alignment, or to a ring that takes no doorbells, is a bad doorbell. -/
theorem Dev.ringDoorbell_bad {width : Nat} (h : width ≠ 4 ∨ off % 8 ≠ 0 ∨ d.takesDoorbell r = false) :
    d.ringDoorbell r off width v = d.doorbellBad r := if_pos h

section
variable (ha : off % 8 = 0) (ht : d.takesDoorbell r = true)
include ha ht

/-- The host's doorbell of its own ring moves the producer count forward, up to a full ring. -/
theorem Dev.ringDoorbell_producer (hk : hostProduced (d.ringKind r) = true) : d.ringDoorbell r off 4 v =
    if sub32 (d.ringProd r) (d.ringCons r) ≤ sub32 v (d.ringCons r) ∧ sub32 v (d.ringCons r) ≤ d.ringCap r
      then (d.wrN (rngKey r 0x18) v).slotRead r else d.doorbellBad r := by
  simp [Dev.ringDoorbell, ha, ht, hk]

/-- The host's doorbell of a ring of the device moves the consumer count forward, up to the producer count. -/
theorem Dev.ringDoorbell_consumer (hk : hostProduced (d.ringKind r) = false) : d.ringDoorbell r off 4 v =
    if sub32 v (d.ringCons r) ≤ sub32 (d.ringProd r) (d.ringCons r) then d.consumed r v else d.doorbellBad r := by
  simp [Dev.ringDoorbell, ha, ht, hk]

end

end

/-- Settles O26, by who produces into the ring.  That a 4 B write at offset 4 of a doorbell counts as a bad one is the model's
choice (log entry 184); that a CPL ring takes doorbells while it drains for a quiesced VF is its reading (log entry 218). -/
theorem doorbellsComplete : Obligations.DoorbellsComplete := by
  intro s f off width v r hl hf hr
  rw [exec_doorbell width v hl hf hr]
  refine ⟨?_, fun hbad => by rw [Dev.ringDoorbell_bad hbad]⟩
  rintro rfl ha ht
  refine ⟨fun hk hlo hhi => ?published, fun hk hout => ?unpublished, fun hk hle => ?returned, fun hk hlt => ?unreturned⟩
  case published => rw [Dev.ringDoorbell_producer ha ht hk, if_pos ⟨hlo, hhi⟩]
  case unpublished => rw [Dev.ringDoorbell_producer ha ht hk, if_neg (by omega)]
  case returned => rw [Dev.ringDoorbell_consumer ha ht hk, if_pos hle]
  case unreturned => rw [Dev.ringDoorbell_consumer ha ht hk, if_neg (Nat.not_le.2 hlt)]

end Sys2Proof.Machine
end

section
/-! PROOF. The path of a TX entry and of a received frame: fetch, start, the data of the reads, the end; delivery to an RX ring,
the hold and the moderation (R160 to R164, R173 to R176, R360, R531, R547). -/

namespace Sys2Proof.Machine

/-! ### Entries fetched (R160, R161, R173, R175) -/

/-- Whether an entry may be fetched does not turn on the reads that are outstanding. -/
@[simp] theorem Dev.slotsRead_mayFetch (d : Dev) (r : Nat) : (d.slotsRead r).mayFetch r = d.mayFetch r := rfl

/-- The slots of a ring from its consumer count that `e` holds. -/
abbrev Dev.slotsKnown (d : Dev) (r : Nat) (e : List Byte) : Nat := min (d.ringUsed r) (e.length / 16)

/-- The slots of the entry at the head of `e`, by its LEN. -/
abbrev entrySlots (e : List Byte) : Nat := byteAt e 0 % 16 + 1

/-- An entry begins `e` and does not pass the end of the ring. -/
abbrev Dev.entryFits (d : Dev) (r : Nat) (e : List Byte) : Prop :=
  slotMarked e 0 = true ∧ d.ringCons r % d.ringCap r + entrySlots e ≤ d.ringCap r

theorem exec_entryFetch {s : State} {r : Nat} {data e : List Byte} (hl : s.live = true)
    (he : e = slice data 0 (16 * s.dev.ringUsed r)) :
    exec (.entryFetch r data) s = .next (s.endsWith (s.dev.fetchEntry r e)) := by
  subst he
  simp only [exec, execEntryFetch]
  exact State.act_of hl rfl

section
variable {d : Dev} {r : Nat} {e : List Byte}

/-- What is taken from the slots read so far: a whole entry once all its slots are there, and else a malformed run once its end
is there or no slot is left to read. -/
theorem Dev.fetchEntry_eq (hm : d.mayFetch r = true) (hk : 0 < d.slotsKnown r e) : d.fetchEntry r e =
    if d.entryFits r e then
      if d.slotsKnown r e < entrySlots e then (d.slotsRead r).fetchMore r e else (d.slotsRead r).fetchOne r (entrySlots e) e
    else if runLen e 1 (d.slotsKnown r e - 1) + 1 = d.slotsKnown r e ∧ d.slotsKnown r e < d.ringUsed r then
      (d.slotsRead r).fetchMore r e
    else (d.slotsRead r).fetchRun r (runLen e 1 (d.slotsKnown r e - 1) + 1) e := by
  have hgo : ¬ ((!(d.slotsRead r).mayFetch r) = true ∨ d.slotsKnown r e = 0) := by
    simp [hm, Nat.pos_iff_ne_zero.1 hk]
  exact if_neg hgo

/-- A SKIP is passed. -/
theorem Dev.fetchOne_skip (len : Nat) (h : byteAt e 1 = 0) : d.fetchOne r len e = (d.ringConsume r len).slotRead r := if_pos h

/-- An entry that finds the cells of its frame is consumed and becomes work; one of an unknown opcode ends at once. -/
theorem Dev.fetchOne_takes {len : Nat} {x : Dev} (h : byteAt e 1 ≠ 0)
    (hx : d.sendAlloc r (sendCells (d.ringKind r) (byteAt e 1) (slice e 0 (16 * len))) = some x)
    {q : Dev × Nat} (hq : q = ((x.txCharge r).ringConsume r len).addWork r (byteAt e 1) (leAt e 4 4) (slice e 0 (16 * len))
      (sendCells (d.ringKind r) (byteAt e 1) (slice e 0 (16 * len)))) :
    d.fetchOne r len e = (if opcodeKnown (q.1.ringKind r) (byteAt e 1) = true then q.1 else q.1.finish r q.2 0x03).slotRead r := by
  subst hq
  simp only [Dev.fetchOne, h, if_false, hx]

/-- An entry that finds no cells stays. -/
theorem Dev.fetchOne_waits {len : Nat} (h : byteAt e 1 ≠ 0)
    (hx : d.sendAlloc r (sendCells (d.ringKind r) (byteAt e 1) (slice e 0 (16 * len))) = none) :
    d.fetchOne r len e = d.setRing r { d.ring r with fetched := [] } := by
  simp only [Dev.fetchOne, h, if_false, hx]

/-- A malformed run is consumed and its work ends MALFORMED_LENGTH with its slots. -/
theorem Dev.fetchRun_ends {n : Nat} {q : Dev × Nat} (hq : q = ((d.txCharge r).ringConsume r n).addWork r 0 (leAt e 4 4) []) :
    d.fetchRun r n e = (q.1.finish r q.2 0x02 (toLE 4 n)).slotRead r := by
  subst hq
  simp only [Dev.fetchRun]

end

/-! ### Frames sent (R162, R360) -/

section
variable {s : State} {r : Nat} {w : Work}

theorem exec_sendGather (hl : s.live = true) (h : s.dev.txNext r 1 = some w) : exec (.sendGather r) s = .next (s.endsWith
    (if gatherOk w.entry = true then (s.dev.txStart r w).gather w (gatherElems w.entry) 0 else s.dev.finish r w.id 0x01)) := by
  simp only [exec, execSendGather]
  exact State.act_of hl (by simp only [h])

theorem exec_sendInline (hl : s.live = true) (h : s.dev.txNext r 2 = some w) : exec (.sendInline r) s = .next (s.endsWith
    (if inlineOk w.entry = true then (s.dev.txStart r w).setWork r w.id fun x => { x with data := [(0, slice w.entry 16 (txLen w))] }
      else s.dev.finish r w.id 0x01)) := by
  simp only [exec, execSendInline]
  exact State.act_of hl (by simp only [h])

/-- The frame of the work `w`, whose data have come, as it enters the distributor. -/
def Dev.txFrame (d : Dev) (r : Nat) (w : Work) : Pkt :=
  { id := d.nextId, data := slice w.allData 0 (txLen w), src := d.fresh.1.txSource r, cells := w.cells,
    ingress := funcPort (d.fresh.1.ringFunc r), tx := some { ring := r, tag := w.tag, tsReq := byteAt w.entry 2 % 2 = 1 } }

/-- A frame that has been read completes and enters the distributor. -/
theorem exec_txFrameReadDone (hl : s.live = true)
    (h : ((s.dev.ring r).work.find? fun w => w.done.isNone && w.started) = some w) (hk : s.dev.ringKind r = 1) (hw : w.waiting = []) :
    exec (.txFrameReadDone r) s = .next (s.endsWith ((s.dev.fresh.1.finish r w.id 0).toDst (s.dev.txFrame r w))) := by
  simp only [exec, execTxFrameReadDone]
  exact State.act_of hl (by simp only [h, hk, hw, and_self, if_true]; rfl)

end

/-- What a host read asked for arrives: its translations send the read itself, its data reach what they are for; Invalidate
Requests that the read held go on. -/
theorem exec_hostReadComplete {s : State} {id : Nat} {data : List Byte} {h : HRead} {d : Dev} (hl : s.live = true)
    (ht : s.dev.takeRead id = some (h, d)) : exec (.hostReadComplete id data) s =
      .next (s.endsWith ((if h.asking = true then d.translated h data else d.readData h data).invalSettle h.func.link)) := by
  simp only [exec, execHostReadComplete]
  exact State.act_of hl (by simp only [ht, Dev.readOver])

/-- Settles O27, a fetch by what the slots hold and every other step by the command it is about.  That the slots of a ring are
read by one outstanding read, up to the end of the ring, and that the translations of a read come before its data, are the
model's choices (log entries 51, 222); that SEND_GATHER and SEND_INLINE check the whole entry at its start is its reading (log
entry 53). -/
theorem fetchAndSendComplete : Obligations.FetchAndSendComplete := by
  refine ⟨?fetch, ?gather, ?inline, fun s r w hl hw hk hwait => exec_txFrameReadDone hl hw hk hwait, ?read⟩
  case fetch =>
    intro s r data hl hm e k d len c more
    rw [exec_entryFetch hl rfl]
    refine ⟨fun hmark hfit => ?entry, fun hbad hk => ?run⟩
    case entry =>
      have whole (hk : 0 < k) : s.dev.fetchEntry r e = if k < len then d.fetchMore r e else d.fetchOne r len e :=
        (Dev.fetchEntry_eq hm hk).trans (if_pos ⟨hmark, hfit⟩)
      have read (hlen : len ≤ k) : s.dev.fetchEntry r e = d.fetchOne r len e :=
        (whole (Nat.lt_of_lt_of_le (Nat.succ_pos _) hlen)).trans (if_neg (Nat.not_lt.2 hlen))
      refine ⟨fun hk hlt => ?more, fun hlen hskip => ?skip, fun hlen hop x hx => ?takes, fun hlen hop hnone => ?waits⟩
      case more => rw [whole hk, if_pos hlt]; rfl
      case skip => rw [read hlen, Dev.fetchOne_skip len hskip]
      case takes =>
        intro q
        rw [read hlen, Dev.fetchOne_takes hop hx (q := q) rfl]
      case waits => rw [read hlen, Dev.fetchOne_waits hop hnone]
    case run =>
      have hfits : ¬ s.dev.entryFits r e := by
        rintro ⟨hmark, hfit⟩
        obtain h | h := hbad
        · exact Bool.false_ne_true (h.symm.trans hmark)
        · exact Nat.not_le.2 h hfit
      rw [Dev.fetchEntry_eq hm hk, if_neg hfits]
      intro n q
      refine ⟨fun hn hlt => ?moreRun, fun hend => ?taken⟩
      case moreRun => rw [if_pos ⟨hn, hlt⟩]; rfl
      case taken =>
        have hmore : ¬ (n = k ∧ k < s.dev.ringUsed r) := by
          rintro ⟨hn, hlt⟩
          exact hend.elim (fun h => Nat.ne_of_lt h hn) (Nat.ne_of_lt hlt)
        rw [if_neg hmore, Dev.fetchRun_ends (q := q) rfl]
  case gather =>
    intro s r w hl hw
    rw [exec_sendGather hl hw]
    exact ⟨fun h => by rw [if_pos h], fun h => by simp [h]⟩
  case inline =>
    intro s r w hl hw
    rw [exec_sendInline hl hw]
    exact ⟨fun h => by rw [if_pos h], fun h => by simp [h]⟩
  case read =>
    intro s id data h d hl ht
    rw [exec_hostReadComplete hl ht]
    exact ⟨fun ha => by simp [ha], fun ha => by simp [ha]⟩

/-! ### Delivery, the hold, the moderation (R163, R164, R176) -/

/-- The frame `w` written to its place `a` in the data area of an RX ring, then its entry; `ws` wait behind it. -/
def Dev.rxWrite (d : Dev) (r a : Nat) (w : RxWait) (ws : List RxWait) : Dev :=
  let e := d.setRing r { d.ring r with rx := ws, dataNext := a + w.pkt.data.length }
  (e.dmaWrite (e.ringFunc r) (e.rd64 (rngKey r 0x28) + a) w.pkt.data true).ringEntry r (rxEntry w.pkt a)

section
variable {s : State} {r : Nat} {w : RxWait} {ws : List RxWait}

/-- The head frame of an ACTIVE ring that has a place for it is delivered, and its cells are freed. -/
theorem exec_rxDeliver {a : Nat} {d : Dev} (hl : s.live = true) (hq : (s.dev.ring r).rx = w :: ws)
    (ha : (s.dev.ring r).state = .active) (hfit : s.dev.rxFits r w = some a) (hd : d = s.dev.rxWrite r a w ws) :
    exec (.rxDeliver r) s = .next (s.endsWith ((d.setRing r
      { d.ring r with areas := (d.ring r).areas ++ [(d.ringProd r, a, roundUp w.pkt.data.length 64)] }).freePkt w.pkt)) := by
  subst hd
  simp only [exec]
  unfold execRxDeliver
  exact State.act_of hl (by simp only [hq, ha, ne_eq, not_true_eq_false, if_false, hfit, Dev.rxWrite])

/-- A head frame that has waited HOLD turns and finds no place is discarded. -/
theorem exec_rxHoldExpire (hl : s.live = true) (hq : (s.dev.ring r).rx = w :: ws)
    (hold : w.since + s.dev.fld (rngKey r 0x30) 8 8 ≤ s.dev.bounds) (hfit : s.dev.rxFits r w = none) :
    exec (.rxHoldExpire r) s = .next (s.endsWith ((s.dev.setRing r { s.dev.ring r with rx := ws }).rxDiscard r w)) := by
  simp only [exec, execRxHoldExpire]
  exact State.act_of hl (by simp only [hq, hold, hfit, and_self, if_true])

theorem exec_ringIrqTimer (hl : s.live = true) (h : (s.dev.ring r).state ≠ .off) :
    exec (.ringIrqTimer r) s = .next { s with dev := s.dev.ringNotify r } := by
  simp only [exec, execRingIrqTimer]
  exact State.onDev_of hl (if_neg h)

end

/-- Settles O28, by the command each clause is about. -/
theorem deliveryCompletes : Obligations.DeliveryCompletes :=
  ⟨fun _ _ _ _ _ hl hq ha hfit => exec_rxDeliver hl hq ha hfit rfl, fun _ _ _ _ => exec_rxHoldExpire, fun _ _ => exec_ringIrqTimer⟩

end Sys2Proof.Machine
end

section
/-! PROOF. Access to the entries of the rule set and of the indirection tables: what READ and WRITE of an image command register
leave, and of HSH_IND_CMD (R207, R208, R242, R245, R279, R309). -/

namespace Sys2Proof.Machine

/-! ### What the image registers of a page select (R207) -/

section
variable (k : ImgBlk) (d : Dev) (t : Tgt)

/-- The image that the selection register of the page names. -/
abbrev ImgBlk.image : Nat := k.first + d.fld (t.loc.instBase + 0x100) 0 (if k.blk = .cls then 3 else 2)

/-- The number of its COPY field: 0 staged, 1 active, 2 retained. -/
abbrev Dev.imgCopy : Nat := d.fld (t.loc.instBase + 0x100) 4 2

/-- The entry that the index register of the page names. -/
abbrev Dev.imgIndex : Nat := d.fld (t.loc.instBase + 0x104) 0 16

/-- The rule set that COPY names, where there is one. -/
abbrev Dev.imgSet : Option RuleSet :=
  if d.imgCopy t = 0 then d.staged else if d.imgCopy t = 1 then some d.active else d.retained

/-- The contents of the data registers of the page, as long as an entry of the image. -/
abbrev ImgBlk.contents : List Byte :=
  slice ((rangeFrom 0 k.words).flatMap fun j => toLE 4 (d.rdN (t.loc.instBase + 0x140 + 4 * j))) 0 (imgBytes (k.image d t))

end

/-! ### READ and WRITE of an entry (R207, R208) -/

section
variable {k : ImgBlk} {d : Dev} {t : Tgt} {rs : RuleSet} (hi : imgIndexOk (k.image d t) (d.imgIndex t) = true)
include hi

/-- READ fills the data registers with the entry of the chosen copy. -/
theorem imgW_read (hv : t.acc.data % 4 = 2) (hs : d.imgSet t = some rs) : imgW k d t =
    d.wrWords (t.loc.instBase + 0x140) (slice (rs.entry (k.image d t) (d.imgIndex t)) 0 (4 * k.words)) k.words := by
  have h3 : ¬ t.acc.data % 4 = 3 := by omega
  simp only [imgW, if_neg h3, if_pos hv, if_pos hi, hs]

section
variable (hv : t.acc.data % 4 = 1) (hc : d.imgCopy t = 0) (hs : d.staged = some rs)
include hv hc hs

/-- WRITE of an entry of the staged copy goes by its contents. -/
theorem imgW_write : imgW k d t = if d.badEntry (k.image d t) (k.contents d t) = true then d.logAcc t.acc k.bad
    else { d with staged := some (rs.setEntry (k.image d t) (d.imgIndex t) (k.contents d t)) } := by
  have h3 : ¬ t.acc.data % 4 = 3 := by omega
  have h2 : ¬ t.acc.data % 4 = 2 := by omega
  have hbad : ¬ (!imgIndexOk (k.image d t) (d.imgIndex t)) = true := by simp [hi]
  simp only [imgW, if_neg h3, if_neg h2, if_pos hv, if_neg (not_not_intro hc), if_neg hbad, hs, Dev.refuse]

theorem imgW_write_legal (he : d.badEntry (k.image d t) (k.contents d t) = false) :
    imgW k d t = { d with staged := some (rs.setEntry (k.image d t) (d.imgIndex t) (k.contents d t)) } :=
  (imgW_write hi hv hc hs).trans (if_neg (by simp [he]))

theorem imgW_write_reserved (he : d.badEntry (k.image d t) (k.contents d t) = true) : imgW k d t = d.logAcc t.acc k.bad :=
  (imgW_write hi hv hc hs).trans (if_pos he)

end

end

/-! ### The commands of the four image blocks (R207, R242, R279, R309) -/

/-- The READ commands, each with its image block. -/
def imgReads (pt : Party) (p : Nat) (v : BitVec 32) : List (Instr × ImgBlk) :=
  [(.prsImgRead pt p v, prsImg), (.clsImgRead pt p v, clsImg), (.actImgRead pt p v, actImg), (.patImgRead pt p v, patImg)]

/-- The WRITE commands, each with its image block. -/
def imgWrites (pt : Party) (p : Nat) (v : BitVec 32) : List (Instr × ImgBlk) :=
  [(.prsImgWrite pt p v, prsImg), (.clsImgWrite pt p v, clsImg), (.actImgWrite pt p v, actImg), (.patImgWrite pt p v, patImg)]

section
variable {s : State} {pt : Party} {p : Nat} {v : BitVec 32} {q : Instr × ImgBlk} {t : Tgt} {d : Dev}

/-- A READ command writes READ to the command register of its block. -/
theorem exec_of_mem_imgReads (hq : q ∈ imgReads pt p v) : exec q.1 s = s.onDev fun d => d.imgCmd q.2 pt p 1 v := by
  simp only [imgReads, List.mem_cons, List.not_mem_nil, or_false] at hq
  obtain rfl | rfl | rfl | rfl := hq <;> rfl

/-- A WRITE command writes WRITE to the command register of its block. -/
theorem exec_of_mem_imgWrites (hq : q ∈ imgWrites pt p v) : exec q.1 s = s.onDev fun d => d.imgCmd q.2 pt p 0 v := by
  simp only [imgWrites, List.mem_cons, List.not_mem_nil, or_false] at hq
  obtain rfl | rfl | rfl | rfl := hq <;> rfl

/-- A permitted command of an image block has the effect of its command register. -/
theorem exec_imgCmd {c : Instr} {k : ImgBlk} {bit : Nat} (hc : exec c s = s.onDev fun d => d.imgCmd k pt p bit v)
    (h : s.permits pt (reg k.blk p 0x108) 4 (putBits v.toNat bit 1 1) t) (hd : imgW k s.dev t = d) :
    exec c s = .next { s with dev := d } :=
  hc.trans (State.onDev_of h.1 ((State.ownWrite_of_permits h).trans hd))

end

/-! ### The indirection tables (R245) -/

/-- The indirection entry that the registers of the page select: of the core table, or of a function. -/
abbrev Dev.indKey (d : Dev) (t : Tgt) : Nat :=
  if bitOf (d.rdN (t.loc.instBase + 0x100)) 16 then coreInd + d.fld (t.loc.instBase + 0x104) 0 12
  else fkey ⟨bitsOf (d.rdN (t.loc.instBase + 0x100)) 12 1, bitsOf (d.rdN (t.loc.instBase + 0x100)) 0 12⟩ * 4096 +
    d.fld (t.loc.instBase + 0x104) 0 12

section
variable {d : Dev} {t : Tgt}

/-- READ fills the data register with the value last written to the entry. -/
theorem hshIndW_read (hv : t.acc.data % 4 = 2) : hshIndW d t = d.wrN (t.loc.instBase + 0x10C) (d.indLast (d.indKey t)) := by
  have h3 : ¬ t.acc.data % 4 = 3 := by omega
  simp only [hshIndW, if_neg h3, if_pos hv]

/-- WRITE writes the data register to the entry, as wide as a core or as a ring of a function. -/
theorem hshIndW_write (hv : t.acc.data % 4 = 1) : hshIndW d t = d.indWrite (d.indKey t)
    (d.fld (t.loc.instBase + 0x10C) 0 (if bitOf (d.rdN (t.loc.instBase + 0x100)) 16 then 5 else 16)) := by
  have h3 : ¬ t.acc.data % 4 = 3 := by omega
  have h2 : ¬ t.acc.data % 4 = 2 := by omega
  have hwidth := apply_ite (d.fld (t.loc.instBase + 0x10C) 0) (bitOf (d.rdN (t.loc.instBase + 0x100)) 16 = true) 5 16
  simp only [hshIndW, if_neg h3, if_neg h2, if_pos hv, hwidth]

end

section
variable {s : State} {pt : Party} {p : Nat} {v : BitVec 32} {t : Tgt} {d : Dev}

theorem exec_hshIndRead (h : s.permits pt (reg .hsh p 0x108) 4 (putBits v.toNat 1 1 1) t) (hd : hshIndW s.dev t = d) :
    exec (.hshIndRead pt p v) s = .next { s with dev := d } := by
  simp only [exec, execHshIndRead]
  exact State.onDev_of h.1 ((State.ownWrite_of_permits h).trans hd)

theorem exec_hshIndWrite (h : s.permits pt (reg .hsh p 0x108) 4 (putBits v.toNat 0 1 1) t) (hd : hshIndW s.dev t = d) :
    exec (.hshIndWrite pt p v) s = .next { s with dev := d } := by
  simp only [exec, execHshIndWrite]
  exact State.onDev_of h.1 ((State.ownWrite_of_permits h).trans hd)

end

/-- Settles O36: a command of an image block or of an indirection table has the effect of its command register, and that is said
by one equation for READ, for a legal WRITE and for a reserved one.  That bits of HSH_IND_DATA above the entry's width are
ignored is the model's reading (log entry 65). -/
theorem imageAccessCompletes : Obligations.ImageAccessCompletes := by
  refine ⟨?read, ?write, ?indirection⟩
  case read =>
    intro s pt p v rs q hq t h hv b image i copy hi hs
    exact exec_imgCmd (exec_of_mem_imgReads hq) h (imgW_read hi hv hs)
  case write =>
    intro s pt p v rs q hq t h hv hs b image i e hi hc
    have effect {d : Dev} (hd : imgW q.2 s.dev t = d) : exec q.1 s = .next { s with dev := d } :=
      exec_imgCmd (exec_of_mem_imgWrites hq) h hd
    exact ⟨fun he => effect (imgW_write_legal hi hv hc hs he), fun he => effect (imgW_write_reserved hi hv hc hs he)⟩
  case indirection =>
    intro s pt p v t b sel i key
    exact ⟨fun h hv => exec_hshIndRead h (hshIndW_read hv), fun h hv => exec_hshIndWrite h (hshIndW_write hv)⟩

end Sys2Proof.Machine
end

section
/-! PROOF. The instructions of the action unit: what each leaves of the context and of the device, by its operands, and the fault
of a reserved one (R252 to R268, R276). -/

namespace Sys2Proof.Machine

/-! ### A command that is one instruction (R252, R276) -/

section
variable {s : State} {p op : Nat} {v : BitVec 64} {i : Instr} {f : Dev → Nat → ActCtx → Nat → ActRun} {e : Dev} {c : ActCtx}
  (hi : exec i s = s.act fun d => d.actRow p op f v) (hl : s.live = true) (hw : s.dev.actDue p op v)
include hi hl hw

/-- An instruction that meets no fault leaves its context to what follows it. -/
theorem exec_actThen (h : f s.dev p (s.dev.actNow p) v.toNat = (e, .ok c)) : exec i s = .next (s.endsWith (e.actThen p c)) :=
  hi.trans (State.act_of hl (Dev.actRow_goes hw h))

/-- An instruction that stops the program ends it. -/
theorem exec_actLeft (h : f s.dev p (s.dev.actNow p) v.toNat = (e, .ok c)) (hstop : c.stop.isSome = true) :
    exec i s = .next (s.endsWith (e.actLeft p c)) :=
  Dev.actThen_stops (d := e) hstop ▸ exec_actThen hi hl hw h

/-- An instruction whose operands are reserved faults with cause 1. -/
theorem exec_badOperand {bad : Bool} {r : ActRun} (h : f s.dev p (s.dev.actNow p) v.toNat = guardOp bad r s.dev)
    (hbad : bad = true) :
    exec i s = .next (s.endsWith (((s.dev.bump (actCount p 0x148)).raise .act p 2 8).actLeft p
      { (s.dev.pipe p).act with stop := some (.fault 1) })) :=
  hi.trans (State.act_of hl (Dev.actRow_faults (k := 1) hw (h.trans (if_pos hbad))))

end

/-- Operands that are not reserved let the instruction run. -/
theorem guardOp_legal {bad : Bool} {r : ActRun} {d : Dev} (h : bad = false) : guardOp bad r d = r :=
  if_neg (Bool.not_eq_true _ ▸ h)

/-! ### The instructions that go by the state -/

section
variable {d : Dev} {p : Nat} {c : ActCtx} {w : Nat}

/-- The copy that MIRROR asks for (R260). -/
abbrev mirrorAsked (w : Nat) : MirrorReq :=
  { rewritten := bitOf w 8, toPort := bitOf w 9, ring := iw w 16 16, port := iw w 32 3, queue := iw w 40 6, trunc := iw w 48 16 }

/-- MIRROR keeps the first two copies asked for. -/
theorem actMirror_kept (hb : badMirror w = false) (h : c.mirrors.length < 2) :
    actMirror d p c w = (d, .ok { c with mirrors := c.mirrors ++ [mirrorAsked w] }) :=
  (guardOp_legal hb).trans (if_neg (by omega))

/-- A third copy is ignored and counted. -/
theorem actMirror_ignored (hb : badMirror w = false) (h : 2 ≤ c.mirrors.length) :
    actMirror d p c w = (d.bump (actCount p 0x180), .ok c) :=
  (guardOp_legal hb).trans (if_pos h)

/-- The counter that COUNT names (R261). -/
abbrev ActCtx.counter (c : ActCtx) (w : Nat) : Nat :=
  if bitOf w 8 then (c.ref % 16777216 + iw w 16 24) % 16777216 else iw w 16 24

/-- COUNT adds a frame and its length to a counter of the region. -/
theorem actCountOp_counts (hlog : c.ps.cntLog ≠ 0) (hin : c.counter w < 2 ^ c.ps.cntLog) :
    actCountOp d p c w = (d.hbmWrite (c.ps.cntBase + 16 * c.counter w)
      (toLE 8 (leAt (d.hbmRead (c.ps.cntBase + 16 * c.counter w) 16) 0 8 + 1) ++
        toLE 8 (leAt (d.hbmRead (c.ps.cntBase + 16 * c.counter w) 16) 8 8 +
          if bitOf w 9 then c.lenNow else c.ps.pkt.data.length)), .ok c) :=
  if_neg (not_or.mpr ⟨hlog, Nat.not_le.mpr hin⟩)

/-- COUNT of a counter outside the region is ignored and counted. -/
theorem actCountOp_ignored (h : c.ps.cntLog = 0 ∨ 2 ^ c.ps.cntLog ≤ c.counter w) :
    actCountOp d p c w = (d.bump (actCount p 0x180), .ok c) :=
  if_pos h

/-- What GOVERN's governor makes of the frame: the device after the metering, and the colour (R262, R366). -/
abbrev Dev.governed (d : Dev) (c : ActCtx) (w : Nat) : Dev × Nat :=
  d.govern (if bitOf w 8 then (c.ref % 1048576 + iw w 16 20) % 1048576 else iw w 16 20)
    (if iw w 52 2 = 3 then c.colour else iw w 52 2) c.lenNow

/-- GOVERN takes the colour of its governor and does what it gives a yellow or a red frame. -/
theorem actGovern_legal (hb : badGovern w = false) : actGovern d p c w =
    ((d.governed c w).1, .ok (
      if (d.governed c w).2 = 1 then { c with colour := (d.governed c w).2 }.colourAct (iw w 36 2) (iw w 40 6)
      else if (d.governed c w).2 = 2 then { c with colour := (d.governed c w).2 }.colourAct (iw w 38 2) (iw w 46 6)
      else { c with colour := (d.governed c w).2 })) :=
  guardOp_legal hb

end

/-! ### The obligations -/

/-- Settles O30, by the instruction each clause is about: most edit the context alone, MIRROR goes by the copies asked for before,
COUNT by the counters of the region and GOVERN by the colour.  That an instruction runs when its word is next in the unit is the
model's choice (log entry 187). -/
theorem editsComplete : Obligations.EditsComplete := by
  intro s p v hl w c due
  refine ⟨?endRecord, ?setField, ?addField, ?copyField, ?pushHdr, ?popHdr, ?mirror, ?mirrorIgnored, ?count, ?govern, ?learn⟩
  case endRecord => exact fun hw => exec_actThen rfl hl hw rfl
  case setField => exact fun hw hb => exec_actThen rfl hl hw (guardOp_legal hb)
  case addField => exact fun hw hb => exec_actThen rfl hl hw (guardOp_legal hb)
  case copyField => exact fun hw hb => exec_actThen rfl hl hw (guardOp_legal hb)
  case pushHdr => exact fun e hw hb he => exec_actThen rfl hl hw ((guardOp_legal hb).trans (congrArg (Prod.mk s.dev) he))
  case popHdr => exact fun e hw he => exec_actThen rfl hl hw (congrArg (Prod.mk s.dev) he)
  case mirror => exact fun hw hb hm => exec_actThen rfl hl hw (actMirror_kept hb hm)
  case mirrorIgnored => exact fun hw hb hm => exec_actThen rfl hl hw (actMirror_ignored hb hm)
  case count =>
    intro hw i a old
    exact ⟨fun hlog hin => exec_actThen rfl hl hw (actCountOp_counts hlog hin),
      fun h => exec_actThen rfl hl hw (actCountOp_ignored h)⟩
  case govern =>
    intro hw hb g x e
    have next := exec_actThen (i := .govern p v) rfl hl hw (actGovern_legal hb)
    refine ⟨fun h1 => next.trans ?_, fun h2 => next.trans ?_, fun h1 h2 => next.trans ?_⟩
    · rw [if_pos h1]
    · rw [if_neg (h2 ▸ (by decide : ¬ 2 = 1)), if_pos h2]
    · rw [if_neg h1, if_neg h2]
  case learn => exact fun hw => exec_actThen rfl hl hw rfl

/-- Settles O31, by the instruction each clause is about: each edits the context alone, and DROP leaves a stop in it.  That an
instruction runs when its word is next in the unit is the model's choice (log entry 187). -/
theorem dispositionsComplete : Obligations.DispositionsComplete := by
  intro s p v hl w c due
  refine ⟨?setPort, ?setQueue, ?toRing, ?cipher, ?inspect, ?leat, ?toCore, ?timestampOneStep, ?drop⟩
  case setPort => exact fun hw hb => exec_actThen rfl hl hw (guardOp_legal hb)
  case setQueue => exact fun hw => exec_actThen rfl hl hw rfl
  case toRing => exact fun hw hb => exec_actThen rfl hl hw (guardOp_legal hb)
  case cipher => exact fun hw => exec_actThen rfl hl hw rfl
  case inspect => exact fun hw hb => exec_actThen rfl hl hw (guardOp_legal hb)
  case leat => exact fun hw => exec_actThen rfl hl hw rfl
  case toCore => exact fun hw => exec_actThen rfl hl hw rfl
  case timestampOneStep => exact fun hw => exec_actThen rfl hl hw rfl
  case drop => exact fun hw => exec_actLeft rfl hl hw rfl rfl

/-- Settles O32: each of the nine instructions checks its operands first.  That an instruction runs when its word is next in the
unit is the model's choice (log entry 187). -/
theorem badOperandsFault : Obligations.BadOperandsFault := by
  intro s p v hl q hq hw hbad
  simp only [List.mem_cons, List.not_mem_nil, or_false] at hq
  obtain rfl | rfl | rfl | rfl | rfl | rfl | rfl | rfl | rfl := hq
  all_goals exact exec_badOperand rfl hl hw rfl hbad

end Sys2Proof.Machine
end

section
/-! PROOF. HBM: what a read returns after a write, and the aperture of a link on it (R250, R522). -/

namespace Sys2Proof.Machine

/-! ### A read after a write -/

/-- A read goes by the bytes of its span. -/
theorem Dev.hbmRead_congr {d e : Dev} {j n : Nat} (h : ∀ k, j ≤ k → k < j + n → d.hbm.getD k 0 = e.hbm.getD k 0) :
    d.hbmRead j n = e.hbmRead j n := by
  induction n generalizing j with
  | zero => rfl
  | succ n ih =>
    have first : d.hbm.getD j 0 = e.hbm.getD j 0 := h j (Nat.le_refl j) (by omega)
    have rest : d.hbmRead (j + 1) n = e.hbmRead (j + 1) n := ih fun k hj hk => h k (by omega) (by omega)
    rw [Dev.hbmRead, Dev.hbmRead, first, rest]

/-- The bytes written read as written. -/
theorem Dev.hbmRead_hbmWrite_self (d : Dev) (a : Nat) (bs : List Byte) : (d.hbmWrite a bs).hbmRead a bs.length = bs := by
  induction bs generalizing d a with
  | nil => rfl
  | cons b bs ih =>
    have first : (d.hbmWrite a (b :: bs)).hbm.getD a 0 = b :=
      (hbmPut_elsewhere _ _ _ (.inl (Nat.lt_succ_self a))).trans (NMap.getD_set_self ..)
    have rest : (d.hbmWrite a (b :: bs)).hbmRead (a + 1) bs.length = bs := ih { d with hbm := d.hbm.set a b 0 } (a + 1)
    rw [List.length_cons, Dev.hbmRead, first, rest]

/-- A span outside the bytes written reads as before. -/
theorem Dev.hbmRead_hbmWrite_elsewhere (d : Dev) (a : Nat) (bs : List Byte) {j n : Nat} (h : j + n ≤ a ∨ a + bs.length ≤ j) :
    (d.hbmWrite a bs).hbmRead j n = d.hbmRead j n :=
  Dev.hbmRead_congr fun _ _ _ => hbmPut_elsewhere _ _ _ (by omega)

/-- Settles O60: the bytes written by induction on them, a span outside byte by byte, and the canonical form by `hbmPut_wf`. -/
theorem hbmReadsBack : Obligations.HbmReadsBack := fun d a bs =>
  ⟨d.hbmRead_hbmWrite_self a bs, fun _ _ => d.hbmRead_hbmWrite_elsewhere a bs, fun h => hbmPut_wf h a bs⟩

/-! ### The aperture (R522) -/

section
variable {s : State} {link off x a : Nat} {v : BitVec 64}

/-- An access past the aperture is Unsupported. -/
theorem exec_apertureAccess_past (hl : s.live = true) (hx : x = off / 8 * 8) (h : s.dev.aptSize link ≤ x)
    (data : Option (BitVec 64)) : exec (.apertureAccess link off data) s =
      .next { s with dev := s.dev.emit (.unsupported link) } := by
  subst hx
  simp only [exec, execApertureAccess]
  exact State.onDev_of hl (if_pos h)

/-- A read inside the aperture goes by whether it is refused. -/
theorem exec_apertureAccess_read (hl : s.live = true) (hx : x = off / 8 * 8) (ha : a = s.dev.rd64 (reg .hif link 0x108) + x)
    (h : x < s.dev.aptSize link) : exec (.apertureAccess link off none) s = .next
      { s with dev := if s.dev.aptDenied link a false = true then (s.dev.bump (hifCount link 0x20)).emit (.hostData link 0)
        else s.dev.emit (.hostData link (BitVec.ofNat 64 (leNat (s.dev.hbmRead a 8)))) } := by
  subst hx ha
  simp only [exec, execApertureAccess]
  exact State.onDev_of hl (if_neg (Nat.not_le.mpr h))

/-- A write inside the aperture goes by whether it is refused. -/
theorem exec_apertureAccess_write (hl : s.live = true) (hx : x = off / 8 * 8) (ha : a = s.dev.rd64 (reg .hif link 0x108) + x)
    (h : x < s.dev.aptSize link) : exec (.apertureAccess link off (some v)) s = .next
      { s with dev := if s.dev.aptDenied link a true = true then s.dev.bump (hifCount link 0x20)
        else s.dev.hbmWrite a (toLE 8 v.toNat) } := by
  subst hx ha
  simp only [exec, execApertureAccess]
  exact State.onDev_of hl (if_neg (Nat.not_le.mpr h))

end

/-- Settles O49: an access past the aperture by its place, one inside it by whether it is refused.  That one beyond HBM is refused is
the model's reading (log entry 133). -/
theorem apertureReachesHbm : Obligations.ApertureReachesHbm := by
  intro s link off x a v hl hx ha
  refine ⟨fun h data => exec_apertureAccess_past hl hx h data, fun h => ?_⟩
  have read := exec_apertureAccess_read hl hx ha h
  have write := exec_apertureAccess_write (v := v) hl hx ha h
  refine ⟨fun hd => ?_, fun hd => ?_, fun hd => ?_, fun hd => ?_⟩
  · rw [read, hd, if_neg Bool.false_ne_true]
  · rw [read, if_pos hd]
  · rw [write, hd, if_neg Bool.false_ne_true]
  · rw [write, if_pos hd]

end Sys2Proof.Machine
end

section
/-! PROOF. Mailbox commands, and the compiling of pattern sources and the release of images by them (R295, R296, R601 to R603,
R673, R674). -/

namespace Sys2Proof.Machine

/-! ### The mailbox (R601 to R603) -/

section
variable {d : Dev} {r op : Nat} {w : Work} (h : d.mbxReady r op w)
include h

/-- A mailbox command that the firmware takes has its effect. -/
theorem Dev.mbx_of_ready (f : Dev → Work → Dev) : d.mbx r op f = f d w := by
  obtain ⟨hhead, hkind, halive, hlen, hfree⟩ := h
  have hgo : ¬ (d.activation.isSome = true ∧ op ≠ 2 ∧ op ≠ 3) := by
    rintro ⟨hsome, h2, h3⟩
    obtain hnone | rfl | rfl := hfree
    · exact absurd hsome (by rw [hnone]; exact Bool.false_ne_true)
    · exact h2 rfl
    · exact h3 rfl
  have hup : ¬ d.coresDead = true := Bool.not_eq_true _ ▸ halive
  simp only [Dev.mbx, hhead, if_neg (not_not_intro hkind), if_neg hup, if_neg (not_not_intro hlen), if_neg hgo]

variable (n : Work → Nat) (f : Dev → Work → List Byte → Dev)

/-- Its first run issues the read at ADDR. -/
theorem Dev.mbxBlock_issues (hs : w.started = false) : d.mbxBlock r op n f =
    (d.setWork r w.id fun x => { x with started := true }).workRead w 0 (mbxAddr w) (n w) :=
  (Dev.mbx_of_ready h _).trans (if_pos (by rw [hs]; rfl))

/-- The run after its data has come has its effect on them. -/
theorem Dev.mbxBlock_takes (hs : w.started = true) (hw : w.waiting = []) :
    d.mbxBlock r op n f = f d w (slice w.allData 0 (n w)) :=
  (Dev.mbx_of_ready h _).trans ((if_neg (by simp [hs])).trans (if_pos hw))

end

/-! ### PAT_COMPILE and PAT_RELEASE (R295, R296, R673, R674) -/

/-- The end of PAT_COMPILE by what its source compiles to: a failure with its line, TABLE_FULL, or the image with its handle. -/
abbrev Dev.compiled (d : Dev) (r : Nat) (w : Work) : Except (Nat × Nat) (List Pattern) → Dev
  | .error (st, ln) => d.finish r w.id st (toLE 4 ln)
  | .ok ps =>
    if 256 ≤ d.images.cells.length ∨ 65536 < d.patternsHeld + ps.length then d.finish r w.id 0x20
    else ({ d with images := d.images.put d.freeHandle ps } : Dev).finish r w.id 0 (toLE 2 d.freeHandle ++ toLE 4 ps.length)

/-- A copy of the rule set, where there is one, names image `i`. -/
def copyNames (copy : Option RuleSet) (i : Nat) : Bool :=
  match copy with
  | some x => x.names i
  | none => false

theorem copyNames_eq_false {copy : Option RuleSet} {i : Nat} (h : ∀ x, copy = some x → x.names i = false) :
    copyNames copy i = false := by
  cases copy with
  | none => rfl
  | some x => exact h x rfl

section
variable {s : State} {r : Nat} {w : Work}

section
variable (hl : s.live = true) (h : s.dev.mbxReady r 0x40 w) (h0 : mbxLen w ≠ 0) (hmax : mbxLen w ≤ 4194304)
include hl h h0 hmax

/-- The first run of PAT_COMPILE on a source of a legal length issues the read of the source. -/
theorem exec_patCompile_issues (hs : w.started = false) : exec (.patCompile r) s =
    .next (s.endsWith ((s.dev.setWork r w.id fun x => { x with started := true }).workRead w 0 (mbxAddr w) (mbxLen w))) := by
  have hlen : ¬ (mbxLen w = 0 ∨ 4194304 < mbxLen w) := by omega
  simp only [exec, execPatCompile]
  exact State.act_of hl ((Dev.mbx_of_ready h _).trans ((if_neg hlen).trans (Dev.mbxBlock_issues h _ _ hs)))

/-- The run after the source has come goes by what it compiles to. -/
theorem exec_patCompile_takes {c : Except (Nat × Nat) (List Pattern)} (hs : w.started = true) (hw : w.waiting = [])
    (hc : compileSource (slice w.allData 0 (mbxLen w)) = c) :
    exec (.patCompile r) s = .next (s.endsWith (s.dev.compiled r w c)) := by
  have hlen : ¬ (mbxLen w = 0 ∨ 4194304 < mbxLen w) := by omega
  simp only [exec, execPatCompile]
  refine State.act_of hl ((Dev.mbx_of_ready h _).trans ((if_neg hlen).trans ((Dev.mbxBlock_takes h _ _ hs hw).trans ?_)))
  obtain ⟨st, ln⟩ | ps := c <;> simp only [hc, Dev.compiled]

end

/-- PAT_RELEASE of a held image that neither the active, the staged nor the retained rule set names frees it. -/
theorem exec_patRelease (hl : s.live = true) (h : s.dev.mbxReady r 0x41 w)
    (hheld : (s.dev.images.find (mbxArg w % 1024)).isSome = true) (hactive : s.dev.active.names (mbxArg w % 1024) = false)
    (hstaged : ∀ x, s.dev.staged = some x → x.names (mbxArg w % 1024) = false)
    (hretained : ∀ x, s.dev.retained = some x → x.names (mbxArg w % 1024) = false) :
    exec (.patRelease r) s = .next (s.endsWith
      (({ s.dev with images := s.dev.images.erase (mbxArg w % 1024) } : Dev).finish r w.id 0)) := by
  have hfound : ¬ (s.dev.images.find (mbxArg w % 1024)).isNone = true := by simpa [Option.isSome_iff_ne_none] using hheld
  have hfree : ¬ (s.dev.active.names (mbxArg w % 1024) || copyNames s.dev.staged (mbxArg w % 1024) ||
      copyNames s.dev.retained (mbxArg w % 1024)) = true := by
    simp [hactive, copyNames_eq_false hstaged, copyNames_eq_false hretained]
  simp only [exec, execPatRelease]
  exact State.act_of hl ((Dev.mbx_of_ready h _).trans ((if_neg hfound).trans (if_neg hfree)))

end

/-- Settles O37: PAT_COMPILE by its two runs, the second by what the source compiles to, and PAT_RELEASE of an image that no copy of
the rule set names. -/
theorem patternImagesComplete : Obligations.PatternImagesComplete := by
  refine ⟨fun s r w hl h h0 hmax => ⟨?issue, ?image, ?failure⟩, fun s r w => exec_patRelease⟩
  case issue => exact exec_patCompile_issues hl h h0 hmax
  case image =>
    intro ps hs hw hc himages hpatterns
    have hroom : ¬ (256 ≤ s.dev.images.cells.length ∨ 65536 < s.dev.patternsHeld + ps.length) := by omega
    rw [exec_patCompile_takes hl h h0 hmax hs hw hc, Dev.compiled, if_neg hroom]
  case failure =>
    intro st ln hs hw hc
    rw [exec_patCompile_takes hl h h0 hmax hs hw hc]

end Sys2Proof.Machine
end

section
/-! PROOF. Flow tables: what creates and ends one, and the commands that change the entry of a key (R312 to R320). -/

namespace Sys2Proof.Machine

/-! ### The states of a table (R312, R313, R315) -/

section
variable {d : Dev} {n : Nat} {t : Tgt} (hp : (hostParty t.acc.pt && d.tabFw n) = false)
include hp

/-- CREATE of an OFF table with a good layout begins its INIT; nothing is kept of the table before it. -/
theorem tabCmdW_creates (hv : t.acc.data % 4 = 1) (hs : (d.table n).state = .off) (hok : d.tabOk n = true) :
    tabCmdW n d t = (d.tabForget n).setTable n { d.table n with
      state := .init, initDone := false, changeTurn := d.turn, entries := 0, sweepAt := 0, scrubAt := 0 } := by
  simp [tabCmdW, hp, hv, hs, hok]

/-- DESTROY of a READY table begins its drain and ends its commands that have not started. -/
theorem tabCmdW_destroys (hv : t.acc.data % 4 = 2) (hs : (d.table n).state = .ready) :
    tabCmdW n d t =
      (d.setTable n { d.table n with state := .draining, changeTurn := d.turn, initDone := false }).tblAbort n := by
  simp [tabCmdW, hp, hv, hs]

end

section
variable {s : State} {pt : Party} {n : Nat} {v : BitVec 32} {t : Tgt}

theorem exec_tableCreate (h : s.permits pt (tabReg n 0x38) 4 (putBits v.toNat 0 1 1) t) :
    exec (.tableCreate pt n v) s = .next { s with dev := tabCmdW n s.dev t } := by
  simp only [exec, execTableCreate]
  exact State.onDev_of h.1 (State.ownWrite_of_permits h)

theorem exec_tableDestroy (h : s.permits pt (tabReg n 0x38) 4 (putBits v.toNat 1 1 1) t) :
    exec (.tableDestroy pt n v) s = .next { s with dev := tabCmdW n s.dev t } := by
  simp only [exec, execTableDestroy]
  exact State.onDev_of h.1 (State.ownWrite_of_permits h)

end

/-- Settles O33: a permitted write of TBL_TAB_CMD goes by the state of the table, and each event by the state it waits for. -/
theorem tablesAreManaged : Obligations.TablesAreManaged := by
  refine ⟨?creates, ?zeroed, ?destroys, ?drained⟩
  case creates =>
    intro s pt n v t h hp hv hs hok
    rw [exec_tableCreate h, tabCmdW_creates hp hv hs hok]
  case zeroed =>
    intro s n hl hs hd
    simp only [exec, execInitDone]
    exact State.act_of hl (if_pos ⟨hs, by simp [hd]⟩)
  case destroys =>
    intro s pt n v t h hp hv hs
    rw [exec_tableDestroy h, tabCmdW_destroys hp hv hs]
  case drained =>
    intro s n hl hs hidle
    simp only [exec, execTableDrainDone]
    exact State.act_of hl (if_pos ⟨hs, Bool.eq_false_iff.1 hidle⟩)

/-! ### What the table commands share (R314 to R318, R340, R581) -/

section
variable {d : Dev} {r op t : Nat} {w : Work}

/-- A table command that passes the common checks has its effect. -/
theorem Dev.tblc_of_ready (h : d.tblReady r op w t) (g : Dev → Work → Nat → Dev) : d.tblc r op g = g d w t := by
  obtain ⟨hhead, ht, hkind, htbl, hgrant, hpf, hstand, hstate, hlen⟩ := h
  have htaken : ¬ (d.ringKind r ≠ 4 ∨ ¬ d.accepts .tbl 0 = true) := by simp [hkind, htbl]
  have hmay : ¬ (!d.tabGranted (d.ringFunc r) t || (decide (op = 6) && decide ((d.ringFunc r).num ≠ 0))) = true := by
    simpa [hgrant] using hpf
  have hleads : ¬ (op ≠ 5 ∧ d.standsBy (d.groupOf 4 t) = true) := by
    rintro ⟨h5, hby⟩
    exact hstand.elim h5 (by simp [hby])
  have hopen : ¬ ((d.table t).state ≠ .ready ∧ ¬ ((d.table t).state = .draining ∧ w.started = true)) := fun h => h.1 hstate
  simp only [Dev.tblc, hhead, ← ht, if_neg htaken, if_neg hmay, if_neg hleads, if_neg hopen, if_neg (not_not_intro hlen)]

/-- A change that is neither published nor mirrored, with turns in range, is made and completes with its status and result. -/
theorem Dev.tblChange_local {recOp at_ : Nat} {good : Bool} {f : Dev → Dev × TblRes} {q : Dev × TblRes} (hgood : good = true)
    (hf : f d = q) (h : d.changeLocal w t q.1) : d.tblChange w t recOp at_ good f =
      q.1.finishMirrored d.pair.s0.next w.ring w.id q.2.st (tblResult q.2) := by
  obtain ⟨hpub, hmirror, hdraw⟩ := h
  have hgen : ¬ (decide (q.1.draws ≠ d.draws) && !q.1.entRuns 3) = true := by
    obtain hsame | hruns := hdraw
    · simp [hsame]
    · simp [hruns]
  simp only [Dev.tblChange, hpub, hgood, hmirror, hf, Bool.false_and, Bool.not_true, Bool.or_false, Bool.false_eq_true, if_false,
    if_neg hgen]

/-- A change of the entry that a key has at a turn, in buckets without errors, of a function that may touch it. -/
theorem Dev.onEntry_found {f : Func} {key : List Byte} {at_ : Int} {l : Nat} {q : Dev × Bool} (g : Dev → Nat → Dev × TblRes)
    (hq : d.keyBad t (d.tabCfg t) key = q) (hbad : q.2 = false) (hfound : q.1.entryOf (d.tabCfg t) key at_ = some l)
    (hmay : q.1.mayTouch f (d.tabCfg t) l = true) : d.onEntry t f key at_ g = g q.1 l := by
  simp only [Dev.onEntry, hq, hbad, hfound, hmay, Bool.false_eq_true, if_false, if_true]

end

/-! ### INSERT, REPLACE, DELETE and REFRESH (R317, R318, R320) -/

/-- The entry `e` as REPLACE at once leaves it: ACTION, PINNED, VALID_UNTIL, CHAIN and REF are the command's. -/
def TabCfg.replaced (c : TabCfg) (e : List Byte) (w : Work) : List Byte :=
  let e := c.put (c.put (c.put e 0 3 (leAt w.entry 8 3)) 3 1 (putBits (c.flags e) 2 1 (b2n (bitOf (tblFlags w) 1)))) 12 4
    (tblUntil w)
  c.put (c.put e 20 4 (leAt w.entry 12 4)) 24 8 (tblRef w)

section
variable {s : State} {r t : Nat} {w : Work} (hl : s.live = true)
include hl

theorem exec_insert {q : Dev × TblRes} (h : s.dev.tblReady r 1 w t) (ha : tblAt w = 0 ∨ s.dev.turnOk (tblAt w) = true)
    (hu : s.dev.untilOk (tblUntil w) = true) (hquota : s.dev.flowFull (s.dev.ringFunc r) = false)
    (hq : s.dev.tblInsert t (s.dev.tblNew (s.dev.tabCfg t) w) none = q) (hlocal : s.dev.changeLocal w t q.1) :
    exec (.insert r) s = .next (s.endsWith (q.1.finishMirrored s.dev.pair.s0.next w.ring w.id q.2.st (tblResult q.2))) := by
  simp only [exec, execInsert]
  exact State.act_of hl ((Dev.tblc_of_ready h _).trans
    (Dev.tblChange_local (by simpa [hu] using ha) ((if_neg (by simp [hquota])).trans hq) hlocal))

theorem exec_replace_at {q : Dev × TblRes} (h : s.dev.tblReady r 2 w t) (ha : s.dev.atOk (tblAt w) = true) (h0 : tblAt w ≠ 0)
    (hu : s.dev.untilOk (tblUntil w) = true)
    (hq : s.dev.tblReplaceAt t (s.dev.ringFunc r) (s.dev.tblNew (s.dev.tabCfg t) w) (tblAt w) = q)
    (hlocal : s.dev.changeLocal w t q.1) :
    exec (.replace r) s = .next (s.endsWith (q.1.finishMirrored s.dev.pair.s0.next w.ring w.id q.2.st (tblResult q.2))) := by
  simp only [exec, execReplace]
  exact State.act_of hl ((Dev.tblc_of_ready h _).trans
    (Dev.tblChange_local (by simp [ha, hu]) ((if_neg h0).trans hq) hlocal))

theorem exec_replace_now {l : Nat} {q : Dev × Bool} (h : s.dev.tblReady r 2 w t) (h0 : tblAt w = 0)
    (hu : s.dev.untilOk (tblUntil w) = true) (hq : s.dev.keyBad t (s.dev.tabCfg t) (tblKey (s.dev.tabCfg t) w) = q)
    (hbad : q.2 = false) (hfound : q.1.entryOf (s.dev.tabCfg t) (tblKey (s.dev.tabCfg t) w) s.dev.turn = some l)
    (hmay : q.1.mayTouch (s.dev.ringFunc r) (s.dev.tabCfg t) l = true) {d : Dev}
    (hd : q.1.putEntry t l ((s.dev.tabCfg t).replaced (q.1.entryAt (s.dev.tabCfg t) l) w) = d)
    (hlocal : s.dev.changeLocal w t d) :
    exec (.replace r) s =
      .next (s.endsWith (d.finishMirrored s.dev.pair.s0.next w.ring w.id 0 (tblResult { st := 0, loc := l }))) := by
  subst hd
  simp only [exec, execReplace]
  exact State.act_of hl ((Dev.tblc_of_ready h _).trans
    (Dev.tblChange_local (q := (_, { st := 0, loc := l })) (by simp [h0, hu])
      ((if_pos h0).trans (Dev.onEntry_found _ hq hbad hfound hmay)) hlocal))

theorem exec_delete {q : Dev × TblRes} (h : s.dev.tblReady r 3 w t) (ha : tblAt w = 0 ∨ s.dev.atOk (tblAt w) = true)
    (hq : s.dev.tblDelete t (s.dev.ringFunc r) (tblKey (s.dev.tabCfg t) w) (tblAt w) = q) (hlocal : s.dev.changeLocal w t q.1) :
    exec (.delete r) s = .next (s.endsWith (q.1.finishMirrored s.dev.pair.s0.next w.ring w.id q.2.st (tblResult q.2))) := by
  simp only [exec, execDelete]
  exact State.act_of hl ((Dev.tblc_of_ready h _).trans (Dev.tblChange_local (by simpa using ha) hq hlocal))

theorem exec_refresh {q : Dev × TblRes} (h : s.dev.tblReady r 4 w t) (ha : tblAt w = 0 ∨ s.dev.turnOk (tblAt w) = true)
    (hq : s.dev.tblRefresh t (s.dev.ringFunc r) (tblKey (s.dev.tabCfg t) w) = q) (hlocal : s.dev.changeLocal w t q.1) :
    exec (.refresh r) s = .next (s.endsWith (q.1.finishMirrored s.dev.pair.s0.next w.ring w.id q.2.st (tblResult q.2))) := by
  simp only [exec, execRefresh]
  exact State.act_of hl ((Dev.tblc_of_ready h _).trans (Dev.tblChange_local (by simpa using ha) hq hlocal))

end

/-- Settles O34: behind the common checks each command makes its own change, and a change that is neither published nor mirrored
completes with it.  That AT of REPLACE and DELETE, a VALID_UNTIL, cannot be 0xFFFFFFFF is the model's reading (log entry 69); that
a change which draws its victim waits for the generator is its choice (log entry 71). -/
theorem tableChangesComplete : Obligations.TableChangesComplete := by
  refine ⟨?insert, ?replaceAt, ?replaceNow, ?delete, ?refresh⟩
  case insert => exact fun s r t w hl h ha hu hquota => exec_insert hl h ha hu hquota rfl
  case replaceAt => exact fun s r t w hl h ha h0 hu => exec_replace_at hl h ha h0 hu rfl
  case replaceNow =>
    exact fun s r t l w hl h h0 hu hbad hfound hmay => exec_replace_now hl h h0 hu rfl hbad hfound hmay rfl
  case delete => exact fun s r t w hl h ha => exec_delete hl h ha rfl
  case refresh => exact fun s r t w hl h ha => exec_refresh hl h ha rfl

end Sys2Proof.Machine
end

section
/-! PROOF. Flow tables: reads, raw writes, the learn filter, the sweeper and the scrubber (R317, R327 to R333, R339). -/

namespace Sys2Proof.Machine

/-! ### READ, WRITE_BUCKET and LEARN_KEY (R317, R318, R339) -/

section
variable {s : State} {r t : Nat} {w : Work} (hl : s.live = true)
include hl

theorem exec_tblcRead {l : Nat} {q : Dev × Bool} (h : s.dev.tblReady r 5 w t)
    (hq : s.dev.keyBad t (s.dev.tabCfg t) (tblKey (s.dev.tabCfg t) w) = q) (hbad : q.2 = false)
    (hfound : q.1.findEntry (s.dev.tabCfg t) (tblKey (s.dev.tabCfg t) w) (fun _ => true) = some l)
    (hmay : q.1.mayTouch (q.1.ringFunc r) (s.dev.tabCfg t) l = true) :
    exec (.tblcRead r) s = .next (s.endsWith (q.1.finishPut r w.id (tblRef w)
      ((s.dev.tabCfg t).shown (q.1.entryAt (s.dev.tabCfg t) l)) (tblResult { st := 0, loc := l }))) := by
  simp only [exec, execTblcRead]
  refine State.act_of hl ((Dev.tblc_of_ready h _).trans ?_)
  simp only [hq, hbad, hfound, hmay, Bool.false_eq_true, if_false, if_true]

section
variable (h : s.dev.tblReady r 6 w t) (hb : leAt w.entry 8 4 < 2 ^ (s.dev.tabCfg t).log2)
include h hb

/-- The first run of WRITE_BUCKET reads its 128 bytes. -/
theorem exec_writeBucket_issues (hs : w.started = false) : exec (.writeBucket r) s =
    .next (s.endsWith ((s.dev.setWork r w.id fun x => { x with started := true }).workRead w 0 (tblRef w) 128)) := by
  simp only [exec, execWriteBucket]
  exact State.act_of hl ((Dev.tblc_of_ready h _).trans ((if_neg (Nat.not_le.2 hb)).trans (if_pos (by simp [hs]))))

/-- The run after they have come writes the bucket. -/
theorem exec_writeBucket_takes (hs : w.started = true) (hw : w.waiting = [])
    (hmirror : s.dev.groupActive (s.dev.groupOf 4 t) = false) : exec (.writeBucket r) s =
      .next (s.endsWith ((s.dev.putBucket t (s.dev.tabCfg t) (leAt w.entry 8 4) (slice w.allData 0 128)).finishMirrored
        s.dev.pair.s0.next r w.id 0 [])) := by
  simp only [exec, execWriteBucket]
  exact State.act_of hl ((Dev.tblc_of_ready h _).trans ((if_neg (Nat.not_le.2 hb)).trans ((if_neg (by simp [hs])).trans
    ((if_neg (not_not_intro hw)).trans (if_neg (by simp [hmirror]))))))

end

/-- LEARN_KEY of a filter slot that still holds the key of the event returns the key. -/
theorem exec_learnKey {f : FilterSlot} (h : s.dev.tblReady r 7 w t)
    (hf : s.dev.filter.find (leAt w.entry 8 2 % 4096) = some f) (hcrc : crc32c 0xFFFFFFFF f.key = leAt w.entry 12 4) :
    exec (.learnKey r) s = .next (s.endsWith (s.dev.finishPut r w.id (tblRef w) f.key)) := by
  simp only [exec, execLearnKey]
  refine State.act_of hl ((Dev.tblc_of_ready h _).trans ?_)
  simp only [hf, if_pos hcrc]

end

/-! ### The sweeper (R327, R328, R579) -/

section
variable {s : State} {t : Nat} (hl : s.live = true)
include hl

/-- SWEEP_VISIT with buckets due goes by the room of the retransmission region. -/
theorem exec_sweepVisit (hs : (s.dev.table t).state = .ready) (ha : s.dev.accepts .tbl 0 = true) (hn : s.dev.sweepPace t ≠ 0) :
    exec (.sweepVisit t) s = .next (s.endsWith (if s.dev.tabStalled t = true then s.dev.mirrorStall
      else (s.dev.setTable t { s.dev.table t with swept := s.dev.bounds }).sweepBuckets t (s.dev.sweepPace t))) := by
  simp only [exec, execSweepVisit]
  exact State.act_of hl ((if_neg (by simp [hs, ha])).trans (if_neg hn))

/-- An expired entry whose boundary has come and that is unchanged is deleted. -/
theorem exec_sweepDelete {p : SweepPend} {rest : List SweepPend} {c : TabCfg} {d : Dev}
    (hp : takeFirst (fun p => decide (p.table = t) && decide (p.turn ≤ s.dev.turn)) s.dev.sweeps = some (p, rest))
    (hd : ({ s.dev with sweeps := rest } : Dev) = d) (hc : d.tabCfg t = c) (hbad : d.bucketBad t c p.bucket = (d, false))
    (hroom : s.dev.tabStalled t = false)
    (hdue : (d.table t).state = .ready ∧ ¬ d.standsBy (d.groupOf 4 t) = true ∧ c.valid (d.entryAt c p.slot) = true ∧
      c.key (d.entryAt c p.slot) = p.key ∧ c.f32 (d.entryAt c p.slot) 4 = p.lastHit) :
    exec (.sweepDelete t) s = .next (s.endsWith (d.ageOut t p.slot)) := by
  simp only [exec, execSweepDelete]
  refine State.act_of hl ?_
  simp only [hp, hroom, hd, hc, hbad, Bool.false_eq_true, if_false]
  exact if_pos ⟨by simp, hdue⟩

end

/-- A visit of the sweeper to a bucket without an uncorrectable error heals it, visits its slots and goes on. -/
theorem Dev.sweepBuckets_succ {d : Dev} {t : Nat} {c : TabCfg} (n : Nat) {q : Dev × Bool} (hc : d.tabCfg t = c)
    (hq : (d.setTable t { d.table t with sweepAt := ((d.table t).sweepAt + 1) % 2 ^ c.log2 }).bucketBad t c (d.table t).sweepAt = q)
    (hroom : d.tabStalled t = false) (hbad : q.2 = false) : d.sweepBuckets t (n + 1) =
      ((c.slots (d.table t).sweepAt).foldl (Dev.sweepSlot t) (q.1.bucketHeal c (d.table t).sweepAt)).sweepBuckets t n := by
  simp only [Dev.sweepBuckets, hroom, hc, hq, hbad, Bool.false_eq_true, if_false]

/-! ### The scrubber (R329 to R331, R333) -/

section
variable {s : State} {t : Nat} (hl : s.live = true) (hon : s.dev.scrubOn t = true)
include hl hon

theorem exec_scrubVisit (shadow : List (List Byte)) (hdue : (s.dev.table t).scrubbed < s.dev.bounds) :
    exec (.scrubVisit t shadow) s = .next (s.endsWith (
      (s.dev.setTable t { s.dev.table t with scrubbed := s.dev.bounds }).scrubVisits t
        (shadow.take (s.dev.fld (tabReg t 0x2C) 16 16)))) := by
  simp only [exec, execScrubVisit]
  exact State.act_of hl (if_neg (by simpa [hon] using hdue))

variable {bucket : Nat} {shadow : List Byte} (hroom : s.dev.tabStalled t = false)
include hroom

/-- The second visit of a pending bucket without an uncorrectable error, by what the read of its shadow brought. -/
theorem exec_scrubRecheck {p : ScrubPend} {rest : List ScrubPend} {q : Dev × Bool} {d e : Dev}
    (hp : takeFirst (fun p => decide (p.table = t ∧ p.bucket = bucket)) s.dev.scrubs = some (p, rest))
    (hdue : p.turn + s.dev.fld (reg .tbl 0 0x108) 0 24 ≤ s.dev.bounds)
    (hq : (s.dev.shadowRead t bucket).bucketBad t (s.dev.tabCfg t) bucket = q) (hbad : q.2 = false)
    (hd : q.1.bucketHeal (s.dev.tabCfg t) bucket = d) (he : ({ d with scrubs := rest } : Dev) = e) :
    exec (.scrubRecheck t bucket shadow) s = .next (s.endsWith (
      if s.dev.shadowGot t shadow = [] then d.shadowFail t
      else if e.hbmRead ((s.dev.tabCfg t).base + bucket * 128) 128 = p.hw then
        e.mismatches t bucket (s.dev.shadowGot t shadow) (e.disagree (s.dev.tabCfg t) bucket (s.dev.shadowGot t shadow))
      else e)) := by
  have hgo : ¬ ((!s.dev.scrubOn t) = true ∨ s.dev.bounds < p.turn + s.dev.fld (reg .tbl 0 0x108) 0 24) := by
    simpa [hon] using hdue
  simp only [exec, execScrubRecheck]
  refine State.act_of hl ?_
  simp only [hp, if_neg hgo, hroom, hq, hbad, hd, he, Bool.false_eq_true, if_false]

/-- A bucket of the fault list, with its shadow read, is rewritten from it and leaves the list. -/
theorem exec_faultRepair {d e : Dev} (hfault : (t, bucket) ∈ s.dev.faults) (hrep : s.dev.bit (tabReg t 0xC) 5 = true)
    (hgot : s.dev.shadowGot t shadow ≠ []) (hd : s.dev.shadowRead t bucket = d)
    (he : ((d.tabCfg t).slots bucket).foldl (fun d' l => d'.repairSlot t (d.tabCfg t) bucket l (s.dev.shadowGot t shadow)) d = e) :
    exec (.faultRepair t bucket shadow) s = .next (s.endsWith { e.eccClear ((d.tabCfg t).base + bucket * 128) 128 with
      faults := e.faults.filter fun x => x ≠ (t, bucket) }) := by
  simp only [exec, execFaultRepair]
  refine State.act_of hl ((if_neg (by simp [hroom])).trans ((if_pos ⟨hfault, hon, hrep⟩).trans ((if_neg hgot).trans ?_)))
  simp only [hd, he]

end

/-- Settles O35, by the command or the visit each clause is about.  That the shadow of a bucket is asked for as DMA of SHADOW_FN
and comes as the operand of the command is the model's choice (log entry 189), as is that WRITE_BUCKET takes its turn numbers as
they are (log entry 211) and when the retransmission region has no room (log entry 228); how many buckets the sweeper owes in a
turn is its reading (log entry 188). -/
theorem tableReadsComplete : Obligations.TableReadsComplete := by
  refine ⟨?read, ?writeBucket, ?learnKey, ?sweepVisit, ?sweepBucket, ?sweepDelete, ?scrubVisit, ?scrubRecheck, ?faultRepair⟩
  case read => exact fun s r t l w hl h hbad hfound hmay => exec_tblcRead hl h rfl hbad hfound hmay
  case writeBucket =>
    exact fun s r t w hl h hb => ⟨exec_writeBucket_issues hl h hb, exec_writeBucket_takes hl h hb⟩
  case learnKey => exact fun s r t w f hl => exec_learnKey hl
  case sweepVisit =>
    intro s t hl hs ha hn
    rw [exec_sweepVisit hl hs ha hn]
    exact ⟨fun hroom => by rw [if_neg (Bool.eq_false_iff.1 hroom)], fun hfull => by rw [if_pos hfull]⟩
  case sweepBucket => exact fun d t n hroom hbad => Dev.sweepBuckets_succ n rfl rfl hroom hbad
  case sweepDelete =>
    intro s t p rest hl hp c d e hbad hroom hs hleads hvalid hkey hhit
    exact exec_sweepDelete hl hp rfl rfl hbad hroom ⟨hs, Bool.eq_false_iff.1 hleads, hvalid, hkey, hhit⟩
  case scrubVisit => exact fun s t shadow hl hon => exec_scrubVisit hl hon shadow
  case scrubRecheck =>
    intro s t bucket shadow p rest hl hp hon hroom hdue c q d got hbad
    rw [exec_scrubRecheck hl hon hroom hp hdue rfl hbad rfl (rfl : _ = d)]
    exact ⟨fun hgot hsame => by rw [if_neg hgot, if_pos hsame], fun hgot => by rw [if_pos hgot]⟩
  case faultRepair => exact fun s t bucket shadow hl hf hon hroom hrep hgot => exec_faultRepair hl hon hroom hf hrep hgot rfl rfl

end Sys2Proof.Machine
end

section
/-! PROOF. Learning between devices: the learn tokens, frames sent and received, resync (R337, R341 to R348). -/

namespace Sys2Proof.Machine

/-! ### Learn tokens (R337) -/

theorem exec_learnTokenRefill {s : State} {t : Nat} (hl : s.live = true) (hdue : (s.dev.table t).refill + 256 ≤ s.dev.bounds) :
    exec (.learnTokenRefill t) s = .next { s with dev := s.dev.setTable t { s.dev.table t with
      tokens := min (s.dev.fld (tabReg t 0x30) 16 16) ((s.dev.table t).tokens + s.dev.fld (tabReg t 0x30) 0 16),
      refill := s.dev.bounds } } := by
  simp only [exec, execLearnTokenRefill]
  exact State.onDev_of hl (if_pos hdue)

/-! ### Frames sent (R341, R342, R360) -/

/-- The records of the next learning frame. -/
abbrev Dev.lrnNext (d : Dev) : List LrnRec := lrnTake (d.fld (reg .lrn 0 0x124) 0 14) d.lrn.queue 0 28

/-- The device with the records `take` gone from its queue into a frame. -/
abbrev Dev.lrnSent (d : Dev) (take : List LrnRec) : Dev :=
  (({ d with lrn := { d.lrn with queue := d.lrn.queue.drop take.length } } : Dev).lrnNew 0 take.length
    (take.flatMap (·.bytes))).bump (lrnCount 1) take.length

/-- A frame held long enough, with its cells there, waits for room in the retransmission region where a record of it is mirrored,
and else is sent; the partner is told how many mirrored records went with it (R581). -/
theorem exec_lrnFrameSend {s : State} {q0 : LrnRec} {qs take : List LrnRec} (hl : s.live = true) (hq : s.dev.lrn.queue = q0 :: qs)
    (ht : s.dev.lrnNext = take) (hheld : q0.turn + s.dev.fld (reg .lrn 0 0x118) 0 8 ≤ s.dev.bounds) (hsome : take ≠ [])
    (hlrn : s.dev.accepts .lrn 0 = true) (hleads : s.dev.lrnStandby = false)
    (hcells : s.dev.lrnCells (28 + (take.flatMap (·.bytes)).length) = true) :
    exec .lrnFrameSend s = .next (s.endsWith (
      if (take.any s.dev.recMirrored && s.dev.pairFull) = true then s.dev.mirrorStall
      else if (take.filter s.dev.recMirrored).length = 0 then s.dev.lrnSent take
      else (s.dev.lrnSent take).mirror 0 6 (toBE 4 (take.filter s.dev.recMirrored).length))) := by
  simp only [exec, execLrnFrameSend]
  refine State.act_of hl ?_
  simp only [Dev.lrnNext, Dev.lrnSent, hq] at ht ⊢
  simp only [ht]
  exact if_neg (by simp [hheld, hsome, hlrn, hleads, hcells, -List.length_flatMap])

/-! ### Frames received (R344 to R347) -/

/-- What a frame that reads is counted as. -/
abbrev Dev.lrnCounted (d : Dev) (f : RxFrame) : Dev := (d.bump (lrnCount 2)).bump (lrnCount 3) f.recs.length

/-- The device after a frame has taken its place in the sequence and, where it has one, acted as a control frame. -/
def Dev.lrnTaken (d : Dev) (f : RxFrame) (raw : List Byte) : Dev :=
  if (d.lrnSequence f raw).2 = true then (d.lrnSequence f raw).1.lrnControl f raw else (d.lrnSequence f raw).1

/-- A change that drew a value from the caddy is not made while the generator is stopped (R424). -/
theorem Dev.drawStopped_ite (x d b : Dev) : (if (decide (x.draws ≠ d.draws) && !d.entRuns 3) = true then b else x) =
    if x.draws = d.draws ∨ d.entRuns 3 = true then x else b := by
  by_cases hdraw : x.draws = d.draws
  · simp [hdraw]
  · cases hgen : d.entRuns 3 <;> simp [hdraw]

/-- A frame of records waits while the tables do not run, unless every record goes to review. -/
def Dev.lrnHeld (d : Dev) (f : RxFrame) : Prop :=
  d.accepts .tbl 0 = false ∧ f.recs ≠ [] ∧ d.bit (reg .lrn 0 0x100) 2 = false

section
variable {s : State} {ingress : Nat} {raw : List Byte} {rest : List (Nat × List Byte)} {d : Dev} (hl : s.live = true)
  (hrx : s.dev.lrn.rx = (ingress, raw) :: rest) (hd : ({ s.dev with lrn := { s.dev.lrn with rx := rest } } : Dev) = d)
include hl hrx hd

/-- A frame that does not read is counted bad. -/
theorem exec_lrnFrameReceive_bad (hread : d.lrnRead ingress raw = none) :
    exec .lrnFrameReceive s = .next (s.endsWith (d.bump (lrnCount 10))) := by
  simp only [exec, execLrnFrameReceive]
  refine State.act_of hl ?_
  simp only [hrx, hd, hread]

section
variable {f : RxFrame} (hread : d.lrnRead ingress raw = some f)
include hread

/-- A frame whose tables do not run stays where it is. -/
theorem exec_lrnFrameReceive_held (hheld : d.lrnHeld f) : exec .lrnFrameReceive s = .next (s.endsWith s.dev) := by
  obtain ⟨htbl, hrecs, hreview⟩ := hheld
  simp only [exec, execLrnFrameReceive]
  refine State.act_of hl ?_
  simp only [hrx, hd, hread]
  exact if_pos (by simp [htbl, hrecs, hreview])

/-- Any other frame that reads waits for room in the retransmission region where a table of it is mirrored, and else is taken,
unless it draws a value while the generator is stopped. -/
theorem exec_lrnFrameReceive_free (hfree : ¬ d.lrnHeld f) : exec .lrnFrameReceive s = .next (s.endsWith (
    if (f.recs.any fun r => d.tabStalled r.table) = true then s.dev.mirrorStall
    else if ((d.lrnCounted f).lrnTaken f raw).draws = (d.lrnCounted f).draws ∨ (d.lrnCounted f).entRuns 3 = true
      then (d.lrnCounted f).lrnTaken f raw else s.dev)) := by
  have hgo : ¬ (!d.accepts .tbl 0 && !f.recs.isEmpty && !d.bit (reg .lrn 0 0x100) 2) = true := by
    simpa [Dev.lrnHeld] using hfree
  simp only [exec, execLrnFrameReceive]
  refine State.act_of hl ?_
  simp only [hrx, hd, hread, if_neg hgo]
  rw [← Dev.drawStopped_ite]
  rfl

end

end

/-! ### Resync (R348) -/

/-- GONE sent for a range, where there is one. -/
def Dev.lrnGone (d : Dev) (sender : Nat) : Option (Nat × Nat) → Dev
  | some (a, b) => d.lrnNew 16 0 (resyncBody sender a b)
  | none => d

section
variable {s : State} {sender : Nat} (hl : s.live = true)
include hl

/-- The oldest request is answered by the kept frames of its range and, where some of it is not among them, by GONE. -/
theorem exec_lrnResyncRequest {first last : Nat} {rest : List (Nat × Nat × Nat)} {again : List (Nat × List Byte)} {d : Dev}
    (hreq : s.dev.lrn.resync = (sender, first, last) :: rest) (hlrn : s.dev.accepts .lrn 0 = true)
    (hleads : s.dev.lrnStandby = false)
    (hagain : (s.dev.lrn.sent.filter fun f => decide (sub32 f.1 first ≤ sub32 last first)) = again)
    (hd : again.foldl Dev.lrnAgain { s.dev with lrn := { s.dev.lrn with resync := rest } } = d) :
    exec .lrnResyncRequest s = .next (s.endsWith (d.lrnGone sender (goneRange first last (again.map fun f => f.1 % p32)))) := by
  have hgo : ¬ (!s.dev.accepts .lrn 0 || s.dev.lrnStandby) = true := by simp [hlrn, hleads]
  simp only [exec, execLrnResyncRequest]
  refine State.act_of hl ?_
  simp only [hreq, if_neg hgo, hagain, hd]
  rfl

/-- A request unanswered for its time is repeated while it has tries left, and then its range is given up, unless that draws a
value while the generator is stopped. -/
theorem exec_lrnResyncRetry {a l : Nat} (hasked : (s.dev.peer sender).asked = some (a, l))
    (hdue : (s.dev.peer sender).turn + s.dev.fld (reg .lrn 0 0x120) 0 16 ≤ s.dev.bounds) :
    exec (.lrnResyncRetry sender) s = .next (s.endsWith (
      if (s.dev.peer sender).tries < s.dev.fld (reg .lrn 0 0x120) 16 4 then
        (s.dev.setPeer sender { s.dev.peer sender with tries := (s.dev.peer sender).tries + 1, turn := s.dev.bounds }).askResync
          sender a l
      else if (s.dev.giveUp sender a l).draws = s.dev.draws ∨ s.dev.entRuns 3 = true then s.dev.giveUp sender a l
      else s.dev)) := by
  simp only [exec, execLrnResyncRetry]
  refine State.act_of hl ?_
  simp only [hasked, if_neg (Nat.not_lt.2 hdue), Dev.drawStopped_ite]

end

/-- Settles O38, by the command each clause is about.  Which range GONE names, and that the numbers a receiver gives up reach from
the first to the last that did not come, is the model's reading (log entry 190), as is when a control frame acts (log entry 74);
that a frame which draws a victim waits for the generator is its choice (log entry 71), as is when the retransmission region has no
room (log entry 228). -/
theorem learningCompletes : Obligations.LearningCompletes := by
  refine ⟨fun s t => exec_learnTokenRefill, ?sent, ?received, ?answered, ?unanswered⟩
  case sent =>
    intro s q0 qs hl hq take body hheld hsome hlrn hleads hcells stalled m d
    have hnext : s.dev.lrnNext = take := by simp only [Dev.lrnNext, hq, take]
    have hd : s.dev.lrnSent take = d := by simp only [Dev.lrnSent, hq, body, d]
    rw [exec_lrnFrameSend hl hq hnext hheld hsome hlrn hleads hcells, hd]
    exact ⟨fun hfull => by rw [if_pos hfull], fun hroom hm => by rw [if_neg (Bool.eq_false_iff.1 hroom), if_pos hm],
      fun hroom hm => by rw [if_neg (Bool.eq_false_iff.1 hroom), if_neg hm]⟩
  case received =>
    intro s ingress raw rest hl hrx d
    refine ⟨exec_lrnFrameReceive_bad hl hrx rfl, ?_⟩
    intro f hread held e q x stalled
    refine ⟨exec_lrnFrameReceive_held hl hrx rfl hread, fun hfree hfull => ?_, fun hfree hroom => ?_⟩
    · rw [exec_lrnFrameReceive_free hl hrx rfl hread hfree, if_pos hfull]
    · rw [exec_lrnFrameReceive_free hl hrx rfl hread hfree, if_neg (Bool.eq_false_iff.1 hroom)]
      rfl
  case answered =>
    intro s sender first last rest hl hreq hlrn hleads again d
    rw [exec_lrnResyncRequest hl hreq hlrn hleads rfl rfl]
    exact ⟨fun a b hgone => by rw [hgone]; rfl, fun hall => by rw [hall]; rfl⟩
  case unanswered =>
    intro s sender a l hl hasked hdue
    rw [exec_lrnResyncRetry hl hasked hdue]
    exact ⟨fun hleft => by rw [if_pos hleft], fun hout => by rw [if_neg (Nat.not_lt.2 hout)]⟩

end Sys2Proof.Machine
end

section
/-! PROOF. GOV_ACC_CMD: what READ and WRITE of a governor record leave (R366, R369). -/

namespace Sys2Proof.Machine

/-- A governor record is 32 bytes long. -/
theorem Gov.bytes_length (g : Gov) (b : List Byte) : (g.bytes b).length = 32 := by
  simp only [Gov.bytes, List.length_append, List.length_cons, List.length_nil, toLE_length, slice_length]

/-- The bytes that WRITE makes a record of: the configuration in GOV_ACC_DATA, and the stored levels. -/
abbrev Dev.govNew (d : Dev) (g : Nat) : List Byte := slice d.govAccData 0 16 ++ slice (d.hbmRead (d.govAddr g) 32) 16 16

section
variable {d : Dev} {t : Tgt} {g : Nat} (hg : g = d.fld (reg .gov 0 0x110) 0 20)
include hg

/-- READ fills GOV_ACC_DATA with the selected record. -/
theorem govAccW_read (hv : t.acc.data % 4 = 2) :
    govAccW d t = d.wrWords (reg .gov 0 0x140) (d.hbmRead (d.govAddr g) 32) 8 := by
  have h3 : ¬ t.acc.data % 4 = 3 := by omega
  simp only [govAccW, if_neg h3, if_pos hv, hg]

/-- WRITE goes by whether the record it makes holds a reserved encoding. -/
theorem govAccW_write (hv : t.acc.data % 4 = 1) :
    govAccW d t = if (govOf (d.govNew g)).reserved = true then d.logAcc t.acc 0x0A01
      else d.hbmWrite (d.govAddr g) ((govOf (d.govNew g)).clamp.bytes (d.govNew g)) := by
  have h3 : ¬ t.acc.data % 4 = 3 := by omega
  have h2 : ¬ t.acc.data % 4 = 2 := by omega
  simp only [govAccW, if_neg h3, if_neg h2, if_pos hv, hg, Dev.refuse]

end

/-- HBM outside a governor record reads as before once the record is written. -/
theorem Dev.hbmWrite_gov_elsewhere (d : Dev) (g : Nat) (r : Gov) (b : List Byte) {a : Nat}
    (h : a < d.govAddr g ∨ d.govAddr g + 32 ≤ a) :
    (d.hbmWrite (d.govAddr g) (r.bytes b)).hbm.getD a 0 = d.hbm.getD a 0 :=
  hbmPut_elsewhere _ _ _ (by rwa [Gov.bytes_length])

section
variable {s : State} {pt : Party} {v : BitVec 32} {t : Tgt} {d : Dev}

theorem exec_govAccRead (h : s.permits pt (reg .gov 0 0x114) 4 (putBits v.toNat 1 1 1) t) (hd : govAccW s.dev t = d) :
    exec (.govAccRead pt v) s = .next { s with dev := d } := by
  simp only [exec, execGovAccRead]
  exact State.onDev_of h.1 ((State.ownWrite_of_permits h).trans hd)

theorem exec_govAccWrite (h : s.permits pt (reg .gov 0 0x114) 4 (putBits v.toNat 0 1 1) t) (hd : govAccW s.dev t = d) :
    exec (.govAccWrite pt v) s = .next { s with dev := d } := by
  simp only [exec, execGovAccWrite]
  exact State.onDev_of h.1 ((State.ownWrite_of_permits h).trans hd)

end

/-- Settles O24: a permitted write of GOV_ACC_CMD goes by its command, and WRITE by whether the record is reserved. -/
theorem governorsComplete : Obligations.GovernorsComplete := by
  refine ⟨fun s pt v t h hv => exec_govAccRead h (govAccW_read rfl hv), ?write⟩
  intro s pt v t h hv g b r
  have hw := govAccW_write (d := s.dev) (t := t) (g := g) rfl hv
  constructor
  · intro hr
    exact ⟨exec_govAccWrite h (hw.trans (if_neg (Bool.eq_false_iff.1 hr))), fun a => s.dev.hbmWrite_gov_elsewhere g r.clamp b⟩
  · intro hr
    exact exec_govAccWrite h (hw.trans (if_pos hr))

end Sys2Proof.Machine
end

section
/-! PROOF. Ports: frames received and sent, priority-based flow control, the states of a link, modules and lanes (R371 to R378,
R407, R562 to R571, R589). -/

namespace Sys2Proof.Machine

/-! ### A frame that MACsec verifies (R407, R424, R589) -/

section
variable {d : Dev} {n : Nat} {x : SecHeld}

/-- A frame that waits for the mark of its SA or for randomness stays in the MAC, behind those that wait there. -/
theorem Dev.secTake_waits (h : (d.secWaits n x.data).2 = true ∨ (d.secWaits n x.data).1.secHolds x.data = true) :
    Dev.secTake n d x = (d.secWaits n x.data).1.setPort n { (d.secWaits n x.data).1.port n with
      secHeld := ((d.secWaits n x.data).1.port n).secHeld ++ [x] } := by
  simp only [Dev.secTake, Bool.or_eq_true, if_pos h]

/-- A frame that need not wait is stored as MACsec makes it. -/
theorem Dev.secTake_goes (hmark : (d.secWaits n x.data).2 = false) (hrand : (d.secWaits n x.data).1.secHolds x.data = false) :
    Dev.secTake n d x = (((d.secWaits n x.data).1.secRx n x.data).1.storeFrame n ((d.secWaits n x.data).1.secRx n x.data).2.1
      ((d.secWaits n x.data).1.secRx n x.data).2.2 x.ts x.suspect) := by
  simp only [Dev.secTake, hmark, hrand, Bool.or_false, Bool.false_eq_true, if_false]

end

section
variable {s : State} {port : Nat} (hl : s.live = true)
include hl

/-! ### Frames (R371, R562, R564) -/

section
variable {frame : List Byte} {chk : RxCheck} {f d e : Dev} (hp : port ≤ 4) (hup : (s.dev.port port).link = .up)
  (hf : s.dev.fecCount port chk = f)
include hp hup hf

/-- A frame that the MAC discards ends there. -/
theorem exec_frameReceive_discarded (hmac : f.macDiscard port frame chk.ok = some e) :
    exec (.frameReceive port frame chk) s = .next (s.endsWith e) := by
  have hport : ¬ (4 < port ∨ (s.dev.port port).link ≠ .up) := not_or.mpr ⟨Nat.not_lt.2 hp, not_not_intro hup⟩
  simp only [exec, execFrameReceive]
  refine State.act_of hl ?_
  simp only [if_neg hport, hf, hmac]

/-- A frame that the MAC keeps is counted, and goes by whether its port stands by and whether MACsec verifies it. -/
theorem exec_frameReceive_kept (hmac : f.macDiscard port frame chk.ok = none)
    (hd : (f.macBump port 0).macBump port 1 (frame.length + 4) = d) :
    exec (.frameReceive port frame chk) s = .next (s.endsWith (
      if (d.portStandby port && !d.standbyKeeps frame) = true then d.macBump port 7
      else if (decide (port < 4) && d.bit (reg .mac port 0xC00) 1) = true then
        Dev.secTake port d { data := frame, ts := f.portTs s.time port 0xE10, suspect := s.time.suspect d.holdLimit }
      else d.storeFrame port frame none (f.portTs s.time port 0xE10) (s.time.suspect d.holdLimit))) := by
  have hport : ¬ (4 < port ∨ (s.dev.port port).link ≠ .up) := not_or.mpr ⟨Nat.not_lt.2 hp, not_not_intro hup⟩
  simp only [exec, execFrameReceive]
  refine State.act_of hl ?_
  simp only [if_neg hport, hf, hmac, hd]

end

/-- A port at a frame boundary starts the frame its scheduler picks. -/
theorem exec_frameTransmit {q : Nat} {i : EgrItem} (hup : (s.dev.port port).link = .up) (hsec : s.dev.secDown port = false)
    (hpick : (s.dev.pickQueue s.time port).2 = some q) (hhead : (s.dev.pickQueue s.time port).1.head q = some i) :
    exec (.frameTransmit port) s = .next (s.endsWith
      (s.dev.sendFrame s.time port q (s.dev.pickQueue s.time port).1 i (s.time.suspect s.dev.holdLimit))) := by
  simp only [exec, execFrameTransmit]
  refine State.act_of hl ?_
  simp only [if_neg (not_not_intro hup), hsec, Bool.false_eq_true, if_false, hpick, hhead]

/-! ### Priority-based flow control (R377, R378) -/

theorem exec_pfcReceive (en : BitVec 8) (quanta : List Nat) (hp : port < 4) (hup : (s.dev.port port).link = .up) :
    exec (.pfcReceive port en quanta) s = .next (s.endsWith (s.dev.pfcTake port en.toNat quanta)) := by
  simp only [exec, execPfcReceive]
  exact State.act_of hl (if_pos ⟨hp, hup⟩)

theorem exec_pfcPauseExpire (pri : Nat) : exec (.pfcPauseExpire port pri) s =
    .next (s.endsWith (s.dev.setPort port { s.dev.port port with paused := (s.dev.port port).paused.erase pri })) := by
  simp only [exec, execPfcPauseExpire]
  exact State.act_of hl rfl

/-- An XOFF that is due again is sent again while the cells of its priority are at the limit. -/
theorem exec_pfcRefresh {pri t : Nat} (hp : port < 4) (hsent : (s.dev.port port).pfcSent.find pri = some t)
    (hdue : t + s.dev.fld (reg .mpd 0 (0x400 + 0x10 * port) + 12) 0 16 ≤ s.dev.bounds)
    (hfull : s.dev.fld (reg .mpd 0 (0x400 + 0x10 * port) + 8) 0 21 ≤ s.dev.priCells.getD (port * 8 + pri) 0) :
    exec (.pfcRefresh port pri) s = .next (s.endsWith ((s.dev.setPort port
      { s.dev.port port with pfcSent := (s.dev.port port).pfcSent.put pri s.dev.bounds }).pfcEmit port pri 0xFFFF)) := by
  simp only [exec, execPfcRefresh]
  refine State.act_of hl ?_
  simp only [hsent]
  exact if_pos ⟨hp, hdue, hfull⟩

/-! ### The states of a link (R376, R563, R567) -/

theorem exec_portEnable (hoff : (s.dev.port port).link = .disabled) (hready : s.dev.portReady port = true)
    (href : s.dev.refUp = true) : exec (.portEnable port) s = .next (s.endsWith (s.dev.linkTo port .training false)) := by
  simp only [exec, execPortEnable]
  exact State.act_of hl (if_pos ⟨hoff, hready, href⟩)

theorem exec_portLinkUp (htrain : (s.dev.port port).link = .training) (hready : s.dev.portReady port = true)
    (href : s.dev.refUp = true) (hheld : (s.dev.port port).since +
      (if port < 4 then s.dev.fld (reg .mac port 0x108) 0 16 else 0) ≤ s.dev.bounds) :
    exec (.portLinkUp port) s = .next (s.endsWith (((s.dev.recalDone port).setPort port { s.dev.port port with
      link := .up, since := (s.dev.recalDone port).bounds, localFault := false, remoteFault := false }).macRaise port 9)) := by
  simp only [exec, execPortLinkUp]
  exact State.act_of hl (if_pos ⟨htrain, hready, href, hheld⟩)

theorem exec_portLinkFault {kind : LinkFault} {d : Dev} (hup : (s.dev.port port).link = .up)
    (hd : (s.dev.linkTo port .fault true).tellRemote port kind = d) : exec (.portLinkFault port kind) s = .next (s.endsWith
      (d.setPort port { d.port port with localFault := kind = .localFault, remoteFault := kind = .remoteFault })) := by
  subst hd
  simp only [exec, execPortLinkFault]
  exact State.act_of hl (if_pos hup)

theorem exec_trainingTimeout (htrain : (s.dev.port port).link = .training) :
    exec (.trainingTimeout port) s = .next (s.endsWith (s.dev.linkTo port .training false)) := by
  simp only [exec, execTrainingTimeout]
  exact State.act_of hl (if_pos htrain)

theorem exec_portDisable (hon : (s.dev.port port).link ≠ .disabled) (hready : s.dev.portReady port = false) :
    exec (.portDisable port) s = .next (s.endsWith ((s.dev.linkTo port .disabled false).recalDone port)) := by
  simp only [exec, execPortDisable]
  exact State.act_of hl (if_pos ⟨hon, hready⟩)

/-! ### Modules (R569, R572) -/

theorem exec_modprsChange (present : Bool) (hp : port < 4) (hnew : (s.dev.port port).modPresent ≠ present) :
    exec (.modprsChange port present) s =
      .next (s.endsWith ((s.dev.setPort port { s.dev.port port with modPresent := present }).raise .mac port 0 11)) := by
  simp only [exec, execModprsChange]
  exact State.act_of hl (if_pos ⟨hp, hnew⟩)

theorem exec_modintAssert {d : Dev} (hp : port < 4)
    (hd : s.dev.setPort port { s.dev.port port with modInt := !(s.dev.port port).modInt } = d) :
    exec (.modintAssert port) s =
      .next (s.endsWith (if (s.dev.port port).modInt = true then d else d.raise .mac port 0 12)) := by
  subst hd
  simp only [exec, execModintAssert]
  exact State.act_of hl (if_pos hp)

end

/-! ### Lanes (R573, R614) -/

theorem exec_forceRecal {s : State} {pt : Party} {quad lane : Nat} {v : BitVec 32} {t : Tgt}
    (h : s.permits pt (laneCtrl quad lane) 4 (putBits v.toNat 8 1 1) t) :
    exec (.forceRecal pt quad lane v) s = .next (s.endsWith (laneCtrlW quad lane s.dev t)) := by
  simp only [exec, execForceRecal]
  exact State.act_of h.1 (State.ownWrite_of_permits h)

/-- Settles O39, by the command each clause is about, and a frame received by what the MAC, the mirror group of its port and MACsec
do with it.  It is the model's choice that a frame waits in its MAC for randomness or for the mark of its SA (log entry 195), that
codewords are counted with the frame they touch (203), and that MODINT_ASSERT lets a ball held low go high again (232); it is its
reading which frames count as received (79), which frames wait for a mark (92), where faults of a link come from (82), and that a
link ceases at once, the recalibration of its lanes with it (83, 86). -/
theorem portsComplete : Obligations.PortsComplete := by
  refine ⟨?received, fun s port q i hl => exec_frameTransmit hl, fun s port en quanta hl => exec_pfcReceive hl en quanta,
    fun s port pri hl => exec_pfcPauseExpire hl pri, fun s port pri t hl => exec_pfcRefresh hl, ?links,
    fun s port present hl => exec_modprsChange hl present, fun s port hl hp => exec_modintAssert hl hp rfl,
    fun s pt quad lane v t h _ => exec_forceRecal h⟩
  case received =>
    intro s port frame chk hl hp hup f d ts suspect sec
    refine ⟨fun e => exec_frameReceive_discarded hl hp hup rfl, fun hmac => ?_⟩
    rw [exec_frameReceive_kept hl hp hup rfl hmac rfl]
    refine ⟨fun hstandby => by rw [if_pos hstandby], fun hleads => ?_⟩
    rw [if_neg (Bool.eq_false_iff.1 hleads)]
    refine ⟨fun hplain => by rw [if_neg (Bool.eq_false_iff.1 hplain)], fun hsec => ?_⟩
    rw [if_pos hsec]
    exact ⟨fun hmark hrand => by rw [Dev.secTake_goes hmark hrand], fun hwait => by rw [Dev.secTake_waits hwait]⟩
  case links =>
    intro s port hl
    exact ⟨exec_portEnable hl, exec_portLinkUp hl, fun kind hup => exec_portLinkFault hl hup rfl, exec_trainingTimeout hl,
      exec_portDisable hl⟩

end Sys2Proof.Machine
end

section
/-! PROOF. A device without power or in reset (R628, R633, R640). -/

namespace Sys2Proof.Machine

/-- A command that acts only on a live device, in whichever way it ends, leaves any other as it is. -/
theorem next_ite_live_of_dead {s u : State} (hl : s.live = false) :
    (.next (if s.live then u else s) : Host.Outcome State Fault Refusal) = .next s := by
  rw [hl, if_neg Bool.false_ne_true]

/-- Settles O5, by cases on the command: the commands of `Instr.always` are excluded, and any other is a `State.run`, a
`State.act` or a `State.onDev`, each of which asks first whether the device is live.  That a dead device takes no such command
is the model's reading (log entry 3). -/
theorem deadDeviceIgnores : Obligations.DeadDeviceIgnores := by
  intro c s hl hc
  cases c with
  | por | deviceReset | brownOut | vinOutOfRange | refLost | thermalTrip | sysRstNRelease | idcode | samplePreload | extest
    | extestPulse | extestTrain | highz | clamp | bypass | regAccess | mbTransfer | dynamicAddressAssign =>
    cases hc
  | _ => exact next_ite_live_of_dead hl

end Sys2Proof.Machine
end

section
/-! PROOF. Inline packets, lookaside jobs, grain jobs and the entropy source (R387, R394, R400, R412 to R425). -/

namespace Sys2Proof.Machine

/-! ### Jobs of a LOOK ring (R412 to R414) -/

/-- The oldest job of ring `r` that has not started. -/
abbrev Dev.jobWaits (d : Dev) (r : Nat) (w : Work) : Prop :=
  ((d.ring r).work.find? fun w => w.done.isNone && !w.started) = some w

section
variable {d e : Dev} {r op : Nat} {w : Work} (hkind : d.ringKind r = 3) (hcip : d.accepts .cip 1 = true)
  (hent : d.entRuns 1 = true) (hlane : d.jobsRunning < d.lanesFree 1) (hw : d.jobWaits r w) (hop : w.opcode = op)
include hkind hcip hent hlane hw hop

omit hw in
/-- The oldest job of a LOOK ring may start. -/
theorem Dev.job_may_start : ¬ (d.ringKind r ≠ 3 ∨ w.opcode ≠ op ∨ ¬ d.accepts .cip 1 = true ∨ ¬ d.entRuns 1 = true ∨
    d.lanesFree 1 ≤ d.jobsRunning) := by
  simp only [hkind, hcip, hent, hop, ne_eq, not_true, false_or, Nat.not_le]
  exact hlane

/-- A job that passes its checks, with its keys and hold memory, runs. -/
theorem Dev.jobStart_runs {f : Dev} {ks : List KeySlot} (hcheck : jobCheck w = none) (hkeys : d.jobKeys w = (e, .ok ks))
    (hroom : e.holdRoom 1 (jobUnits w op) = (f, true)) : d.jobStart r op = f.jobRun w op ks := by
  simp only [Dev.jobStart, hw, if_neg (Dev.job_may_start hkind hcip hent hlane hop), hcheck, hkeys, hroom]

theorem Dev.jobStart_keys_fail {st : Nat} (hcheck : jobCheck w = none) (hkeys : d.jobKeys w = (e, .error st)) :
    d.jobStart r op = e.jobEnd w st 0 0 := by
  simp only [Dev.jobStart, hw, if_neg (Dev.job_may_start hkind hcip hent hlane hop), hcheck, hkeys]

theorem Dev.jobStart_check_fails {st : Nat} (hcheck : jobCheck w = some st) : d.jobStart r op = d.jobEnd w st 0 0 := by
  simp only [Dev.jobStart, hw, if_neg (Dev.job_may_start hkind hcip hent hlane hop), hcheck]

end

/-- The command that starts a job of opcode `op` of ring `r`. -/
theorem exec_of_mem_jobs {s : State} {r : Nat} {d : Dev} {q : Instr × Nat} (hl : s.live = true)
    (hq : q ∈ [(Instr.encrypt r, 1), (.decrypt r, 2), (.macJob r, 3), (.lookVerify r, 4), (.hashJob r, 5)])
    (hd : s.dev.jobStart r q.2 = d) : exec q.1 s = .next (s.endsWith d) := by
  simp only [List.mem_cons, List.not_mem_nil, or_false] at hq
  obtain rfl | rfl | rfl | rfl | rfl := hq
  · simp only [exec, execEncrypt]
    exact State.act_of hl hd
  · simp only [exec, execDecrypt]
    exact State.act_of hl hd
  · simp only [exec, execMacJob]
    exact State.act_of hl hd
  · simp only [exec, execLookVerify]
    exact State.act_of hl hd
  · simp only [exec, execHashJob]
    exact State.act_of hl hd

section
variable {s : State} (hl : s.live = true)
include hl

/-! ### Inline packets (R387, R394, R400) -/

/-- A free lane starts its head packet on an SA that can be used. -/
theorem exec_inlineStart {lane : Nat} {j : InlineJob} {rest : List InlineJob} {d : Dev} {k : KeySlot}
    (hq : (s.dev.lane 0 lane).queue = j :: rest) (hfree : (s.dev.lane 0 lane).active = none)
    (hopen : (s.dev.lane 0 lane).fenced = none) (hcip : s.dev.accepts .cip 0 = true) (hent : s.dev.entRuns 0 = true)
    (hsa : s.dev.saUsable j.sa [1, 2] = (d, .ok k)) :
    exec (.inlineStart lane) s = .next (s.endsWith
      (if saKind (d.saRead j.sa) = 1 then d.startIn lane j k d else d.startOut lane j k)) := by
  have hgo : ¬ ((s.dev.lane 0 lane).active.isSome = true ∨ (s.dev.lane 0 lane).fenced.isSome = true ∨
      ¬ s.dev.accepts .cip 0 = true ∨ ¬ s.dev.entRuns 0 = true) := by
    simp [hfree, hopen, hcip, hent]
  simp only [exec, execInlineStart]
  refine State.act_of hl ?_
  simp only [hq, if_neg hgo, hsa]

/-- The packet a lane has started ends by its direction. -/
theorem exec_inlineComplete {lane : Nat} {r : InlineRun} (hrun : (s.dev.lane 0 lane).active = some r)
    (hent : s.dev.entRuns 0 = true) : exec (.inlineComplete lane) s =
      .next (s.endsWith (if saKind r.rec_ = 1 then s.dev.endIn lane r else s.dev.endOut lane r)) := by
  simp only [exec, execInlineComplete]
  refine State.act_of hl ?_
  simp only [hrun, hent, Bool.not_true, Bool.false_eq_true, if_false]

/-! ### The end of a lookaside job (R415) -/

/-- A job whose inputs have come writes its results where its function may, and ends. -/
theorem exec_lookJobComplete {r : Nat} {w : Work} (hent : s.dev.entRuns 1 = true)
    (hw : ((s.dev.ring r).work.find? fun w => w.done.isNone && w.started && decide (w.opcode ≤ 5) &&
      decide (w.note.head? = some 2) && decide (w.waiting = [])) = some w)
    (hmaster : s.dev.master (s.dev.ringFunc r) = true) {x : Nat × List Byte × List Byte} (hx : jobResult w = x) {d e : Dev}
    (hd : (if x.2.1 = [] then s.dev else s.dev.dmaWrite (s.dev.ringFunc r) (leAt w.entry 24 8) x.2.1) = d)
    (he : (if x.2.2 = [] then d else d.dmaWrite (s.dev.ringFunc r) (leAt w.entry 40 8) x.2.2) = e) :
    exec (.lookJobComplete r) s = .next (s.endsWith (e.jobEnd w x.1 x.2.1.length x.2.2.length)) := by
  have hgo : ¬ ((x.2.1 ≠ [] ∨ x.2.2 ≠ []) ∧ ¬ s.dev.master (s.dev.ringFunc r) = true) := fun h => h.2 hmaster
  simp only [exec, execLookJobComplete]
  refine State.act_of hl ?_
  simp only [hent, Bool.not_true, Bool.false_eq_true, if_false, hw, hx, if_neg hgo, hd, he]

/-! ### Grain jobs (R421) -/

section
variable {id : Nat} {t : GTask} (ht : s.dev.task? id = some t)
include ht

/-- A grain read goes on with its opened data. -/
theorem exec_storeJobComplete_open (hrun : s.dev.storeRuns t = true) (hphase : t.phase = .open_) :
    exec (.storeJobComplete id) s = .next (s.endsWith (s.dev.taskRead t).blkPump) := by
  have hjob : t.inJob = true := by simp [GTask.inJob, hphase]
  simp only [exec, execStoreJobComplete]
  refine State.act_of hl ?_
  simp only [ht, hjob, hrun, Bool.not_true, Bool.false_eq_true, if_false, hphase, if_true]

/-- A grain written is sealed under its next version and placed. -/
theorem exec_storeJobComplete_seal {x : Vol} {d : Dev} {key : List Byte} (hrun : s.dev.storeRuns t = true)
    (hphase : t.phase = .seal) (hx : s.dev.vols.find t.vol = some x) (hkey : s.dev.volKey x.rec_ = (d, some key))
    {v : Nat} (hv : (x.ent t.grain).version + 1 = v) {ct : List Byte} {tag dig : List Byte}
    (hq : grainSeal (vrXts x.rec_) key t.vol t.grain v t.plain = (ct, tag, dig)) {u : GTask}
    (hu : ({ t with ct := ct, ent := { version := v, mapped := true, digest := dig, tag := tag }, phase := .space } : GTask) = u) :
    exec (.storeJobComplete id) s = .next (s.endsWith (((d.storeJobs 1 0).setTask id fun _ => u).taskPlace u)) := by
  have hjob : t.inJob = true := by simp [GTask.inJob, hphase]
  have hopen : ¬ t.phase = .open_ := by simp [hphase]
  simp only [exec, execStoreJobComplete]
  refine State.act_of hl ?_
  simp only [ht, hjob, hrun, Bool.not_true, Bool.false_eq_true, if_false, if_neg hopen, hx, hkey, hv, hq, hu]

/-- A grain job that has waited too long for a cluster out of service ends its command. -/
theorem exec_storeJobComplete_overdue (hrun : s.dev.storeRuns t = false) (hcluster : s.dev.clusterTakes 2 = false)
    (hphase : t.phase = .seal ∨ t.phase = .open_) (hdue : s.dev.jobOverdue t = true) :
    exec (.storeJobComplete id) s = .next (s.endsWith (s.dev.cmdEnd t.cmd 0x3F 0).blkPump) := by
  have hjob : t.inJob = true := by simpa [GTask.inJob] using hphase
  simp only [exec, execStoreJobComplete]
  refine State.act_of hl ?_
  simp only [ht, hjob, hrun, hcluster, hdue, Bool.not_true, Bool.not_false, Bool.and_true, Bool.false_eq_true, if_false, if_true]

end

/-! ### Entropy (R423 to R425) -/

/-- A health failure stops every generator; the first one raises an interrupt bit. -/
theorem exec_entHealthFail (apt : Bool) {d e : Dev}
    (hd : (s.dev.bump (reg .ent 0 (if apt then 0x118 else 0x110))).wrN (reg .ent 0 0x100) 2 = d)
    (he : (if s.dev.bit (reg .ent 0 0x100) 1 then d else d.raise .ent 0 0 8) = e) :
    exec (.entHealthFail apt) s = .next (s.endsWith (((e.randStall 0 true).randStall 1 true).randStall 2 true)) := by
  simp only [exec, execEntHealthFail]
  refine State.act_of hl ?_
  simp only [hd, he]

/-- A device that has passed the start-up test again seeds its generators, and the frames that waited for them go on. -/
theorem exec_entRecovered (hstopped : s.dev.rdN (reg .ent 0 0x100) ≠ 0xF1) {d : Dev}
    (hd : ((s.dev.wrN (reg .ent 0 0x100) 0xF1).raise .ent 0 0 9).entReseed = d) :
    exec .entRecovered s = .next (s.endsWith ((rangeFrom 0 4).foldl Dev.secResume
      (((d.randStall 0 false).randStall 1 false).randStall 2 false))) := by
  simp only [exec, execEntRecovered]
  refine State.act_of hl ?_
  simp only [if_neg hstopped, hd]

/-- A permitted read of ENT_RAND answers a fresh value. -/
theorem exec_entRandRead {pt : Party} {width : Nat} {d : Dev} {t : Tgt}
    (hr : s.dev.readCheck pt (reg .ent 0 0x108) width = (d, some t)) :
    exec (.entRandRead pt width) s = .next { s with dev := d.entRand.1.emit (.readData pt (w64 (t.view d.entRand.2))) } := by
  simp only [exec, execEntRandRead]
  refine State.onDev_of hl ?_
  simp only [hr]

end

/-- Settles O40, by the command each clause is about; for a job of a LOOK ring, by its checks and its keys. -/
theorem cipherWorkCompletes : Obligations.CipherWorkCompletes := by
  refine ⟨fun s lane j rest d k hl => exec_inlineStart hl, fun s lane r hl => exec_inlineComplete hl, ?jobs,
    fun s r w hl hent hw hm => exec_lookJobComplete hl hent hw hm rfl rfl rfl, ?grains,
    fun s apt hl => exec_entHealthFail hl apt rfl rfl, fun s hl h => exec_entRecovered hl h rfl, fun s pt width d t hl => exec_entRandRead hl⟩
  case jobs =>
    intro s r hl hkind hcip hent hlane q hq w hw hop
    exact ⟨fun d e ks hcheck hkeys hroom =>
        exec_of_mem_jobs hl hq (Dev.jobStart_runs hkind hcip hent hlane hw hop hcheck hkeys hroom),
      fun d st hcheck hkeys => exec_of_mem_jobs hl hq (Dev.jobStart_keys_fail hkind hcip hent hlane hw hop hcheck hkeys),
      fun st hcheck => exec_of_mem_jobs hl hq (Dev.jobStart_check_fails hkind hcip hent hlane hw hop hcheck)⟩
  case grains =>
    intro s id t hl ht
    exact ⟨exec_storeJobComplete_open hl ht,
      fun x d key hrun hphase hx hkey => exec_storeJobComplete_seal hl ht hrun hphase hx hkey rfl rfl rfl,
      exec_storeJobComplete_overdue hl ht⟩

end Sys2Proof.Machine
end

section
/-! PROOF. The load registers of the caddy, KEY_CFG and the SA region (R428 to R433). -/

namespace Sys2Proof.Machine

/-- A command that writes a register of the device whose write R670 permits. -/
theorem State.act_ownWrite {s : State} {pt : Party} {off width v : Nat} {t : Tgt} {f : Dev → Tgt → Dev} {d : Dev}
    (h : s.permits pt off width v t) (hd : f s.dev t = d) :
    s.act (fun d => d.ownWrite pt off width v f) = .next (s.endsWith d) :=
  State.act_of h.1 ((State.ownWrite_of_permits h).trans hd)

/-! ### KEY_LOAD_CMD (R428, R430) -/

/-- The command that writes bit `b` of KEY_LOAD_CMD, of value `n`. -/
theorem exec_of_mem_keyCmds {s : State} {pt : Party} {v : BitVec 32} {q : Instr × Nat × Nat}
    (hq : q ∈ [(Instr.keyLoad pt v, 0, 1), (.zeroiseSlot pt v, 1, 2), (.zeroiseFunc pt v, 2, 4), (.zeroiseAll pt v, 3, 8)])
    {t : Tgt} (h : s.permits pt (reg .key 0 0x188) 4 (putBits v.toNat q.2.1 1 1) t) {d : Dev} (hd : keyCmdW s.dev t = d) :
    exec q.1 s = .next (s.endsWith d) := by
  simp only [List.mem_cons, List.not_mem_nil, or_false] at hq
  obtain rfl | rfl | rfl | rfl := hq
  · simp only [exec, execKeyLoad]
    exact State.act_ownWrite h hd
  · simp only [exec, execZeroiseSlot]
    exact State.act_ownWrite h hd
  · simp only [exec, execZeroiseFunc]
    exact State.act_ownWrite h hd
  · simp only [exec, execZeroiseAll]
    exact State.act_ownWrite h hd

/-- Each of the four commands has one bit set, so none is a reserved encoding. -/
theorem one_bit_of_mem_keyCmds {pt : Party} {v : BitVec 32} {q : Instr × Nat × Nat}
    (hq : q ∈ [(Instr.keyLoad pt v, 0, 1), (.zeroiseSlot pt v, 1, 2), (.zeroiseFunc pt v, 2, 4), (.zeroiseAll pt v, 3, 8)]) :
    ¬ (q.2.2 ≠ 1 ∧ q.2.2 ≠ 2 ∧ q.2.2 ≠ 4 ∧ q.2.2 ≠ 8) := by
  simp only [List.mem_cons, List.not_mem_nil, or_false] at hq
  obtain rfl | rfl | rfl | rfl := hq <;> simp

section
variable {d : Dev} {t : Tgt} {n : Nat} (hn : t.acc.data % 16 = n) (hbit : ¬ (n ≠ 1 ∧ n ≠ 2 ∧ n ≠ 4 ∧ n ≠ 8))
include hn hbit

theorem keyCmdW_free (hfree : d.keyIsBusy = false) (hkey : d.accepts .key 0 = true) : keyCmdW d t = d.keyRun n := by
  simp only [keyCmdW, hn, if_neg hbit, hfree, hkey, Bool.false_eq_true, if_false, if_true]

theorem keyCmdW_busy (hbusy : d.keyIsBusy = true) : keyCmdW d t = d.logAcc t.acc 0x0C01 := by
  simp only [keyCmdW, hn, if_neg hbit, hbusy, if_true, Dev.refuse]

end

section
variable {s : State} (hl : s.live = true)
include hl

/-- BUSY clears once no operation holds an old key. -/
theorem exec_zeroiseDone {b : KeyBusy} (hb : s.dev.keyBusy = some b) (hfree : s.dev.keyHeld b.gens = false) :
    exec .zeroiseDone s = .next (s.endsWith (s.dev.keyDone b)) := by
  simp only [exec, execZeroiseDone]
  refine State.act_of hl ?_
  simp only [hb, hfree, Bool.false_eq_true, if_false]

/-- The load data are zeroised 16 turns after the last write of them. -/
theorem exec_keyLoadDataExpire {n : Nat} (hn : s.dev.keyLoadAt = some n) (hdue : n + 16 ≤ s.dev.bounds) :
    exec .keyLoadDataExpire s = .next (s.endsWith s.dev.keyDataClear) := by
  simp only [exec, execKeyLoadDataExpire]
  refine State.act_of hl ?_
  simp only [hn, if_pos hdue]

end

/-! ### KEY_CFG and KEY_SA_CFG (R432, R433) -/

section
variable {d : Dev} {t : Tgt}

/-- Setting EN empties every slot. -/
theorem keyCfgW_sets (hwas : d.keyEn = false) (hen : (d.store t).keyEn = true) :
    keyCfgW d t = { d.store t with keys := {} } := by
  simp [keyCfgW, hwas, hen]

/-- Clearing EN acts as ZEROISE_ALL. -/
theorem keyCfgW_clears (hwas : d.keyEn = true) (hen : (d.store t).keyEn = false) :
    keyCfgW d t = (d.store t).keyEraseAll.1.keyEnd false 0 (d.store t).keyEraseAll.2 := by
  simp [keyCfgW, hwas, hen]

/-- The device with every SA invalid, and the packets under way detached from their records. -/
def Dev.saNone (d : Dev) : Dev := (d.saInvalidate fun _ => true).saDetach fun _ => true

/-- LOG2 = 0 invalidates every SA and takes the region away. -/
theorem keyBaseW_disables (hx : t.x = 0x10108) (hlog : t.acc.data % 32 = 0)
    (hoff : (d.saNone.store t).fld (reg .key 0 0x10108) 0 5 = 0) : keyBaseW d t =
      { d.saNone.store t with saHigh := {}, saHighReq := {}, saLimit := {}, saDone := {}, saTaken := {} } := by
  have hbase : ¬ t.x = 0x108 := by omega
  have hfixed : ¬ (d.fld (reg .key 0 0x10108) 0 5 ≠ 0 ∧ ¬ (t.x = 0x10108 ∧ t.acc.data % 32 = 0)) := fun h => h.2 ⟨hx, hlog⟩
  simp only [Dev.saNone] at hoff ⊢
  simp only [keyBaseW, if_neg hbase, if_neg hfixed, if_pos (And.intro hx hlog), if_pos hoff, if_pos hx]

end

/-- Settles O41, by the write or event each clause is about. -/
theorem keyRegistersComplete : Obligations.KeyRegistersComplete := by
  refine ⟨?commands, fun s b hl => exec_zeroiseDone hl, fun s n hl => exec_keyLoadDataExpire hl, ?switches⟩
  case commands =>
    intro s pt v q hq t h hdata
    have hbit := one_bit_of_mem_keyCmds hq
    exact ⟨fun hfree hkey => exec_of_mem_keyCmds hq h (keyCmdW_free hdata hbit hfree hkey),
      fun hbusy => exec_of_mem_keyCmds hq h (keyCmdW_busy hdata hbit hbusy)⟩
  case switches =>
    intro s pt v t
    refine ⟨fun h hwas hen => ?_, fun h hwas hen => ?_, fun h hx hlog hoff => ?_⟩
    · simp only [exec, execKeyEnable]
      exact State.act_ownWrite h (keyCfgW_sets hwas hen)
    · simp only [exec, execKeyDisable]
      exact State.act_ownWrite h (keyCfgW_clears hwas hen)
    · simp only [exec, execSaRegionDisable]
      exact State.act_ownWrite h (keyBaseW_disables hx hlog hoff)

end Sys2Proof.Machine
end

section
/-! PROOF. Key and SA commands of LOOK rings (R385, R391 to R393, R429, R430). -/

namespace Sys2Proof.Machine

/-! ### What the commands have in common (R385, R430, R580) -/

/-- A key or SA command of the right length runs while KEY accepts work. -/
theorem Dev.keyWork_of_ready {d : Dev} {r op : Nat} {f : Dev → Work → Dev} {w : Work} (h : d.keyReady r op w) :
    d.keyWork r op f = f d w := by
  obtain ⟨hhead, hkind, hkey, hlen⟩ := h
  simp only [Dev.keyWork, hhead, hkind, hkey, hlen, ne_eq, not_true, or_false, if_false]

/-- A command that waits for no keys goes on. -/
theorem Dev.keyWaits_of_nil {d f : Dev} {w : Work} (h : w.note = []) : d.keyWaits w f = f := by
  simp only [Dev.keyWaits, h]

/-- An SA command goes on where the SA exists, its function may act on the record, and neither role nor mirror holds it back. -/
theorem Dev.saCommand_of_ready {d : Dev} {r op : Nat} {f : Dev → Work → Dev} {w : Work} (h : d.saReady r op w) :
    d.saCommand r op f = f d w := by
  obtain ⟨hkey, hexists, hmay, hheld⟩ := h
  have hdenied : ((decide (op ≠ 0x20) || saFlag (d.saRead (keyIndex w)) 0) &&
      !d.saMay (d.ringFunc r) (saOwner (d.saRead (keyIndex w)))) = false := by
    obtain ⟨hop, hinvalid⟩ | hmay := hmay
    · simp [hop, hinvalid]
    · simp [hmay]
  have hstandby : (decide (op ≠ 0x21) && saFlag (d.saRead (keyIndex w)) 0 && saFlag (d.saRead (keyIndex w)) 4 &&
      d.standsBy (d.groupKind 3)) = false := by
    obtain hop | ⟨h | h | h, -⟩ := hheld <;> simp [*]
  have hstalled : (decide (op ≠ 0x21) && d.saActive && d.pairFull) = false := by
    obtain hop | ⟨-, h | h⟩ := hheld <;> simp [*]
  simp only [Dev.saCommand, Dev.keyWork_of_ready hkey, hexists, hdenied, hstandby, hstalled, Bool.not_true, Bool.false_eq_true,
    if_false]

section
variable {s : State} (hl : s.live = true) {r : Nat} {w : Work}
include hl

/-! ### KEY_UNWRAP (R429) -/

section
variable (h : s.dev.keyReady r 0x30 w) (hnote : w.note = []) (hlocked : s.dev.unlocked = false) (hmin : 29 ≤ leAt w.entry 8 4)
  (hmax : leAt w.entry 8 4 ≤ 92) (husage : byteAt w.entry 24 % 4 ≠ 0)
include h hnote hlocked hmin hmax husage

/-- The first run reads the blob. -/
theorem exec_keyUnwrap_reads (hstart : w.started = false) : exec (.keyUnwrap r) s = .next (s.endsWith
    ((s.dev.setWork r w.id fun x => { x with started := true }).workRead w 0 (leAt w.entry 16 8) (leAt w.entry 8 4))) := by
  have hform : ¬ (leAt w.entry 8 4 < 29 ∨ 92 < leAt w.entry 8 4 ∨ byteAt w.entry 24 % 4 = 0) := by omega
  simp only [exec, execKeyUnwrap]
  refine State.act_of hl ?_
  simp only [Dev.keyWork_of_ready h, Dev.keyWaits_of_nil hnote, hlocked, if_neg hform, hstart, Bool.not_false, Bool.false_eq_true,
    if_false, if_true]

/-- The run after the blob has come puts the key it wraps in the slot. -/
theorem exec_keyUnwrap_puts {k : KeySlot} {d : Dev} {old : Option KeySlot} (hstart : w.started = true) (hcame : w.waiting = [])
    (hget : s.dev.keyGet (keyIndex w) = (d, old)) (hkek : d.keks.find (byteAt w.entry 2 % 16) = some k)
    (hkek_owner : k.owner = s.dev.ringFunc r ∨ k.owner = pf0 (s.dev.ringFunc r).link)
    (hold : ∀ o, old = some o → o.owner = s.dev.ringFunc r ∧ byteAt w.entry 3 % 2 = 1)
    (hroom : old = none → d.keyFull (s.dev.ringFunc r) = false) {blob : List Byte} {n : Nat} (hn : leAt w.entry 8 4 = n)
    (hblob : slice w.allData 0 n = blob)
    (htag : gcmTag k.key (blob.take 12) ([byteN (n - 28), byteN (byteAt w.entry 24 % 4)] ++ zeros 6) (slice blob 12 (n - 28)) =
      slice blob (n - 16) 16) :
    exec (.keyUnwrap r) s = .next (s.endsWith (((d.entAsk 3).keyPut (keyIndex w) (byteAt w.entry 24 % 4) (s.dev.ringFunc r)
      (gcmCrypt k.key (blob.take 12) (slice blob 12 (n - 28)))).keyFinish w 0 (old.toList.map (·.gen)))) := by
  have hform : ¬ (n < 29 ∨ 92 < n ∨ byteAt w.entry 24 % 4 = 0) := by omega
  have hmine : ¬ (k.owner ≠ s.dev.ringFunc r ∧ k.owner ≠ pf0 (s.dev.ringFunc r).link) := by tauto
  simp only [exec, execKeyUnwrap]
  refine State.act_of hl ?_
  simp only [Dev.keyWork_of_ready h, Dev.keyWaits_of_nil hnote, hlocked, hn, if_neg hform, hstart, hcame, hblob, hget, hkek,
    if_neg hmine, htag, Bool.not_true, Bool.false_eq_true, ne_eq, not_true, if_false]
  cases old with
  | none => simp [hroom rfl]
  | some o =>
    obtain ⟨howner, hreplace⟩ := hold o rfl
    simp [howner, hreplace]

end

/-! ### KEY_ZEROISE and KEY_INFO (R429, R430) -/

section
variable (h : s.dev.keyReady r 0x31 w) (hnote : w.note = [])
include h hnote

theorem exec_keyZeroise_all (hall : byteAt w.entry 3 % 2 = 1) : exec (.keyZeroise r) s = .next (s.endsWith
    ((s.dev.keyEraseFunc (s.dev.ringFunc r)).1.keyFinish w 0 (s.dev.keyEraseFunc (s.dev.ringFunc r)).2)) := by
  simp only [exec, execKeyZeroise]
  refine State.act_of hl ?_
  simp only [Dev.keyWork_of_ready h, Dev.keyWaits_of_nil hnote, if_pos hall]

theorem exec_keyZeroise_slot {d : Dev} {old : Option KeySlot} (hone : byteAt w.entry 3 % 2 = 0)
    (hget : s.dev.keyGet (keyIndex w) = (d, old)) (hold : ∀ k, old = some k → k.owner = s.dev.ringFunc r)
    {q : Dev × List Nat} (hq : (d.keyErase (fun n _ => n = keyIndex w) fun _ _ => false) = q) :
    exec (.keyZeroise r) s = .next (s.endsWith (q.1.keyFinish w 0 q.2)) := by
  have hall : ¬ byteAt w.entry 3 % 2 = 1 := by omega
  simp only [exec, execKeyZeroise]
  refine State.act_of hl ?_
  simp only [Dev.keyWork_of_ready h, Dev.keyWaits_of_nil hnote, if_neg hall, hget, hq]
  cases old with
  | none => simp
  | some k => simp [hold k rfl]

end

section
variable (h : s.dev.keyReady r 0x32 w) {d : Dev}
include h

theorem exec_keyInfo_empty (hget : s.dev.keyGet (keyIndex w) = (d, none)) :
    exec (.keyInfo r) s = .next (s.endsWith (d.finish r w.id 0)) := by
  simp only [exec, execKeyInfo]
  refine State.act_of hl ?_
  simp only [Dev.keyWork_of_ready h, hget]

theorem exec_keyInfo_own {k : KeySlot} (hget : s.dev.keyGet (keyIndex w) = (d, some k)) (howner : k.owner = d.ringFunc r) :
    exec (.keyInfo r) s = .next (s.endsWith (d.finish r w.id 0
      ([1, byteN k.key.length, byteN k.usage, 0] ++ toLE 2 (ownerField k.owner) ++ zeros 2))) := by
  simp only [exec, execKeyInfo]
  refine State.act_of hl ?_
  simp only [Dev.keyWork_of_ready h, hget, if_pos howner]

end

/-! ### SA_WRITE, SA_READ and SA_INVALIDATE (R392, R393) -/

section
variable (h : s.dev.saReady r 0x20 w)
include h

/-- The first run reads the record. -/
theorem exec_saWrite_reads (hstart : w.started = false) : exec (.saWrite r) s = .next (s.endsWith
    ((s.dev.setWork r w.id fun x => { x with started := true }).workRead w 0 (leAt w.entry 16 8) 128)) := by
  simp only [exec, execSaWrite]
  refine State.act_of hl ?_
  simp only [Dev.saCommand_of_ready h, hstart, Bool.not_false, if_true]

/-- The run after the record has come writes it, with the owner that R392 gives it. -/
theorem exec_saWrite_writes {old new : List Byte} {owner : Func} {keep : Bool} {d : Dev} {k : KeySlot}
    (hstart : w.started = true) (hcame : w.waiting = []) (hold : s.dev.saRead (keyIndex w) = old)
    (howner : (if saFlag old 0 then saOwner old else s.dev.ringFunc r) = owner)
    (hnew : splice (slice w.allData 0 128) 58 (toLE 2 (ownerField owner)) = new)
    (hkeep : decide (byteAt w.entry 3 % 2 = 1) = keep) (hreserved : saReserved new = false)
    (hstandby : (saFlag new 4 && s.dev.standsBy (s.dev.groupKind 3)) = false)
    (hget : s.dev.keyGet (saSlot new) = (d, some k)) (hk : k.owner = owner)
    (hback : (!keep && saFlag old 0 && saOut old && decide (saSlot old = saSlot new) && decide (saSeq new < saResv old)) = false) :
    exec (.saWrite r) s = .next (s.endsWith
      ((d.saWrite (keyIndex w) new old (keep && saFlag old 0)).finishMirrored d.pair.s0.next r w.id 0 [])) := by
  simp only [exec, execSaWrite]
  refine State.act_of hl ?_
  simp only [Dev.saCommand_of_ready h, hstart, hcame, hold, howner, hnew, hkeep, hreserved, hstandby, hget, hk, hback,
    Bool.not_true, Bool.false_eq_true, ne_eq, not_true, if_false]

end

theorem exec_saRead (h : s.dev.saReady r 0x21 w) : exec (.saRead r) s = .next (s.endsWith
    (s.dev.finishPut r w.id (leAt w.entry 16 8) (saShown (s.dev.saRead (keyIndex w))))) := by
  simp only [exec, execSaRead]
  refine State.act_of hl ?_
  simp only [Dev.saCommand_of_ready h]

theorem exec_saInvalidate (h : s.dev.saReady r 0x22 w) : exec (.saInvalidate r) s = .next (s.endsWith
    (((s.dev.hbmWrite (s.dev.saAddr (keyIndex w) + 2) [byteN (byteAt (s.dev.saRead (keyIndex w)) 2 / 2 * 2)]).saMirror
      (keyIndex w)).finishMirrored s.dev.pair.s0.next r w.id 0 [])) := by
  simp only [exec, execSaInvalidate]
  refine State.act_of hl ?_
  simp only [Dev.saCommand_of_ready h]

end

/-- Settles O42, by the command each clause is about, each under `Dev.keyWork_of_ready` or `Dev.saCommand_of_ready`. -/
theorem keyCommandsComplete : Obligations.KeyCommandsComplete := by
  refine ⟨?unwrap, fun s r w hl h hnote => ⟨exec_keyZeroise_all hl h hnote, fun d old hone hget hold =>
      exec_keyZeroise_slot hl h hnote hone hget hold rfl⟩,
    fun s r w hl h => ⟨fun d => exec_keyInfo_empty hl h, fun d k => exec_keyInfo_own hl h⟩,
    fun s r w hl h => ⟨exec_saWrite_reads hl h, fun hstart hcame => ?write⟩,
    fun s r w hl h => exec_saRead hl h, fun s r w hl h => exec_saInvalidate hl h⟩
  case unwrap =>
    intro s r w hl h hnote hlocked hmin hmax husage
    exact ⟨exec_keyUnwrap_reads hl h hnote hlocked hmin hmax husage,
      fun k d old hstart hcame hget hkek hkek_owner hold hroom htag =>
        exec_keyUnwrap_puts hl h hnote hlocked hmin hmax husage hstart hcame hget hkek hkek_owner hold hroom rfl rfl htag⟩
  case write =>
    intro old owner new keep d k hreserved hstandby hget hk hback
    exact exec_saWrite_writes hl h hstart hcame rfl rfl rfl rfl hreserved hstandby hget hk hback

end Sys2Proof.Machine
end

section
/-! PROOF. Store and volume commands: what the mailbox lets through (R471, R601 to R603, R625, R671). -/

namespace Sys2Proof.Machine

section
variable {d : Dev} {r op : Nat} {w : Work}

/-- A store or volume command that uses no store has its effect. -/
theorem Dev.blkMbx_of_blkReady (h : d.blkReady r op w) (f : Dev → Work → Dev) : d.blkMbx r op f false = f d w := by
  obtain ⟨hmbx, hprimary, hblk⟩ := h
  simp only [Dev.blkMbx, Dev.mbx_of_ready hmbx, hprimary, hblk, Bool.not_true, Bool.false_and, Bool.or_false, Bool.false_eq_true,
    if_false]

/-- One that uses stores has its effect while each that has not failed answers. -/
theorem Dev.blkMbx_of_mediaReady (h : d.mediaReady r op w) (f : Dev → Work → Dev) : d.blkMbx r op f = f d w := by
  obtain ⟨⟨hmbx, hprimary, hblk⟩, haway⟩ := h
  simp only [Dev.blkMbx, Dev.mbx_of_ready hmbx, hprimary, hblk, haway, Bool.not_true, Bool.and_false, Bool.or_false,
    Bool.false_eq_true, if_false]

/-- The first run of one with a parameter block issues the read of the block. -/
theorem Dev.blkBlock_issues (h : d.blkReady r op w) (f : Dev → Work → List Byte → Dev) (hs : w.started = false) :
    d.blkBlock r op f = (d.setWork r w.id fun x => { x with started := true }).workRead w 0 (mbxAddr w) 64 :=
  Dev.mbxBlock_issues h.1 _ _ hs

/-- The run after the block has come has its effect on it. -/
theorem Dev.blkBlock_takes {b : List Byte} (h : d.blkBlockReady r op w b) (f : Dev → Work → List Byte → Dev) :
    d.blkBlock r op f = f d w b := by
  obtain ⟨⟨⟨hmbx, hprimary, hblk⟩, haway⟩, hstarted, hcame, rfl⟩ := h
  simp only [Dev.blkBlock, Dev.mbxBlock_takes hmbx _ _ hstarted hcame, hprimary, hblk, haway, Bool.not_true, Bool.or_false,
    Bool.false_eq_true, if_false]

end

end Sys2Proof.Machine
end

section
/-! PROOF. Stores: their acknowledgements, reads and failures, scrub, rebuild and cleaning, the commands on them, and the sub-links
of drives (R440 to R477, R625). -/

namespace Sys2Proof.Machine

/-! ### The sub-links of drives (R477, R624) -/

/-- DRP_LINK of sub-link `j`: up with a drive, at the lower rate and width of the two ends. -/
def Dev.drpLink (d : Dev) (j : Nat) : Nat :=
  if j < 2 ^ bitsOf d.drpCfg 0 2 ∧ d.drives.getD j 0 ≠ 0 ∧ d.accepts .drp 0 = true ∧ d.refUp = true then
    1 + 2 * min (bitsOf d.drpCfg 4 3) (d.drives.getD j 0 % 8) +
      16 * min (16 / 2 ^ bitsOf d.drpCfg 0 2) (d.drives.getD j 0 / 8) else 0

/-- A write of a DRP_LINK word leaves what the sub-links go by. -/
theorem Dev.drpLink_wrN (d : Dev) (i v j : Nat) : (d.wrN (reg .drp 0 (0x110 + 4 * i)) v).drpLink j = d.drpLink j := by
  have hrd : ∀ k ∈ [ctrlReg .drp 0, statusReg .drp 0, reg .pwr 0 0x128, reg .pwr 0 0x128 + 4, reg .clk 0 0x100],
      (d.wrN (reg .drp 0 (0x110 + 4 * i)) v).rdN k = d.rdN k := by
    intro k hk
    rw [Dev.rdN, Dev.rd_wrN_ne]
    · rfl
    · simp only [List.mem_cons, List.not_mem_nil, or_false, ctrlReg, statusReg, reg, blkBase, pageMap] at hk ⊢
      simp at hk ⊢
      omega
  simp only [List.mem_cons, List.not_mem_nil, or_false, forall_eq_or_imp, forall_eq] at hrd
  obtain ⟨hctrl, hstatus, hlow, hhigh, hclk⟩ := hrd
  have haccepts : (d.wrN (reg .drp 0 (0x110 + 4 * i)) v).accepts .drp 0 = d.accepts .drp 0 := by
    simp only [Dev.accepts, Dev.enabled, Dev.quiesce, Dev.fenced, Dev.fencedAt, Dev.domainOn, Dev.rd64, Dev.bit, hctrl, hstatus,
      hlow, hhigh]
  have href : (d.wrN (reg .drp 0 (0x110 + 4 * i)) v).refUp = d.refUp := by
    rw [Dev.refUp, Dev.refUp, Dev.fld, Dev.fld, hclk]
  rw [Dev.drpLink, Dev.drpLink, haccepts, href]
  rfl

/-- Training writes the four DRP_LINK words. -/
theorem Dev.drpTrain_eq (d : Dev) : d.drpTrain = d.putWords (reg .drp 0 0x110) ((rangeFrom 0 4).map d.drpLink) := by
  have hsteps : d.drpTrain =
      (rangeFrom 0 4).foldl (fun e j => e.wrN (reg .drp 0 (0x110 + 4 * j)) (e.drpLink j)) d := rfl
  rw [hsteps]
  simp only [rangeFrom, List.foldl, Dev.drpLink_wrN]
  rfl

theorem Dev.drpLink_lt (d : Dev) (j : Nat) : d.drpLink j < 4294967296 := by
  have hrate : bitsOf d.drpCfg 4 3 < 8 := Nat.mod_lt _ (by decide)
  have hwidth : 16 / 2 ^ bitsOf d.drpCfg 0 2 ≤ 16 := Nat.div_le_self _ _
  unfold Dev.drpLink
  split <;> omega

theorem Dev.rdN_drpTrain (d : Dev) {j : Nat} (hj : j < 4) : d.drpTrain.rdN (reg .drp 0 (0x110 + 4 * j)) = d.drpLink j := by
  have hrange : (rangeFrom 0 4)[j]? = some j := by
    obtain rfl | rfl | rfl | rfl : j = 0 ∨ j = 1 ∨ j = 2 ∨ j = 3 := by omega
    all_goals rfl
  have hlen : j < ((rangeFrom 0 4).map d.drpLink).length := hj
  have hrd : d.drpTrain.rd (reg .drp 0 (0x110 + 4 * j)) = w32 (d.drpLink j) := by
    rw [Dev.drpTrain_eq, show reg .drp 0 (0x110 + 4 * j) = reg .drp 0 0x110 + 4 * j from (Nat.add_assoc ..).symm,
      Dev.rd_putWords _ _ _ hlen]
    rw [List.getElem_map, (List.getElem_eq_iff _).2 hrange]
  exact (Dev.rdN_of_rd hrd).trans (Nat.mod_eq_of_lt (d.drpLink_lt j))

section
variable {s : State} (hl : s.live = true)
include hl

/-! ### Acknowledgements and reads of stores (R446, R459) -/

/-- A write acknowledged lands on its store and is counted to what waits for it. -/
theorem exec_storeAck {store id : Nat} {w : SWrite} {rest : List SWrite}
    (hw : takeFirst (fun w : SWrite => w.sent && decide (w.id = id) && decide (w.store = store) && s.dev.storeReach store)
      s.dev.swrites = some (w, rest)) : exec (.storeAck store id) s =
    .next (s.endsWith (((({ s.dev with swrites := rest } : Dev).storeLand store w.lba w.data).ioPump).acked id store)) := by
  simp only [exec, execStoreAck]
  refine State.act_of hl ?_
  simp only [hw]

/-- A read that ends goes on with its grain once no other read of it is out. -/
theorem exec_storeReadComplete {id : Nat} {ok : Bool} {data : List Byte} {r : SRead} {rest : List SRead} {t : GTask} {e : Dev}
    (hsent : (s.dev.sreads.any fun r => r.sent && decide (r.id = id) && s.dev.storeReach r.store) = true)
    (hr : takeFirst (fun r : SRead => decide (r.id = id)) s.dev.sreads = some (r, rest))
    (he : e = ({ s.dev with sreads := rest } : Dev).setTask r.task
      fun t => { t with frags := t.frags ++ [(r.member, if ok then some data else none)] }) (ht : e.task? r.task = some t) :
    exec (.storeReadComplete id ok data) s = .next (s.endsWith
      (if (e.sreads.any fun r => decide (r.task = t.id)) = true then e else (e.taskRead t).blkPump).ioPump) := by
  simp only [exec, execStoreReadComplete]
  refine State.act_of hl ((if_pos hsent).trans ?_)
  simp only [Dev.readEnded, hr, ← he, ht]

/-! ### Failures of stores and timeouts (R443, R449, R451) -/

theorem exec_storeFail {store : Nat} (h : (s.dev.store? store).state = 1 ∨ (s.dev.store? store).state = 3) :
    exec (.storeFail store) s = .next (s.endsWith (s.dev.storeLost store)) := by
  have hworks : ¬ ((s.dev.store? store).state ≠ 1 ∧ (s.dev.store? store).state ≠ 3) := by omega
  simp only [exec, execStoreFail]
  exact State.act_of hl (if_neg hworks)

section
variable {id : Nat} {c : QCmd} {x : Vol} (hc : s.dev.qcmd id = some c) (hx : s.dev.vols.find c.vol = some x)
  (hwaits : s.dev.waitsPlace id x = true) (haway : s.dev.membersAway x = false)
include hc hx hwaits haway

/-- A command that finds no substitute for a missing member ends with DURABILITY_LOST; its volume goes READ_ONLY. -/
theorem exec_substituteTimeout (hmissing : (vrMembers x.rec_).all s.dev.storeReady = false) {e : Dev}
    (he : s.dev.durabilityLost id = e) : exec (.substituteTimeout id) s =
      .next (s.endsWith (if e.volState x = 0 ∨ e.volState x = 4 then e.volTo c.vol x 1 else e).blkPump) := by
  have hgo : s.dev.waitsPlace id x = true ∧ ¬ s.dev.membersAway x = true ∧ (vrMembers x.rec_).all s.dev.storeReady = false :=
    ⟨hwaits, by simp [haway], hmissing⟩
  simp only [exec, execSubstituteTimeout]
  refine State.act_of hl ?_
  simp only [hc, hx, if_pos hgo, he]

/-- A command that finds no free extent on the stores of its volume ends with DURABILITY_LOST. -/
theorem exec_noExtentTimeout (hready : (vrMembers x.rec_).all s.dev.storeReady = true) :
    exec (.noExtentTimeout id) s = .next (s.endsWith (s.dev.durabilityLost id).blkPump) := by
  have hgo : s.dev.waitsPlace id x = true ∧ ¬ s.dev.membersAway x = true ∧ (vrMembers x.rec_).all s.dev.storeReady = true :=
    ⟨hwaits, by simp [haway], hready⟩
  simp only [exec, execNoExtentTimeout]
  refine State.act_of hl ?_
  simp only [hc, hx, if_pos hgo]

end

/-! ### Scrub, cleaning and rebuild (R461, R462, R468) -/

section
variable {vol : Nat} {x : Vol} (hx : s.dev.vol? vol = some x) (hblk : s.dev.accepts .blkg 0 = true)
  (haway : s.dev.storesAway = false) (hcores : s.dev.coresDead = false)
include hx hblk haway hcores

section
variable (htakes : s.dev.storeTakes = true) (hrate : s.dev.scrubWindow.2 < s.dev.fld (reg .blkg 0 0x124) 0 24)
  (hturn : s.dev.scrubNow = some vol)
include htakes hrate hturn

omit hl hx in
/-- Nothing keeps the scrubber from the volume whose turn it is. -/
theorem scrub_goes : ¬ (¬ s.dev.accepts .blkg 0 = true ∨ ¬ s.dev.storeTakes = true ∨ s.dev.storesAway = true ∨ s.dev.coresDead = true ∨
    s.dev.fld (reg .blkg 0 0x124) 0 24 ≤ s.dev.scrubWindow.2 ∨ s.dev.scrubNow ≠ some vol) := by
  simp [hblk, htakes, haway, hcores, hturn, hrate]

/-- The scrubber takes the next MAPPED grain. -/
theorem exec_blkScrub_next {grain : Nat} (copies : List (Option (List Byte))) (hnext : x.nextMapped x.scrub = some grain) :
    exec (.blkScrub vol grain copies) s = .next (s.endsWith (s.dev.scrubStep vol grain x copies)) := by
  simp only [exec, execBlkScrub]
  refine State.act_of hl ?_
  simp only [hx, if_neg (scrub_goes hblk haway hcores htakes hrate hturn), hnext, if_true]

/-- Past the last one it ends its pass. -/
theorem exec_blkScrub_ends (grain : Nat) (copies : List (Option (List Byte))) (hnone : x.nextMapped x.scrub = none) :
    exec (.blkScrub vol grain copies) s = .next (s.endsWith (s.dev.scrubEnd vol x)) := by
  simp only [exec, execBlkScrub]
  refine State.act_of hl ?_
  simp only [hx, if_neg (scrub_goes hblk haway hcores htakes hrate hturn), hnone]

end

/-- A sealed segment with the fewest live grains is cleaned. -/
theorem exec_segmentClean {seg : Nat} {g : Seg} (hg : x.segs.find seg = some g) (hsealed : g.sealed = true)
    (hcluster : s.dev.clusterTakes 2 = true) (hfewest : (s.dev.cleanable.all fun q => decide ((x.liveIn seg).length ≤ q.2.2)) = true) :
    exec (.segmentClean vol seg) s = .next (s.endsWith (s.dev.cleanSeg vol seg x)) := by
  have hgo : ¬ (¬ s.dev.accepts .blkg 0 = true ∨ ¬ g.sealed = true ∨ ¬ s.dev.clusterTakes 2 = true ∨ s.dev.storesAway = true ∨
      s.dev.coresDead = true ∨ (s.dev.cleanable.all fun q => decide ((x.liveIn seg).length ≤ q.2.2)) = false) := by
    rw [hblk, hsealed, hcluster, haway, hcores, hfewest]
    decide
  simp only [exec, execSegmentClean]
  refine State.act_of hl ?_
  simp only [hx, hg, if_neg hgo]

end

/-- What a lost store held is rebuilt. -/
theorem exec_rebuild {store : Nat} (hblk : s.dev.accepts .blkg 0 = true) (hcluster : s.dev.clusterTakes 2 = true)
    (haway : s.dev.storesAway = false) (hcores : s.dev.coresDead = false) (hlanding : s.dev.pair.landing = [])
    (hlost : s.dev.storeReady store = false ∨ s.dev.lacksExtents store = true) :
    exec (.rebuild store) s = .next (s.endsWith (s.dev.vols.keys.foldl (rebuildVol store) s.dev).logRetry.blkPump) := by
  have hgo : ¬ (¬ s.dev.accepts .blkg 0 = true ∨ ¬ s.dev.clusterTakes 2 = true ∨ s.dev.storesAway = true ∨ s.dev.coresDead = true ∨
      s.dev.pair.landing ≠ [] ∨ (s.dev.storeReady store = true ∧ ¬ s.dev.lacksExtents store = true)) := by
    simp only [hblk, hcluster, haway, hcores, hlanding]
    obtain h | h := hlost <;> simp [h]
  simp only [exec, execRebuild]
  exact State.act_of hl (if_neg hgo)

end

/-! ### STORE_ADD (R440, R443, R471, R472) -/

section
variable {d e : Dev} {w : Work} {b nqn host : List Byte} {m : Medium}

/-- The store that STORE_ADD makes of a descriptor. -/
abbrev storeOf (b nqn host : List Byte) : StoreSt :=
  { state := 1, remote := byteAt b 0 = 2, medium := mediumKey b nqn, desc := b, nqn := nqn, hostNqn := host }

variable (hmeet : d.meetMedium (mediumKey b nqn) = (e, m)) (hdrp : ¬ (¬ byteAt b 0 = 2 ∧ e.accepts .drp 0 = false))
  (hnew : (e.stores.values.any fun x => decide (x.state ≠ 0 ∧ x.medium = mediumKey b nqn)) = false)
include hmeet hdrp hnew

/-- A medium formatted as the store its descriptor names joins. -/
theorem Dev.storeAdd_formats (hformat : bitOf (byteAt b 1) 0 = true) (hok : e.mediumOk (byteAt b 2) m = true)
    (hfree : (e.store? (byteAt b 2)).state = 0) : d.storeAdd w b nqn host =
      ((((e.storeFormat (byteAt b 2) (storeOf b nqn host) m).storeJoin (byteAt b 2) (storeOf b nqn host)).logRetry.blkPump).finish
        w.ring w.id 0 [byteN (byteAt b 2)]) := by
  have hcap : ¬ ((!e.mediumOk (byteAt b 2) m) = true ∨ (¬ byteAt b 0 = 2 ∧ e.accepts .drp 0 = false)) := by simpa [hok] using hdrp
  have hknown : ¬ ((e.store? (byteAt b 2)).state ≠ 0 ∨
      (e.stores.values.any fun x => decide (x.state ≠ 0 ∧ x.medium = mediumKey b nqn)) = true) := by
    rw [hfree, hnew]
    decide
  simp only [Dev.storeAdd, hmeet, hformat, if_true, if_neg hcap, not_true_eq_false, false_and, if_false, if_neg hknown]

/-- A medium with a valid label joins as the store that its label names. -/
theorem Dev.storeAdd_joins {st : Nat} (hkeep : bitOf (byteAt b 1) 0 = false) (hst : st = byteAt (m.read 0 2) 5)
    (hlabel : labelValid (m.read 0 2) = true) (hremote : byteAt b 0 = 2 → 32 ≤ st) (hlocal : byteAt b 0 ≠ 2 → st < 32)
    (hok : e.mediumOk st m = true) (hfree : (e.store? st).state = 0) : d.storeAdd w b nqn host =
      ((e.storeJoin st (storeOf b nqn host)).logRetry.blkPump.finish w.ring w.id 0 [byteN st]) := by
  have hplace : ¬ (byteAt b 0 = 2 ↔ st < 32) := by
    by_cases h : byteAt b 0 = 2
    · simpa [h] using hremote h
    · simpa [h] using hlocal h
  have hcap : ¬ ((!e.mediumOk st m) = true ∨ (¬ byteAt b 0 = 2 ∧ e.accepts .drp 0 = false)) := by simpa [hok] using hdrp
  have hvalid : ¬ (¬ False ∧ (labelValid (m.read 0 2) = false ∨ ((byteAt b 0 = 2) = True ↔ st < 32))) := by
    simp [hlabel, hplace]
  have hknown : ¬ ((e.store? st).state ≠ 0 ∨
      (e.stores.values.any fun x => decide (x.state ≠ 0 ∧ x.medium = mediumKey b nqn)) = true) := by
    rw [hfree, hnew]
    decide
  simp only [Dev.storeAdd, hmeet, hkeep, Bool.false_eq_true, if_false, ← hst, if_neg hcap, if_neg hvalid, if_neg hknown]

end

section
variable {s : State} (hl : s.live = true) {r : Nat} {w : Work}
include hl

section
variable {b : List Byte} (h : s.dev.blkBlockReady r 0x50 w b) (hlegal : descReserved b = false) (href : s.dev.refUp = true)
include h hlegal href

/-- The run of STORE_ADD on a descriptor of a remote store reads the names of its two ends. -/
theorem exec_storeAdd_names (hremote : byteAt b 0 = 2) (hnote : w.note ≠ [4]) : exec (.storeAdd r) s = .next (s.endsWith
    (((s.dev.setWork r w.id fun x => { x with note := [4] }).workRead w 1 (leAt b 28 8) (leAt b 36 2)).workRead w 2
      (leAt b 38 8) (leAt b 46 2))) := by
  simp only [exec, execStoreAdd]
  refine State.act_of hl ((Dev.blkBlock_takes h _).trans ?_)
  simp only [hlegal, href, hremote, hnote, Bool.false_eq_true, not_true, if_false, ne_eq, not_false_eq_true, and_self, if_true]

/-- The run with all that the descriptor names adds the store. -/
theorem exec_storeAdd_adds {nqn host : List Byte} (hnames : byteAt b 0 ≠ 2 ∧ nqn = [] ∧ host = [] ∨
      byteAt b 0 = 2 ∧ w.note = [4] ∧ nqn = slice (w.part 1) 0 (leAt b 36 2) ∧ host = slice (w.part 2) 0 (leAt b 46 2)) :
    exec (.storeAdd r) s = .next (s.endsWith (s.dev.storeAdd w b nqn host)) := by
  simp only [exec, execStoreAdd]
  refine State.act_of hl ((Dev.blkBlock_takes h _).trans ?_)
  obtain ⟨hlocal, rfl, rfl⟩ | ⟨hremote, hnote, rfl, rfl⟩ := hnames
  · simp only [hlegal, href, hlocal, Bool.false_eq_true, not_true, if_false, false_and]
  · simp only [hlegal, href, hremote, hnote, Bool.false_eq_true, not_true, if_false, ne_eq, and_false, if_true]

end

/-! ### STORE_REMOVE (R443, R471) -/

section
variable {st : Nat} (h : s.dev.mediaReady r 0x51 w) (hst : st = mbxArg w % 256) (hplace : st < 96)
include h hst hplace

/-- A READY store that is drained is REMOVING, and the open segments on it are sealed. -/
theorem exec_storeRemove_drains (hready : (s.dev.store? st).state = 1) (hdrain : bitOf (mbxFlags w) 0 = true) :
    exec (.storeRemove r) s = .next (s.endsWith
      ((s.dev.vols.cells.foldl (sealOn st) (s.dev.setStore st { s.dev.store? st with state := 3 })).finish r w.id 0)) := by
  subst hst
  have hbusy : ¬ ((s.dev.store? (mbxArg w % 256)).state = 0 ∨ (s.dev.store? (mbxArg w % 256)).state = 3 ∨
      (s.dev.storeMember (mbxArg w % 256) = true ∧ ¬ bitOf (mbxFlags w) 0 = true)) := by simp [hready, hdrain]
  simp only [exec, execStoreRemove]
  exact State.act_of hl ((Dev.blkMbx_of_mediaReady h _).trans
    ((if_neg (Nat.not_le.2 hplace)).trans ((if_neg hbusy).trans (if_pos ⟨hready, hdrain⟩))))

/-- A store that is no member of a volume goes at once; the queues of one that is READY are closed. -/
theorem exec_storeRemove_goes (hkeep : bitOf (mbxFlags w) 0 = false) (hfree : s.dev.storeMember st = false)
    (hstate : (s.dev.store? st).state = 1 ∨ (s.dev.store? st).state = 2) : exec (.storeRemove r) s = .next (s.endsWith
      (((if (s.dev.store? st).state = 1 then s.dev.storeClose st else s.dev).setStore st {}).finish r w.id 0)) := by
  subst hst
  have hbusy : ¬ ((s.dev.store? (mbxArg w % 256)).state = 0 ∨ (s.dev.store? (mbxArg w % 256)).state = 3 ∨
      (s.dev.storeMember (mbxArg w % 256) = true ∧ ¬ bitOf (mbxFlags w) 0 = true)) := by
    rw [hfree]
    obtain h | h := hstate <;> simp [h]
  have hstays : ¬ ((s.dev.store? (mbxArg w % 256)).state = 1 ∧ bitOf (mbxFlags w) 0 = true) := by simp [hkeep]
  simp only [exec, execStoreRemove]
  exact State.act_of hl ((Dev.blkMbx_of_mediaReady h _).trans
    ((if_neg (Nat.not_le.2 hplace)).trans ((if_neg hbusy).trans (if_neg hstays))))

end

/-- A REMOVING store without extents and writes goes. -/
theorem exec_storeRemoved {store : Nat} (hstate : (s.dev.store? store).state = 3) (hempty : (s.dev.store? store).ext.cells = [])
    (hidle : (s.dev.swrites.all fun w => decide (w.store ≠ store)) = true) : exec (.storeRemoved store) s =
      .next (s.endsWith (((s.dev.storeClose store).setStore store {}).blkEvent 0x71 0 store 0 0 3 0 0 0 0 0xFF)) := by
  simp only [exec, execStoreRemoved]
  exact State.act_of hl (if_pos ⟨hstate, hempty, hidle⟩)

/-- A drive that comes, with what it can do, or goes has its sub-link trained. -/
theorem exec_drpPresenceChange {j : Nat} {present : Bool} (hj : j < 4) {q : Dev × Nat}
    (hq : (if present = true then s.dev.drawDrive else (s.dev, 0)) = q) : exec (.drpPresenceChange j present) s =
      .next (s.endsWith ({ q.1 with drives := q.1.drives.set j q.2 0 } : Dev).drpTrain) := by
  simp only [exec, execDrpPresenceChange]
  refine State.act_of hl ((if_neg (Nat.not_le.2 hj)).trans ?_)
  simp only [hq]

end

/-- Settles O43, by the event or command each clause is about, and the sub-links by `Dev.rdN_drpTrain`.  That all of it waits while
a store does not answer is the model's reading (log entry 225); that a step waits for no acknowledgement of the device's own
records, and what a drive can do, are its choice (log entries 107, 227). -/
theorem storesComplete : Obligations.StoresComplete := by
  refine ⟨fun s store id w rest hl => exec_storeAck hl, ?reads, fun s store hl => exec_storeFail hl, ?timeouts, ?background,
    fun s store hl => exec_rebuild hl, ?add, ?remove, fun s store hl => exec_storeRemoved hl,
    fun s j present hl hj => exec_drpPresenceChange hl hj rfl, fun d j hj => d.rdN_drpTrain hj⟩
  case reads =>
    intro s id ok data r rest t e hl hsent hr he ht
    rw [exec_storeReadComplete hl hsent hr he ht]
    exact ⟨fun hmore => by rw [if_pos hmore], fun hlast => by rw [hlast, if_neg Bool.false_ne_true]⟩
  case timeouts =>
    intro s id c x hl hc hx hwaits haway
    refine ⟨fun hmissing e he => ?_, exec_noExtentTimeout hl hc hx hwaits haway⟩
    rw [exec_substituteTimeout hl hc hx hwaits haway hmissing he.symm]
    exact ⟨fun hwrites => by rw [if_pos hwrites], fun h0 h4 => by rw [if_neg (not_or.2 ⟨h0, h4⟩)]⟩
  case background =>
    intro s vol x hl hx hblk haway hcores
    exact ⟨fun grain copies htakes hrate hturn => ⟨exec_blkScrub_next hl hx hblk haway hcores htakes hrate hturn copies,
      exec_blkScrub_ends hl hx hblk haway hcores htakes hrate hturn grain copies⟩,
      fun seg g => exec_segmentClean hl hx hblk haway hcores⟩
  case add =>
    intro s r w hl hready
    refine ⟨fun hstart => ?_, fun b h hlegal href => ⟨exec_storeAdd_names hl h hlegal href, ?_⟩⟩
    · simp only [exec, execStoreAdd]
      exact State.act_of hl (Dev.blkBlock_issues hready _ hstart)
    · rintro nqn host e m hnames hmeet hnew rfl
      have hdrp : ¬ (¬ byteAt b 0 = 2 ∧ e.accepts .drp 0 = false) := by
        obtain ⟨-, -, -, h⟩ | ⟨h, -⟩ := hnames <;> simp [h]
      rw [exec_storeAdd_adds hl h hlegal href (hnames.imp_left fun ⟨hlocal, hnqn, hhost, _⟩ => ⟨hlocal, hnqn, hhost⟩)]
      exact ⟨fun hformat hok hfree => by rw [Dev.storeAdd_formats hmeet hdrp hnew hformat hok hfree],
        fun st hkeep hst hlabel hremote hlocal hok hfree => by
          rw [Dev.storeAdd_joins hmeet hdrp hnew hkeep hst hlabel hremote hlocal hok hfree]⟩
  case remove =>
    intro s r st w hl h hst hplace
    refine ⟨exec_storeRemove_drains hl h hst hplace, fun hkeep hfree => ⟨fun hready => ?_, fun hfailed => ?_⟩⟩
    · rw [exec_storeRemove_goes hl h hst hplace hkeep hfree (.inl hready), if_pos hready]
    · rw [exec_storeRemove_goes hl h hst hplace hkeep hfree (.inr hfailed), if_neg (by omega)]

end Sys2Proof.Machine
end

section
/-! PROOF. The volume commands of the primary manager (R436, R437, R454, R464 to R471). -/

namespace Sys2Proof.Machine

/-- A command on a volume that exists, that no standby group holds and whose mirror has room, has its effect. -/
theorem Dev.volMbx_of_volReady {d : Dev} {v : Nat} {x : Vol} (h : d.volReady v x) (r id : Nat) (f : Dev → Vol → Dev) :
    d.volMbx r id v f = f d x := by
  obtain ⟨hx, hheld, hroom⟩ := h
  simp only [Dev.volMbx, hx, hheld, hroom, Bool.false_eq_true, if_false]

section
variable {s : State} (hl : s.live = true) {r : Nat} {w : Work}
include hl

/-- The first run of VOL_CREATE or VOL_MIGRATE reads the record. -/
theorem exec_of_mem_volRecords {q : Instr × Nat} (hstart : w.started = false)
    (hq : q ∈ [(Instr.volCreate r, 0x52), (.volMigrate r, 0x54)]) (h : s.dev.blkReady r q.2 w) : exec q.1 s =
      .next (s.endsWith ((s.dev.setWork r w.id fun x => { x with started := true }).workRead w 0 (mbxAddr w) 64)) := by
  simp only [List.mem_cons, List.not_mem_nil, or_false] at hq
  obtain rfl | rfl := hq
  · simp only [exec, execVolCreate]
    exact State.act_of hl (Dev.blkBlock_issues h _ hstart)
  · simp only [exec, execVolMigrate]
    exact State.act_of hl (Dev.blkBlock_issues h _ hstart)

/-! ### VOL_CREATE (R436, R437, R470) -/

/-- A good record creates its volume. -/
theorem exec_volCreate {b : List Byte} {e : Dev} {k : List Byte} (h : s.dev.blkBlockReady r 0x52 w b)
    (hlegal : vrReserved b = false) (hstate : vrState b = 0 ∨ vrState b = 3) (hnew : s.dev.vols.find (vrVol b) = none)
    (hsize : sizeOk (vrBlocks b) = true) (howner : s.dev.mayOwn (vrOwner b) 1 = true)
    (hmap : s.dev.otherBlocks (vrVol b) + vrBlocks b ≤ s.dev.mapBlocks) (hmembers : s.dev.membersReady b = true)
    (hstandby : (vrPair b && s.dev.standsBy (s.dev.groupKind 2)) = false)
    (hwide : vrState b = 0 → vrWide b = true → s.dev.enginesAll = true)
    (hroom : (vrPair b && s.dev.groupActive (s.dev.groupKind 2) && s.dev.pairFull) = false)
    (hkey : (if vrState b = 0 then s.dev.volKey b else (s.dev, some [])) = (e, some k)) :
    exec (.volCreate r) s = .next (s.endsWith ((e.volRecord (vrVol b) { rec_ := b, eng := vrEngine b, fresh := true }
      (splice b 52 (zeros 8))).mapLayout.finishVol e.pair.s1.next r w.id)) := by
  have hencoding : ¬ (vrReserved b = true ∨ (vrState b ≠ 0 ∧ vrState b ≠ 3)) := by
    obtain h | h := hstate <;> simp [hlegal, h]
  have hstands : ¬ ((!s.dev.membersReady b) = true ∨ (vrPair b && s.dev.standsBy (s.dev.groupKind 2)) = true ∨
      (vrState b = 0 ∧ vrWide b = true ∧ ¬ s.dev.enginesAll = true)) := by
    rw [hmembers, hstandby]
    simpa using hwide
  simp only [exec, execVolCreate]
  refine State.act_of hl ((Dev.blkBlock_takes h _).trans ?_)
  simp only [if_neg hencoding, hnew, howner, hsize, if_neg (Nat.not_lt.2 hmap), if_neg hstands, hroom, hkey, Option.isSome_none,
    Bool.not_true, Bool.false_eq_true, if_false]

/-! ### VOL_STATE (R39, R470, R611) -/

section
variable {v : Nat} {x : Vol} (h : s.dev.mediaReady r 0x53 w) (hv : v = mbxArg w % 65536) (hx : s.dev.volReady v x)
include h hv hx

/-- An ONLINE volume can be made READ_ONLY. -/
theorem exec_volState_readOnly (htarget : bitsOf (mbxArg w) 16 8 = 1) (hst : s.dev.volState x = 0)
    (hstore : s.dev.storeGone = false) : exec (.volState r) s =
      .next (s.endsWith ((s.dev.volTo v x 1).finishVol s.dev.pair.s1.next r w.id)) := by
  subst hv
  simp only [exec, execVolState]
  refine State.act_of hl ((Dev.blkMbx_of_mediaReady h _).trans ?_)
  simp [Dev.volMbx_of_volReady hx, htarget, hst, hstore]

/-- A volume that serves can be made QUIESCING. -/
theorem exec_volState_quiesces (htarget : bitsOf (mbxArg w) 16 8 = 3)
    (hst : s.dev.volState x = 0 ∨ s.dev.volState x = 1 ∨ s.dev.volState x = 4) : exec (.volState r) s =
      .next (s.endsWith ((s.dev.volTo v x 2).finishVol s.dev.pair.s1.next r w.id)) := by
  subst hv
  simp only [exec, execVolState]
  refine State.act_of hl ((Dev.blkMbx_of_mediaReady h _).trans ?_)
  simp [Dev.volMbx_of_volReady hx, htarget, hst]

/-- An OFFLINE or READ_ONLY volume with its key, its engines and its stores can be made ONLINE. -/
theorem exec_volState_online {e : Dev} {k : List Byte} (htarget : bitsOf (mbxArg w) 16 8 = 0)
    (hst : s.dev.volState x = 3 ∨ s.dev.volState x = 1) (hstore : s.dev.storeGone = false)
    (hwide : vrWide x.rec_ = true → s.dev.enginesAll = true) (hkey : s.dev.volKey x.rec_ = (e, some k)) :
    exec (.volState r) s = .next (s.endsWith ((e.volTo v x 0).finishVol s.dev.pair.s1.next r w.id)) := by
  subst hv
  have hgo : ¬ ((s.dev.volState x ≠ 3 ∧ s.dev.volState x ≠ 1) ∨ s.dev.storeGone = true ∨
      (vrWide x.rec_ = true ∧ ¬ s.dev.enginesAll = true)) := by
    rw [hstore]
    simp only [Bool.false_eq_true, false_or, not_or, not_and, not_not]
    exact ⟨fun h3 => by omega, hwide⟩
  simp only [exec, execVolState]
  refine State.act_of hl ((Dev.blkMbx_of_mediaReady h _).trans ?_)
  simp only [Dev.volMbx_of_volReady hx, htarget, if_neg hgo, hkey, ne_eq, not_true_eq_false, false_and, if_false, zero_ne_one,
    OfNat.zero_ne_ofNat]

end

/-! ### VOL_MIGRATE, VOL_RESIZE and VOL_DELETE (R436, R437, R470, R471) -/

/-- An ONLINE volume takes a new policy on READY stores, with its open segment sealed. -/
theorem exec_volMigrate {b : List Byte} {x : Vol} (h : s.dev.blkBlockReady r 0x54 w b) (hlegal : vrReserved b = false)
    (hx : s.dev.volReady (vrVol b) x) (hst : s.dev.volState x = 0) (hmembers : s.dev.membersReady b = true)
    (hstandby : (vrPair b && s.dev.standsBy (s.dev.groupKind 2)) = false) (hfixed : migrateFixed b = migrateFixed x.rec_)
    (hroom : (vrPair b && s.dev.groupActive (s.dev.groupKind 2) && s.dev.pairFull) = false) :
    exec (.volMigrate r) s = .next (s.endsWith ((s.dev.volTo (vrVol b)
      { x with rec_ := b, segs := x.sealedSegs, open_ := none } 4).finishVol s.dev.pair.s1.next r w.id)) := by
  have hgo : ¬ (s.dev.volState x ≠ 0 ∨ (!s.dev.membersReady b) = true ∨
      (vrPair b && s.dev.standsBy (s.dev.groupKind 2)) = true) := by
    rw [hst, hmembers, hstandby]
    decide
  simp only [exec, execVolMigrate]
  refine State.act_of hl ((Dev.blkBlock_takes h _).trans ?_)
  simp only [hlegal, Dev.volMbx_of_volReady hx, if_neg hgo, if_neg (not_not_intro hfixed), hroom, Bool.false_eq_true, if_false]

/-- A volume grows, or an OFFLINE one shrinks with the map above its new size dropped. -/
theorem exec_volResize {v n : Nat} {x : Vol} (h : s.dev.mediaReady r 0x55 w) (hv : v = mbxArg w % 65536)
    (hn : n = mbxArg w / 65536) (hx : s.dev.volReady v x) (hsize : sizeOk n = true)
    (hst : vrBlocks x.rec_ ≤ n ∨ s.dev.volState x = 3) (hmap : s.dev.otherBlocks v + n ≤ s.dev.mapBlocks) :
    exec (.volResize r) s = .next (s.endsWith ((s.dev.volRecord v { x with map := x.map.filter fun g _ => decide (g < n / 16) }
      (splice x.rec_ 8 (toLE 8 n))).mapLayout.finishVol s.dev.pair.s1.next r w.id)) := by
  subst hv hn
  have hshrinks : ¬ (mbxArg w / 65536 < vrBlocks x.rec_ ∧ s.dev.volState x ≠ 3) := by omega
  simp only [exec, execVolResize]
  refine State.act_of hl ((Dev.blkMbx_of_mediaReady h _).trans ?_)
  simp only [Dev.volMbx_of_volReady hx, hsize, if_neg hshrinks, if_neg (Nat.not_lt.2 hmap), Bool.not_true, Bool.false_eq_true,
    if_false]

/-- An OFFLINE volume goes with its extents. -/
theorem exec_volDelete {v : Nat} {x : Vol} {e : Dev} (h : s.dev.mediaReady r 0x56 w) (hv : v = mbxArg w % 65536)
    (hx : s.dev.volReady v x) (hst : s.dev.volState x = 3)
    (he : e = (s.dev.freeVol v x).volRecord v x (splice x.rec_ 2 [0xFF])) : exec (.volDelete r) s = .next (s.endsWith
      (((({ e with vols := e.vols.erase v } : Dev).mapLayout.blkEvent 0x72 0 0xFF v 0xFF 3 0 0 0 0 0xFF).logRetry.blkPump).finishVol
        s.dev.pair.s1.next r w.id)) := by
  subst hv he
  simp only [exec, execVolDelete]
  refine State.act_of hl ((Dev.blkMbx_of_mediaReady h _).trans ?_)
  simp only [Dev.volMbx_of_volReady hx, if_neg (not_not_intro hst)]

/-! ### VOL_INFO, VOL_RECOVER and SCRUB_NOW (R464 to R466, R471) -/

theorem exec_volInfo {x : Vol} (h : s.dev.blkReady r 0x57 w) (hx : s.dev.vol? (mbxArg w % 65536) = some x) :
    exec (.volInfo r) s = .next (s.endsWith (s.dev.finishPut r w.id (mbxAddr w) (s.dev.volInfo x))) := by
  simp only [exec, execVolInfo]
  refine State.act_of hl ((Dev.blkMbx_of_blkReady h _).trans ?_)
  simp only [hx]

/-- VOL_RECOVER rebuilds volumes from the media, or waits for the room of the mirror stream. -/
theorem exec_volRecover (h : s.dev.mediaReady r 0x58 w) {q : Dev × Nat} (hq : s.dev.recoverAll
      (if bitOf (mbxFlags w) 0 then s.dev.recoverable else [mbxArg w % 65536]) (bitOf (mbxFlags w) 1) = q) :
    exec (.volRecover r) s = .next (s.endsWith (if (s.dev.groupActive (s.dev.groupKind 2) && s.dev.pairFull) = true
      then s.dev.mirrorStall else q.1.finishVol s.dev.pair.s1.next r w.id q.2)) := by
  subst hq
  simp only [exec, execVolRecover]
  exact State.act_of hl (Dev.blkMbx_of_mediaReady h _)

theorem exec_scrubNow {v : Nat} {x : Vol} (h : s.dev.blkReady r 0x59 w) (hv : v = mbxArg w % 65536) (hx : s.dev.volReady v x) :
    exec (.scrubNow r) s = .next (s.endsWith ((s.dev.setVol v { x with scrub := 0 }).finish r w.id 0)) := by
  subst hv
  simp only [exec, execScrubNow]
  exact State.act_of hl ((Dev.blkMbx_of_blkReady h _).trans (Dev.volMbx_of_volReady hx _ _ _))

end

/-- Settles O44, by the command each clause is about, each under the checks of the mailbox and `Dev.volMbx_of_volReady`.  That a
created volume exists only from the next boundary on (`fresh`) is the model's choice (log entries 117, 121). -/
theorem volumeCommandsComplete : Obligations.VolumeCommandsComplete := by
  refine ⟨fun s r w hl hstart q hq => exec_of_mem_volRecords hl hstart hq, fun s r w b e k hl => exec_volCreate hl, ?states,
    fun s r w b x hl => exec_volMigrate hl, fun s r v n w x hl => exec_volResize hl, fun s r v w x e hl => exec_volDelete hl,
    fun s r w x hl => exec_volInfo hl, ?recover, fun s r v w x hl => exec_scrubNow hl⟩
  case states =>
    intro s r v w x hl h hv hx
    exact ⟨exec_volState_readOnly hl h hv hx, exec_volState_quiesces hl h hv hx, fun e k => exec_volState_online hl h hv hx⟩
  case recover =>
    intro s r w hl h q stalled
    rw [exec_volRecover hl h rfl]
    exact ⟨fun hroom => by rw [if_neg (Bool.eq_false_iff.1 hroom)], fun hfull => by rw [if_pos hfull]⟩

end Sys2Proof.Machine
end

section
/-! PROOF. Quern: pushes, refusals, the start, the meaning and the end of commands (R479 to R498, R532, R547, R553). -/

namespace Sys2Proof.Machine

/-! ### A write that touches a stride (R480 to R483) -/

section
variable {d : Dev} {f : Func} {data : List Byte} {i q : Nat} (hq : d.queueOfLocal f i = some q) (hon : (d.queue q).state ≠ .off)
include hq hon

/-- A torn push is refused into the slot of the queue. -/
theorem Dev.pushStride_torn : d.pushStride f data true i = (d.bump (qrnCount 0x108)).refusePush q 0x34 0xFFFF := by
  simp only [Dev.pushStride, hq, if_neg hon, if_true]

/-- A push to a queue that ends its work is refused into the slot. -/
theorem Dev.pushStride_closed (hends : (d.queue q).state = .quiescing ∨ (d.queue q).state = .resetting) :
    d.pushStride f data false i = (d.bump (qrnCount 0x118)).refusePush q 0x05 (leAt data 2 2) := by
  simp only [Dev.pushStride, hq, if_neg hon, if_pos hends, Bool.false_eq_true, if_false]

section
variable (hquiescing : (d.queue q).state ≠ .quiescing) (hresetting : (d.queue q).state ≠ .resetting)
include hquiescing hresetting

/-- A push to a full queue is refused into the slot. -/
theorem Dev.pushStride_full (hfull : d.fld (queueKey q 0) 16 11 ≤ (d.queueCmds q).length) :
    d.pushStride f data false i = (d.bump (qrnCount 0x110)).refusePush q 0x33 (leAt data 2 2) := by
  simp only [Dev.pushStride, hq, if_neg hon, if_neg (not_or.2 ⟨hquiescing, hresetting⟩), if_pos hfull, Bool.false_eq_true, if_false]

/-- A push to a queue with room is accepted. -/
theorem Dev.pushStride_accepts (hroom : (d.queueCmds q).length < d.fld (queueKey q 0) 16 11) :
    d.pushStride f data false i = d.acceptPush f q data := by
  simp only [Dev.pushStride, hq, if_neg hon, if_neg (not_or.2 ⟨hquiescing, hresetting⟩), if_neg (Nat.not_le.2 hroom),
    Bool.false_eq_true, if_false]

end

end

/-- A command is taken up with its own opcode. -/
theorem Dev.cmdBegin_of_op {d : Dev} {id op : Nat} {c : QCmd} (hc : d.qcmd id = some c) (hop : c.op = op) (hphase : c.phase = 0) :
    d.cmdBegin id op = d.cmdGo id := by
  simp only [Dev.cmdBegin, hc, if_pos (And.intro hop hphase)]

section
variable {s : State} (hl : s.live = true)
include hl

section
variable {f : Func} {off : Nat} {data : List Byte} {whole : Bool} (hf : s.dev.fnExists f = true)
include hf

/-- A whole write of a stride in its place touches that stride alone. -/
theorem exec_push_whole {d : Dev} (hbase : strideBase f ≤ off) (hlen : data.length = 64) (hplace : (off - strideBase f) % 0x100 = 0)
    (hwhole : whole = true) (hd : s.dev.pushStride f data false ((off - strideBase f) / 0x100) = d) :
    exec (.push f off data whole) s = .next (s.endsWith d) := by
  have htorn : (decide (data.length ≠ 64 ∨ off < strideBase f ∨ (off - strideBase f) % 0x100 ≠ 0) || !whole) = false := by
    simp [hlen, hbase, hplace, hwhole]
  have hone : strides f off data.length = [(off - strideBase f) / 0x100] := strides_one hbase hplace (by omega)
  simp only [exec, execPush]
  refine State.act_of hl ?_
  simp only [if_pos hf, Dev.push, htorn, hone, List.foldl, hd]

/-- Any other write is a torn push to every stride it touches. -/
theorem exec_push_torn (htorn : data.length ≠ 64 ∨ off < strideBase f ∨ (off - strideBase f) % 0x100 ≠ 0 ∨ whole = false) :
    exec (.push f off data whole) s =
      .next (s.endsWith ((strides f off data.length).foldl (fun d i => d.pushStride f data true i) s.dev)) := by
  have htorn' : (decide (data.length ≠ 64 ∨ off < strideBase f ∨ (off - strideBase f) % 0x100 ≠ 0) || !whole) = true := by
    simpa [or_assoc] using htorn
  simp only [exec, execPush]
  refine State.act_of hl ?_
  simp only [if_pos hf, Dev.push, htorn']

end

/-- The refusal slot is posted once its ring has room. -/
theorem exec_refusalCompletion {q : Nat} {x : RefSlot} (hslot : (s.dev.queue q).slot = some x)
    (hon : (s.dev.ring (s.dev.queueRing q)).state ≠ .off) (hroom : (s.dev.ring (s.dev.queueRing q)).stash.length < 64) :
    exec (.refusalCompletion q) s = .next (s.endsWith ((s.dev.setQueue q { s.dev.queue q with slot := none }).qrnPost q
      (s.dev.queueRing q) x.status x.cid 0xFFFF (x.count + 65536 * b2n x.mixed))) := by
  simp only [exec, execRefusalCompletion]
  refine State.act_of hl ?_
  simp only [hslot, if_pos (And.intro hon hroom)]

/-! ### The start and the meaning of a command (R439, R488, R497, R547) -/

/-- The oldest command of a queue that an engine takes starts and is charged. -/
theorem exec_commandStart {q : Nat} {c : QCmd} (hactive : (s.dev.queue q).state = .active)
    (hstop : s.dev.bit (reg .qrn 0 0x104) 0 = false) (hqrn : s.dev.accepts .qrn 0 = true)
    (hc : ((s.dev.queueCmds q).find? fun c => s.dev.startable c && s.dev.shareOpen c) = some c) :
    exec (.commandStart q) s = .next (s.endsWith ((s.dev.shareCharge c).startCmd c)) := by
  have hgo : ¬ ((s.dev.queue q).state ≠ .active ∨ s.dev.bit (reg .qrn 0 0x104) 0 = true ∨ ¬ s.dev.accepts .qrn 0 = true) := by
    simp [hactive, hstop, hqrn]
  simp only [exec, execCommandStart]
  refine State.act_of hl ?_
  simp only [if_neg hgo, hc]

section
variable {id : Nat} {c : QCmd} (hc : s.dev.qcmd id = some c)
include hc

/-- The event that takes up a command of each opcode with a meaning of its own. -/
theorem exec_of_mem_begins {q : Instr × Nat} (hphase : c.phase = 0)
    (hq : q ∈ [(Instr.read id, 1), (.write id, 2), (.deallocate id, 4), (.writeZeroes id, 5), (.verify id, 6),
      (.compareAndWrite id, 7)]) (hop : c.op = q.2) : exec q.1 s = .next (s.endsWith (s.dev.cmdGo id)) := by
  have hbegin := Dev.cmdBegin_of_op hc hop hphase
  simp only [List.mem_cons, List.not_mem_nil, or_false] at hq
  obtain rfl | rfl | rfl | rfl | rfl | rfl := hq
  · simp only [exec, execRead]
    exact State.act_of hl hbegin
  · simp only [exec, execWrite]
    exact State.act_of hl hbegin
  · simp only [exec, execDeallocate]
    exact State.act_of hl hbegin
  · simp only [exec, execWriteZeroes]
    exact State.act_of hl hbegin
  · simp only [exec, execVerify]
    exact State.act_of hl hbegin
  · simp only [exec, execCompareAndWrite]
    exact State.act_of hl hbegin

/-- A FLUSH ends once every command accepted before it in its queue has. -/
theorem exec_flush (hop : c.op = 3) (hstarted : c.started = true) (hdone : c.done = none)
    (hbefore : ((s.dev.earlier c).all fun e => e.done.isSome || decide (e.queue ≠ c.queue) || decide (e.end_ ≠ .complete)) = true) :
    exec (.flush id) s = .next (s.endsWith (s.dev.cmdEnd id 0 0)) := by
  have hends : c.op = 3 ∧ c.started = true ∧ c.done.isNone = true ∧
      ((s.dev.earlier c).all fun e => e.done.isSome || decide (e.queue ≠ c.queue) || decide (e.end_ ≠ .complete)) = true :=
    ⟨hop, hstarted, by rw [hdone]; rfl, hbefore⟩
  simp only [exec, execFlush]
  refine State.act_of hl ?_
  simp only [hc, if_pos hends]

/-! ### The end of a command (R492 to R494, R532, R553) -/

section
variable {st detail n : Nat} (hdone : c.done = some (st, detail, n))
include hdone

theorem exec_quernComplete_completes (hend : c.end_ = .complete) :
    exec (.quernComplete id) s = .next (s.endsWith (s.dev.qrnComplete c st detail n)) := by
  simp only [exec, execQuernComplete]
  refine State.act_of hl ?_
  simp only [hc, hdone, hend]

theorem exec_quernComplete_orphan (hend : c.end_ = .orphan) :
    exec (.quernComplete id) s = .next (s.endsWith ((s.dev.cmdGone c).orphanEvent c st detail)) := by
  simp only [exec, execQuernComplete]
  refine State.act_of hl ?_
  simp only [hc, hdone, hend]

theorem exec_quernComplete_silent (hend : c.end_ = .silent) :
    exec (.quernComplete id) s = .next (s.endsWith (s.dev.cmdGone c)) := by
  simp only [exec, execQuernComplete]
  refine State.act_of hl ?_
  simp only [hc, hdone, hend]

end

end

end

/-- Settles O46, by the push, refusal, start or end each clause is about; an untorn push by `strides_one`.  Which engine takes a
command next under the shares is the model's choice (log entry 147). -/
theorem pushesAndCompletions : Obligations.PushesAndCompletions := by
  refine ⟨?whole, fun s f off data whole hl hf => exec_push_torn hl hf, fun d f data i q hq hon => Dev.pushStride_torn hq hon,
    fun s q x hl => exec_refusalCompletion hl, fun s q c hl => exec_commandStart hl,
    fun s id c hl hc hphase q hq => exec_of_mem_begins hl hc hphase hq, fun s id c hl => exec_flush hl,
    fun s id c st detail n hl hc hdone => ⟨exec_quernComplete_completes hl hc hdone, exec_quernComplete_orphan hl hc hdone,
      exec_quernComplete_silent hl hc hdone⟩⟩
  case whole =>
    rintro s f off q data whole base hl hf rfl hbase hq hon
    refine ⟨fun hlen hplace hwhole hquiescing hresetting => ⟨fun hroom => ?_, fun hfull => ?_⟩, fun hlen hplace hwhole hends => ?_⟩
    · exact exec_push_whole hl hf hbase hlen hplace hwhole (Dev.pushStride_accepts hq hon hquiescing hresetting hroom)
    · exact exec_push_whole hl hf hbase hlen hplace hwhole (Dev.pushStride_full hq hon hquiescing hresetting hfull)
    · exact exec_push_whole hl hf hbase hlen hplace hwhole (Dev.pushStride_closed hq hon hends)

end Sys2Proof.Machine
end

section
/-! PROOF. Quern: the states of queues and the power states of functions (R499 to R511, R549). -/

namespace Sys2Proof.Machine

/-! ### Writes of a queue context (R499 to R501, R507, R549) -/

/-- A write that reaches the context of a queue has the effect of its register. -/
theorem Dev.queueWrite_of_reaches {s : State} {pt : Party} {q off v : Nat} {d : Dev} {t : Tgt}
    (h : s.reachesQueue pt q off v d t) : s.dev.queueWrite pt q off v = queueW d t q := by
  obtain ⟨-, h⟩ := h
  cases pt with
  | vf f =>
    obtain ⟨hfunc, rfl, hcheck⟩ := h
    simp only [Dev.queueWrite, if_pos hfunc, Dev.ownWrite, hcheck]
  | _ =>
    obtain ⟨rfl, hcheck⟩ := h
    simp only [Dev.queueWrite, Dev.ownWrite, hcheck]

section
variable {d : Dev} {t : Tgt} {q : Nat}

theorem queueW_cfg (hx : t.x = 0) : queueW d t q = queueCfgW d t q := if_pos hx

theorem queueW_ctrl (hx : t.x = 0x18) : queueW d t q = queueCtrlW d t q := by
  simp only [queueW, hx, OfNat.ofNat_ne_zero, if_false, if_true]

/-- An OFF queue that meets R500 is enabled, in HALT_BME where its function may not master the bus. -/
theorem queueCfgW_enables (hon : bitOf t.acc.data 0 = true) (hoff : (d.queue q).state = .off) {e : Dev}
    (he : d.wrN t.key (bitsOf t.acc.data 16 11 * 65536) = e) (hruns : e.fnQuiesced (e.queueFunc q) = false)
    (hok : e.queueEnableOk q = true) : queueCfgW d t q = (e.setFld t.key 0 1 1).setQueue q
      { d.queue q with state := if e.master (e.queueFunc q) then .active else .haltActive } := by
  simp only [queueCfgW, hoff, he, hon, hruns, hok, Bool.not_true, Bool.false_eq_true, if_false, if_true]

/-- An ACTIVE queue is disabled by a write that leaves its size. -/
theorem queueCfgW_disables (hon : bitOf t.acc.data 0 = false) (hactive : (d.queue q).state = .active)
    (hsize : bitsOf t.acc.data 16 11 = (d.queueQuiesce q).fld t.key 16 11) : queueCfgW d t q = d.queueQuiesce q := by
  simp only [queueCfgW, hactive, hon, hsize, reduceCtorEq, Bool.false_and, Bool.false_eq_true, ne_eq, not_true_eq_false, if_false]

/-- A queue in use is reset. -/
theorem queueCtrlW_resets (hreset : bitOf t.acc.data 0 = true)
    (hused : (d.queue q).state = .active ∨ (d.queue q).state = .quiescing) :
    queueCtrlW d t q = (d.setQueue q { d.queue q with state := .resetting }).abortWaiting q 0x06 := by
  obtain h | h := hused <;> simp only [queueCtrlW, hreset, h, Bool.not_true, Bool.false_eq_true, if_false]

end

section
variable {s : State} {pt : Party} {q : Nat} {v : BitVec 32} {d e : Dev} {t : Tgt}

theorem exec_queueEnable (h : s.reachesQueue pt q 0 (putBits v.toNat 0 1 1) d t) (hd : queueW d t q = e) :
    exec (.queueEnable pt q v) s = .next (s.endsWith e) := by
  simp only [exec, execQueueEnable]
  exact State.act_of h.1 ((Dev.queueWrite_of_reaches h).trans hd)

theorem exec_queueDisable (h : s.reachesQueue pt q 0 (putBits v.toNat 0 1 0) d t) (hd : queueW d t q = e) :
    exec (.queueDisable pt q v) s = .next (s.endsWith e) := by
  simp only [exec, execQueueDisable]
  exact State.act_of h.1 ((Dev.queueWrite_of_reaches h).trans hd)

theorem exec_queueReset (h : s.reachesQueue pt q 0x18 (putBits v.toNat 0 1 1) d t) (hd : queueW d t q = e) :
    exec (.queueReset pt q v) s = .next (s.endsWith e) := by
  simp only [exec, execQueueReset]
  exact State.act_of h.1 ((Dev.queueWrite_of_reaches h).trans hd)

end

/-- A write of the power context of a function that sets its greatest state wakes it from one above. -/
theorem fctxW_psMax {d : Dev} {t : Tgt} {f : Func} (hx : t.x = 4) :
    fctxW d t f = (d.store t).qsWake f ((d.store t).fld (fctxKey f 4) 0 2) := if_pos hx

section
variable {s : State} (hl : s.live = true)
include hl

/-! ### A queue enters OFF (R499, R511) -/

section
variable {q : Nat} (hidle : s.dev.queueIdle q = true)
include hidle

theorem exec_queueDrainDone (hst : (s.dev.queue q).state = .quiescing) : exec (.queueDrainDone q) s =
    .next (s.endsWith (s.dev.setQueue q { s.dev.queue q with state := .off })) := by
  simp only [exec, execQueueDrainDone]
  exact State.act_of hl (if_pos ⟨hst, hidle⟩)

theorem exec_resetDone (hst : (s.dev.queue q).state = .resetting) : exec (.resetDone q) s = .next (s.endsWith
    (((((s.dev.wrN (queueKey q 0x10) 0).wrN (queueKey q 0x14) 0).setFld (queueKey q 0) 0 1 0).setQueue q
      { s.dev.queue q with state := .off }).raise .qrn 0 0 10)) := by
  simp only [exec, execResetDone]
  exact State.act_of hl (if_pos ⟨hst, hidle⟩)

end

/-- A started command of a queue or function that was reset ends once the timeout has passed. -/
theorem exec_resetTimeout {id : Nat} {c : QCmd} (hc : s.dev.qcmd id = some c) (hstarted : c.started = true) (hdone : c.done = none)
    (hreset : (s.dev.queue c.queue).state = .resetting ∨ c.end_ ≠ .complete) :
    exec (.resetTimeout id) s = .next (s.endsWith (((s.dev.cmdEnd id 0x06 0).raise .qrn 0 0 11).blkPump)) := by
  have hrunning : c.done.isNone = true := by rw [hdone]; rfl
  simp only [exec, execResetTimeout]
  refine State.act_of hl ?_
  simp only [hc, if_pos (And.intro hstarted (And.intro hrunning hreset))]

/-! ### Power states (R503, R504, R509) -/

/-- A function idle for the time of its power state goes down one. -/
theorem exec_qsIdleTimeout {f : Func} {ps lim : Nat} (hps : ps = s.dev.fld (fctxKey f 0) 0 2)
    (hlim : lim = s.dev.fld (fctxKey f (8 + 4 * ps)) 0 24) (hlow : ps < 3) (hmax : ps + 1 ≤ s.dev.fld (fctxKey f 4) 0 2)
    (htimer : lim ≠ 0) (hidle : (s.dev.qcmds.all fun c => decide (c.func ≠ f)) = true)
    (hdue : s.dev.qidle.getD (fkey f) 0 + lim ≤ s.dev.bounds) : exec (.qsIdleTimeout f) s =
      .next (s.endsWith (({ s.dev with qidle := s.dev.qidle.set (fkey f) s.dev.bounds 0 } : Dev).wrN (fctxKey f 0) (ps + 1))) := by
  subst hps hlim
  simp only [exec, execQsIdleTimeout]
  exact State.act_of hl (if_pos ⟨hlow, hmax, htimer, hidle, hdue⟩)

theorem exec_psMaxWrite {pt : Party} {f : Func} {v : BitVec 32} {d : Dev} {t : Tgt}
    (h : pt = .vf f ∧ d = s.dev ∧ d.writeCheck pt 0x1284 4 v.toNat = .ok t ∨
      (∀ g, pt ≠ .vf g) ∧ d = s.dev.wrN (reg .qrn 0 0x10C) (f.num + 4096 * f.link) ∧
        d.writeCheck pt (reg .qrn 0 0x184) 4 v.toNat = .ok t) :
    exec (.psMaxWrite pt f v) s = .next (s.endsWith (fctxW d t f)) := by
  simp only [exec, execPsMaxWrite]
  refine State.act_of hl ?_
  obtain ⟨rfl, rfl, hcheck⟩ | ⟨hvf, rfl, hcheck⟩ := h
  · simp only [if_true, Dev.ownWrite, hcheck]
  · cases pt with
    | vf g => exact absurd rfl (hvf g)
    | _ => simp only [Dev.ownWrite, hcheck]

end

/-- Settles O47, by the write or event each clause is about.  That an enable while the function may not master the bus starts the
queue in HALT_BME is the model's reading (log entry 124). -/
theorem queuesChangeState : Obligations.QueuesChangeState := by
  refine ⟨?writes, fun s q hl hidle => ⟨exec_queueDrainDone hl hidle, exec_resetDone hl hidle⟩, fun s id c hl => exec_resetTimeout hl,
    fun s f ps lim hl => exec_qsIdleTimeout hl, fun s pt f v d t hl h hx => ?psMax⟩
  case writes =>
    intro s pt q v d t
    refine ⟨fun h hx hon hoff _ e he hruns hok => ?_, fun h hx hon hactive hsize => ?_, fun h hx hreset hused => ?_⟩
    · exact exec_queueEnable h ((queueW_cfg hx).trans (queueCfgW_enables hon hoff he.symm hruns hok))
    · exact exec_queueDisable h ((queueW_cfg hx).trans (queueCfgW_disables hon hactive hsize))
    · exact exec_queueReset h ((queueW_ctrl hx).trans (queueCtrlW_resets hreset hused))
  case psMax => rw [exec_psMaxWrite hl h, fctxW_psMax hx]

end Sys2Proof.Machine
end

section
/-! PROOF. The firmware: its mailbox commands, the activation, debug authorisation, the flash window, the boot (R502, R598 to
R615). -/

namespace Sys2Proof.Machine

/-- A command of the primary manager has its effect. -/
theorem Dev.primaryOnly_of_primary {d : Dev} {r : Nat} (h : d.fromPrimary r = true) (w : Work) (f : Dev → Dev) :
    d.primaryOnly r w f = f d := if_pos h

/-! ### Mailbox commands (R602 to R607) -/

section
variable {s : State} {r : Nat} {w : Work} (hl : s.live = true) (hp : s.dev.fromPrimary r = true)
include hl hp

theorem exec_fwInfo (h : s.dev.mbxReady r 1 w) :
    exec (.fwInfo r) s = .next (s.endsWith (s.dev.finishPut r w.id (mbxAddr w) s.dev.fwInfo)) := by
  simp only [exec, execFwInfo]
  exact State.act_of hl ((Dev.mbx_of_ready h _).trans (Dev.primaryOnly_of_primary hp _ _))

section
variable (h : s.dev.mbxReady r 2 w) (hidle : s.dev.activation = none) (hfits : mbxLen w ≤ 0x1000000)
include h hidle hfits

/-- FW_STAGE reads an image that fits a slot. -/
theorem exec_fwStage_issues (hs : w.started = false) : exec (.fwStage r) s = .next (s.endsWith
    ((s.dev.setWork r w.id fun x => { x with started := true }).workRead w 0 (mbxAddr w) (mbxLen w))) := by
  simp only [exec, execFwStage]
  refine State.act_of hl ((Dev.mbx_of_ready h _).trans ((Dev.primaryOnly_of_primary hp _ _).trans ?_))
  simp only [hidle, Option.isSome_none, Bool.false_eq_true, if_false, if_neg (Nat.not_lt.2 hfits), Dev.mbxBlock_issues h _ _ hs]

/-- With the bytes it programs the slot that does not run and ends with what that slot is found to hold. -/
theorem exec_fwStage_takes (hs : w.started = true) (hw : w.waiting = []) {d : Dev}
    (hd : d = (s.dev.flashErase (slotBase (1 - s.dev.runSlot)) 0x1000000).flashProgram (slotBase (1 - s.dev.runSlot))
      (slice w.allData 0 (mbxLen w))) {e : Dev}
    (hgood : d.imageBad (1 - s.dev.runSlot) = none → d.finish r w.id 0 = e)
    (hbad : ∀ n, d.imageBad (1 - s.dev.runSlot) = some n → d.finish r w.id 0x01 [byteN n] = e) :
    exec (.fwStage r) s = .next (s.endsWith e) := by
  simp only [exec, execFwStage]
  refine State.act_of hl ((Dev.mbx_of_ready h _).trans ((Dev.primaryOnly_of_primary hp _ _).trans ?_))
  simp only [hidle, Option.isSome_none, Bool.false_eq_true, if_false, if_neg (Nat.not_lt.2 hfits), Dev.mbxBlock_takes h _ _ hs hw, ← hd]
  split
  case h_1 n hn => exact hbad n hn
  case h_2 hn => exact hgood hn

end

/-- FW_ACTIVATE starts the activation of a good image and refuses any other. -/
theorem exec_fwActivate (h : s.dev.mbxReady r 3 w) (hs : w.started = false) (hidle : s.dev.activation = none) {d : Dev}
    (hd : d = s.dev.setWork r w.id (fun w => { w with started := true })) : exec (.fwActivate r) s =
      .next (s.endsWith (if s.dev.imageOk (1 - s.dev.runSlot) = true then
        ({ d with activation := some { ring := r, work := w.id, slot := 1 - d.runSlot }, handing := d.handoverFrom 4 } : Dev).setFwState 3
      else s.dev.finish r w.id 0x05)) := by
  subst hd
  simp only [exec, execFwActivate]
  refine State.act_of hl ((Dev.mbx_of_ready h _).trans ((Dev.primaryOnly_of_primary hp _ _).trans ?_))
  by_cases hok : s.dev.imageOk (1 - s.dev.runSlot) = true
  · simp only [hs, hidle, hok, Option.isSome_none, Bool.false_eq_true, not_true_eq_false, or_self, if_false, if_true]
  · simp only [hs, hok, Bool.false_eq_true, not_false_eq_true, or_true, if_false, if_true]

theorem exec_fwRollbackCommit (h : s.dev.mbxReady r 4 w) : exec (.fwRollbackCommit r) s = .next (s.endsWith
    (({ s.dev with rollback := max s.dev.rollback (min 127 (byteAt (s.dev.slotHead s.dev.runSlot) 6)) } : Dev).finish r w.id 0)) := by
  simp only [exec, execFwRollbackCommit]
  exact State.act_of hl ((Dev.mbx_of_ready h _).trans (Dev.primaryOnly_of_primary hp _ _))

theorem exec_debugLock (h : s.dev.mbxReady r 6 w) :
    exec (.debugLock r) s = .next (s.endsWith ((s.dev.setDebug false 0).finish r w.id 0)) := by
  simp only [exec, execDebugLock]
  exact State.act_of hl ((Dev.mbx_of_ready h _).trans (Dev.primaryOnly_of_primary hp _ _))

/-! ### Debug authorisation (R608, R609) -/

section
variable (h : s.dev.mbxReady r 5 w) (hlen : mbxLen w = 160) (hnew : w.note = []) (hent : s.dev.entRuns 3 = true)
include h hlen hnew hent

/-- DEBUG_UNLOCK reads its token. -/
theorem exec_debugUnlock_issues (hs : w.started = false) : exec (.debugUnlock r) s =
    .next (s.endsWith ((s.dev.setWork r w.id fun x => { x with started := true }).workRead w 0 (mbxAddr w) 160)) := by
  simp only [exec, execDebugUnlock]
  refine State.act_of hl ((Dev.mbx_of_ready h _).trans ((Dev.primaryOnly_of_primary hp _ _).trans ?_))
  simp only [hnew, hent, hlen, Dev.mbxBlock_issues h _ _ hs, Bool.not_true, Bool.false_eq_true, ne_eq, not_true_eq_false, if_false]

/-- A token that verifies unlocks once the keys are gone, any other is refused; either replaces the challenge. -/
theorem exec_debugUnlock_ends (hs : w.started = true) (hw : w.waiting = []) {d : Dev} {gens : List Nat}
    (herase : s.dev.newChallenge.keyEraseAll = (d, gens)) (hgone : d.keyHeld gens = false) : exec (.debugUnlock r) s =
      .next (s.endsWith (if s.dev.tokenOk (slice w.allData 0 160) = true then
        (d.setDebug true (leAt (slice w.allData 0 160) 28 4 % 8)).finish r w.id 0
      else s.dev.newChallenge.finish r w.id 0x10)) := by
  simp only [exec, execDebugUnlock]
  refine State.act_of hl ((Dev.mbx_of_ready h _).trans ((Dev.primaryOnly_of_primary hp _ _).trans ?_))
  simp only [hnew, hent, hlen, Dev.mbxBlock_takes h _ _ hs hw, herase, hgone, Bool.not_true, Bool.false_eq_true, ne_eq,
    not_true_eq_false, if_false]

end

end

/-! ### The activation (R502, R605, R606) -/

section
variable {s : State} {a : Activation} (hl : s.live = true) (ha : s.dev.activation = some a)
include hl ha

section
variable (hrun : a.waiting = false) (hhanded : s.dev.handing = none)
include hrun hhanded

theorem exec_activationComplete (hidle : s.dev.quernRunning = false) : exec .activationComplete s =
    .next (s.endsWith ((((s.dev.setRunSlot a.slot).activationEnd a 0
      (toLE 4 (s.dev.slotVersion a.slot) ++ zeros 4)).fwEvent 0xA4 0 0 0 (s.dev.slotVersion a.slot)).raise .fwc 0 0 9)) := by
  have hgo : ¬ (a.waiting = true ∨ s.dev.handing.isSome = true ∨ s.dev.quernRunning = true) := by simp [hrun, hhanded, hidle]
  simp only [exec, execActivationComplete]
  refine State.act_of hl ?_
  simp only [ha, if_neg hgo]

/-- Commands that still run defer the activation, and the fourth time it fails. -/
theorem exec_actDeferred {d : Dev} (hbusy : s.dev.quernRunning = true) (hd : d = (s.dev.fwHold 0).fwEvent 0xA5 0 0 0 0) :
    exec .actDeferred s = .next (s.endsWith (if a.defers = 3 then d.activationBack a 0x05
      else { d with activation := some { a with defers := a.defers + 1, waiting := true } })) := by
  subst hd
  have hgo : ¬ (a.waiting = true ∨ s.dev.handing.isSome = true ∨ ¬ s.dev.quernRunning = true) := by simp [hrun, hhanded, hbusy]
  simp only [exec, execActDeferred]
  refine State.act_of hl ?_
  simp only [ha, if_neg hgo]

end

theorem exec_activationRetry (hwait : a.waiting = true) : exec .activationRetry s =
    .next (s.endsWith (({ s.dev with activation := some { a with waiting := false } } : Dev).fwHold 1)) := by
  simp only [exec, execActivationRetry]
  refine State.act_of hl ?_
  simp only [ha, hwait, if_true]

end

/-! ### The flash window (R615) -/

/-- A write of FWC_FLASH_CMD by a manager or a bus, with one of its bits and outside the running slot, starts the operation. -/
theorem flashCmdW_starts {d : Dev} {t : Tgt} {op a : Nat} (hpt : ∀ c, t.acc.pt ≠ .core c) (hfree : d.flashOp = none)
    (ha : a = d.rdN (reg .fwc 0 0x10100)) (hop : t.acc.data % 8 = op) (hknown : op = 1 ∨ op = 2 ∨ op = 4)
    (hprogram : op = 2 → d.touchesRun a 64 = false) (herase : op = 4 → d.touchesRun (a / 65536 * 65536) 65536 = false) :
    flashCmdW d t = ({ d with flashOp := some (op, a, d.flashData) } : Dev).setFld flashStat 0 2 1 := by
  subst ha
  have hnone : op ≠ 0 := by omega
  have hone : ¬ (op ≠ 1 ∧ op ≠ 2 ∧ op ≠ 4) := by omega
  have hclear : ¬ (op = 2 ∧ d.touchesRun (d.rdN (reg .fwc 0 0x10100)) 64 = true ∨
      op = 4 ∧ d.touchesRun (d.rdN (reg .fwc 0 0x10100) / 65536 * 65536) 65536 = true) := by
    rintro (⟨h2, h⟩ | ⟨h4, h⟩)
    · exact absurd h (by simp [hprogram h2])
    · exact absurd h (by simp [herase h4])
  obtain ⟨⟨pt, _, _, _, _⟩, _⟩ := t
  cases pt with
  | core c => exact absurd rfl (hpt c)
  | _ =>
    simp only [flashCmdW, hop, hnone, if_neg hone, hfree, if_neg hclear, decide_false, Bool.or_self, Option.isSome_none,
      Bool.false_eq_true, if_false]

/-- The event that starts each operation of the flash window. -/
theorem exec_of_mem_flashCmds {s : State} {pt : Party} {v : BitVec 32} {q : Instr × Nat}
    (hq : q ∈ [(Instr.flashRead pt v, 0), (.flashProgram pt v, 1), (.flashErase pt v, 2)]) {t : Tgt}
    (h : s.permits pt flashCmd 4 (putBits v.toNat q.2 1 1) t) {d : Dev} (hd : flashCmdW s.dev t = d) :
    exec q.1 s = .next (s.endsWith d) := by
  simp only [List.mem_cons, List.not_mem_nil, or_false] at hq
  obtain rfl | rfl | rfl := hq
  · simp only [exec, execFlashRead, State.flashCmd]
    exact State.act_ownWrite h hd
  · simp only [exec, execFlashProgram, State.flashCmd]
    exact State.act_ownWrite h hd
  · simp only [exec, execFlashErase, State.flashCmd]
    exact State.act_ownWrite h hd

theorem Dev.drawFree_of_flashOp (d : Dev) (o : Option (Nat × Nat × List Byte)) :
    ({ d with flashOp := o } : Dev).drawFree = ({ d with flashOp := o, draws := d.draws + 1 }, d.drawFree.2) := rfl

/-- The end of a flash operation: FAIL, or the effect of the operation. -/
theorem exec_flashDone {s : State} {op a x : Nat} {data : List Byte} {d : Dev} (hl : s.live = true)
    (hop : s.dev.flashOp = some (op, a, data)) (hx : x = (s.dev.drawFree).2 % 2)
    (hd : d = ({ s.dev with flashOp := none, draws := s.dev.draws + 1 } : Dev).setFld flashStat 0 2 (2 * x)) :
    exec .flashDone s = .next (s.endsWith (if x = 1 then d else if op = 2 then d.flashProgram a data
      else if op = 4 then d.flashErase (a / 65536 * 65536) 65536
      else (rangeFrom 0 16).foldl (fun e i => e.wrN (reg .fwc 0 (0x10140 + 4 * i)) (leAt (d.flashRead a 64) (4 * i) 4)) d)) := by
  simp only [exec, execFlashDone]
  refine State.act_of hl ?_
  simp only [hop, Dev.drawFree_of_flashOp, ← hx, ← hd]

/-! ### REBOOT and the boot (R599, R600) -/

/-- REBOOT in RECOVERY is a device reset. -/
theorem exec_reboot {s : State} {pt : Party} {v : BitVec 32} {t : Tgt} (h : s.permits pt (reg .fwc 0 0x10C) 4 v.toNat t)
    (hbit : bitOf t.acc.data 0 = true) (hrecovery : s.dev.fwState = 2) :
    exec (.reboot pt v) s = .next (s.deviceReset false).ends := by
  obtain ⟨hl, hcheck⟩ := h
  simp only [exec, execReboot]
  refine State.run_of hl ?_ rfl
  simp only [hcheck, State.fwcCtrl, if_pos (And.intro hbit hrecovery)]

theorem exec_bootComplete {s : State} (hl : s.live = true) (hstart : s.dev.fwState = 0) (href : s.dev.refUp = true) :
    exec .bootComplete s = .next (s.endsWith s.dev.boot) := by
  simp only [exec, execBootComplete]
  exact State.act_of hl (if_pos ⟨hstart, href⟩)

/-- Settles O52, by the command or event each clause is about.  That FW_STAGE verifies what it has programmed, and the order of the
steps of DEBUG_UNLOCK, are deduced (log entries 149 and 153); that a flash operation that fails changes nothing but FAIL is the
model's choice (log entry 208). -/
theorem firmwareCompletes : Obligations.FirmwareCompletes := by
  refine ⟨fun s r w hl hp => ⟨exec_fwInfo hl hp, ?stage, exec_fwActivate hl hp, exec_fwRollbackCommit hl hp, ?unlock,
    exec_debugLock hl hp⟩, fun s a hl ha => ⟨exec_activationComplete hl ha, ?deferred, exec_activationRetry hl ha⟩, ?window, ?done,
    fun s pt v t => exec_reboot, fun s => exec_bootComplete⟩
  case stage =>
    intro h hidle hfits
    refine ⟨exec_fwStage_issues hl hp h hidle hfits, fun d hs hw hd => exec_fwStage_takes hl hp h hidle hfits hs hw hd ?_ ?_⟩
    · intro hgood
      simp only [hgood]
    · intro n hbad
      simp only [hbad]
  case unlock =>
    intro h hlen hnew hent
    exact ⟨exec_debugUnlock_issues hl hp h hlen hnew hent, fun d gens hs hw => exec_debugUnlock_ends hl hp h hlen hnew hent hs hw⟩
  case deferred =>
    intro d hrun hhanded hbusy hd
    have hexec := exec_actDeferred hl ha hrun hhanded hbusy hd
    exact ⟨fun h3 => by rw [hexec, if_pos h3], fun h3 => by rw [hexec, if_neg h3]⟩
  case window =>
    intro s pt v t a hpt hfree ha
    refine ⟨fun h hop => ?_, fun h hop hclear => ?_, fun h hop hclear => ?_⟩
    · exact exec_of_mem_flashCmds (q := (.flashRead pt v, 0)) (by simp) h (flashCmdW_starts hpt hfree ha hop (by simp) (by simp) (by simp))
    · exact exec_of_mem_flashCmds (q := (.flashProgram pt v, 1)) (by simp) h
        (flashCmdW_starts hpt hfree ha hop (by simp) (fun _ => hclear) (by simp))
    · exact exec_of_mem_flashCmds (q := (.flashErase pt v, 2)) (by simp) h
        (flashCmdW_starts hpt hfree ha hop (by simp) (by simp) (fun _ => hclear))
  case done =>
    intro s op a data d hl hop x hx hd
    have hexec := exec_flashDone hl hop hx hd
    refine ⟨fun h1 => by rw [hexec, if_pos h1], fun h0 => ?_⟩
    subst h0
    refine ⟨fun h => ?_, fun h => ?_, fun h => ?_⟩ <;> subst h <;> exact hexec

end Sys2Proof.Machine
end

section
/-! PROOF. The host links: resets, link states, bus mastering, configuration, read errors and requests (R512 to R538). -/

namespace Sys2Proof.Machine

/-- A configuration request to a link that answers has its effect. -/
theorem State.act_config {s : State} {k : Nat} {f : Dev → Dev} {d : Dev} (hl : s.live = true) (h : s.dev.linkAnswers k)
    (hd : f s.dev = d) : s.act (fun d => d.config k f) = .next (s.endsWith d) := by
  obtain ⟨href, hout, hready⟩ := h
  have hgo : ¬ ((!s.dev.refUp || (s.dev.link k).inReset) = true) := by simp [href, hout]
  exact State.act_of hl ((if_neg hgo).trans ((if_pos hready).trans hd))

section
variable {s : State} (hl : s.live = true)
include hl

/-! ### Resets and states of links (R512, R532, R534) -/

section
variable {k : Nat}

theorem exec_linkFundamentalReset : exec (.linkFundamentalReset k) s = .next (s.endsWith (s.dev.linkReset k true)) := by
  simp only [exec, execLinkFundamentalReset]
  exact State.act_of hl rfl

theorem exec_hotReset (hout : (s.dev.link k).inReset = false) :
    exec (.hotReset k) s = .next (s.endsWith (s.dev.linkReset k false)) := by
  simp only [exec, execHotReset]
  exact State.act_of hl (if_neg (by simp [hout]))

theorem exec_linkDown (hup : (s.dev.link k).up = true) :
    exec (.linkDown k) s = .next (s.endsWith (s.dev.linkReset k false)) := by
  simp only [exec, execLinkDown]
  exact State.act_of hl (if_pos hup)

theorem exec_perstDeassert (hin : (s.dev.link k).inReset = true) : exec (.perstDeassert k) s =
    .next (s.endsWith (s.dev.setLink k { s.dev.link k with inReset := false, ready := s.dev.booted })) := by
  simp only [exec, execPerstDeassert]
  exact State.act_of hl (if_pos hin)

section
variable {rate width cfg m : Nat} (flit : Bool) (hcfg : cfg = s.dev.rdN (reg .hif k 0x100)) (hdown : (s.dev.link k).up = false)
  (hout : (s.dev.link k).inReset = false) (hen : bitOf cfg 0 = true) (hrate : rate ≠ 0) (href : s.dev.refUp = true)
  (hm : m = min width (laneCap cfg))
include hcfg hdown hout hen hrate href hm

/-- No link comes up below four lanes. -/
theorem exec_linkUp_narrow (hlow : m < 4) : exec (.linkUp k rate width flit) s = .next (s.endsWith s.dev) := by
  subst hcfg hm
  simp only [exec, execLinkUp]
  refine State.act_of hl ?_
  simp only [hdown, hout, hen, hrate, href, Bool.false_eq_true, not_true_eq_false, or_self, if_false, if_pos hlow]

/-- A link comes up at the widest of 4, 8 and 16 lanes within `m`. -/
theorem exec_linkUp {w : Nat} (hw : w ∈ [4, 8, 16]) (hle : w ≤ m) (hlt : m < 2 * w) : exec (.linkUp k rate width flit) s =
    .next (s.endsWith (((s.dev.setLink k { s.dev.link k with
      up := true, rate := min rate (bitsOf cfg 3 3), width := w,
      flit := flit || decide (min rate (bitsOf cfg 3 3) = 6) }).raise .hif k 0 9).linkMsgs k)) := by
  subst hcfg hm
  simp only [List.mem_cons, List.not_mem_nil, or_false] at hw
  have hfour : ¬ min width (laneCap (s.dev.rdN (reg .hif k 0x100))) < 4 := by omega
  have hwidth : (if min width (laneCap (s.dev.rdN (reg .hif k 0x100))) < 8 then 4
      else if min width (laneCap (s.dev.rdN (reg .hif k 0x100))) < 16 then 8 else 16) = w := by
    split
    · omega
    · split <;> omega
  simp only [exec, execLinkUp]
  refine State.act_of hl ?_
  simp only [hdown, hout, hen, hrate, href, Bool.false_eq_true, not_true_eq_false, or_self, if_false, if_neg hfour, hwidth]

end

/-- A kind of request that no link supports is answered Unsupported. -/
theorem exec_unsupportedRequest_of_mem {q : Inbound} (hq : q ∈ [Inbound.atomicOp k, .io k, .type1 k]) :
    exec (.unsupportedRequest q) s = .next { s with dev := s.dev.emit (.unsupported k) } := by
  simp only [List.mem_cons, List.not_mem_nil, or_false] at hq
  simp only [exec, execUnsupportedRequest]
  obtain rfl | rfl | rfl := hq <;> exact State.onDev_of hl rfl

/-- So is a memory request that hits no BAR. -/
theorem exec_unsupportedRequest_memory {a : Nat} (ha : s.dev.route k a = none) :
    exec (.unsupportedRequest (.memory k a)) s = .next { s with dev := s.dev.emit (.unsupported k) } := by
  simp only [exec, execUnsupportedRequest]
  exact State.onDev_of hl (if_neg (by simp [ha]))

end

/-! ### Bus mastering and resets of functions (R523 to R526, R532 to R534) -/

section
variable {f : Func} (h : s.dev.linkAnswers f.link) (hf : s.dev.fnExists f = true)
include h hf

theorem exec_bmeClear_master (hm : s.dev.master f = true) : exec (.bmeClear f) s = .next (s.endsWith (s.dev.bmeOff f)) := by
  simp only [exec, execBmeClear]
  exact State.act_config hl h ((if_neg (by simp [hf])).trans (if_pos hm))

theorem exec_bmeClear_idle (hm : s.dev.master f = false) : exec (.bmeClear f) s = .next (s.endsWith (s.dev.setBme f false)) := by
  simp only [exec, execBmeClear]
  exact State.act_config hl h ((if_neg (by simp [hf])).trans (if_neg (by simp [hm])))

theorem exec_bmeSet_awake (hm : s.dev.master f = false) (ha : s.dev.awake f = true) :
    exec (.bmeSet f) s = .next (s.endsWith (s.dev.bmeOn f)) := by
  simp only [exec, execBmeSet]
  exact State.act_config hl h ((if_neg (by simp [hf, hm])).trans (if_pos ha))

/-- A function outside D0 masters nothing, and Bus Master Enable is set alone. -/
theorem exec_bmeSet_asleep (ha : s.dev.awake f = false) : exec (.bmeSet f) s = .next (s.endsWith (s.dev.setBme f true)) := by
  have hm : s.dev.master f = false := by simp only [Dev.master, ha, Bool.and_false]
  simp only [exec, execBmeSet]
  exact State.act_config hl h ((if_neg (by simp [hf, hm])).trans (if_neg (by simp [ha])))

theorem exec_flr : exec (.flr f) s = .next (s.endsWith (s.dev.flrNow f)) := by
  simp only [exec, execFlr]
  exact State.act_config hl h (if_neg (by simp [hf]))

end

theorem exec_flrComplete {f : Func} {d : Dev} (hflr : s.dev.flr.getD (fkey f) false = true)
    (hd : d = { s.dev with flr := s.dev.flr.set (fkey f) false false }) : exec (.flrComplete f) s =
      .next (s.endsWith (((if f.num ≠ 0 ∧ (d.vf f).state = .resetting then d.setVf f { d.vf f with state := .active } else d).bump
        (hifCount f.link 0x30)).raise .hif f.link 0 10)) := by
  subst hd
  simp only [exec, execFlrComplete]
  exact State.act_of hl (if_pos hflr)

/-! ### Configuration space (R513, R514, R517 to R519, R527, R539, R551) -/

section
variable {k : Nat} (h : s.dev.linkAnswers k)
include h

theorem exec_vfEnableClear (hen : (s.dev.link k).vfEnable = true) :
    exec (.vfEnableClear k) s = .next (s.endsWith (s.dev.vfsOff k).blkPump) := by
  simp only [exec, execVfEnableClear]
  exact State.act_config hl h (if_pos hen)

theorem exec_vfEnableSet (hen : (s.dev.link k).vfEnable = false) {d : Dev}
    (hd : d = s.dev.setLink k { s.dev.link k with vfEnable := true }) : exec (.vfEnableSet k) s =
      .next (s.endsWith (((d.vfsOf k).foldl (fun d f => d.setVf f { d.vf f with state := .active }) d).dueMsgs k)) := by
  subst hd
  simp only [exec, execVfEnableSet]
  exact State.act_config hl h (if_neg (by simp [hen]))

section
variable {v : BitVec 32} {n : Nat} (hn : n = v.toNat)
include hn

/-! #### SR-IOV (R518) -/

theorem exec_configWrite_pageSize_bad (hbad : n ∉ [0, 1, 2, 4, 8, 16]) :
    exec (.configWrite k .pageSize v) s = .next (s.endsWith (s.dev.configBad k n)) := by
  subst hn
  simp only [exec, execConfigWrite]
  exact State.act_config hl h (if_neg hbad)

section
variable {l : LinkSt} (hlk : l = s.dev.link k)
include hlk

theorem exec_configWrite_numVfs (hmax : n % 65536 ≤ 2048) (hfree : l.vfEnable = false ∨ n % 65536 = l.numVfs) :
    exec (.configWrite k .numVfs v) s = .next (s.endsWith (s.dev.setLink k { l with numVfs := n % 65536 })) := by
  subst hn hlk
  have hgood : ¬ (2048 < v.toNat % 65536 ∨ (s.dev.link k).vfEnable = true ∧ v.toNat % 65536 ≠ (s.dev.link k).numVfs) := by
    rintro (hbig | ⟨hen, hne⟩)
    · omega
    · obtain hoff | heq := hfree
      · exact absurd hen (by simp [hoff])
      · exact hne heq
  simp only [exec, execConfigWrite]
  exact State.act_config hl h (if_neg hgood)

theorem exec_configWrite_numVfs_bad (hbad : 2048 < n % 65536 ∨ (l.vfEnable = true ∧ n % 65536 ≠ l.numVfs)) :
    exec (.configWrite k .numVfs v) s = .next (s.endsWith (s.dev.configBad k (n % 65536))) := by
  subst hn hlk
  simp only [exec, execConfigWrite]
  exact State.act_config hl h (if_pos hbad)

theorem exec_configWrite_pageSize (hgood : n ∈ [0, 1, 2, 4, 8, 16]) :
    exec (.configWrite k .pageSize v) s = .next (s.endsWith (s.dev.setLink k { l with pageSize := n })) := by
  subst hn hlk
  simp only [exec, execConfigWrite]
  exact State.act_config hl h (if_pos hgood)

theorem exec_configWrite_sriovControl : exec (.configWrite k .sriovControl v) s =
    .next (s.endsWith (s.dev.setLink k { l with vfMemOn := bitOf n 3 })) := by
  subst hn hlk
  simp only [exec, execConfigWrite]
  exact State.act_config hl h rfl

/-! #### The command register and the BARs (R519, R520) -/

theorem exec_configWrite_command : exec (.configWrite k .command v) s =
    .next (s.endsWith (s.dev.setLink k { l with memOn := bitOf n 1 })) := by
  subst hn hlk
  simp only [exec, execConfigWrite]
  exact State.act_config hl h rfl

theorem exec_configWrite_bar (i : Nat) : exec (.configWrite k (.bar i) v) s =
    .next (s.endsWith (s.dev.setLink k { l with bar := barWrite (s.dev.barSize k) l.bar i n })) := by
  subst hn hlk
  simp only [exec, execConfigWrite]
  exact State.act_config hl h rfl

theorem exec_configWrite_vfBar (i : Nat) : exec (.configWrite k (.vfBar i) v) s =
    .next (s.endsWith (s.dev.setLink k { l with vfBar := barWrite vfBarSize l.vfBar i n })) := by
  subst hn hlk
  simp only [exec, execConfigWrite]
  exact State.act_config hl h rfl

end

/-! #### Device Control and the capabilities of a function (R513, R514, R517, R527) -/

theorem exec_configWrite_control : exec (.configWrite k .control v) s = .next (s.endsWith { s.dev with
    devCtl := s.dev.devCtl.set k (controlWrite (s.dev.devControl k) n) 0x2010 }) := by
  subst hn
  simp only [exec, execConfigWrite]
  exact State.act_config hl h rfl

section
variable {f : Func} (hk : f.link = k) (hf : s.dev.fnExists f = true)
include hk hf

/-- A Completion Timeout Value the device does not take stays as it was. -/
theorem exec_configWrite_control2 {t : Nat} (ht : t = (if timeoutOk (n % 16) then n % 16 else s.dev.devCtl2.getD (fkey f) 0 % 16)) :
    exec (.configWrite k (.control2 f.num) v) s = .next (s.endsWith { s.dev with
      devCtl2 := s.dev.devCtl2.set (fkey f) (t + if f.num = 0 then 4096 * bitsOf n 12 1 else 0) 0 }) := by
  subst hn hk ht
  simp only [exec, execConfigWrite]
  exact State.act_config hl h (if_pos hf)

theorem exec_configWrite_cap (off : Nat) : exec (.configWrite k (.cap f.num off) v) s = .next (s.endsWith (s.dev.capW f off n)) := by
  subst hn hk
  simp only [exec, execConfigWrite]
  exact State.act_config hl h (if_pos hf)

end

end

end

/-! ### Completion timeout and errors (R527 to R529) -/

theorem exec_completionTimeout {id : Nat} {r : HRead} {d e : Dev} (hr : s.dev.takeRead id = some (r, d))
    (he : e = ({ d with late := d.late.put id (fkey r.func) } : Dev)) : exec (.completionTimeout id) s =
      .next (s.endsWith ((((e.bump (hifCount r.func.link 0)).raise .hif r.func.link 0 12).aerReport r.func 14
        (e.aerAdvisory r.func 14)).readOver r fun d => (d.readFailed r 0x09).blkPump)) := by
  subst he
  simp only [exec, execCompletionTimeout]
  refine State.act_of hl ?_
  simp only [hr]

theorem exec_poisonedCompletion {c : BadCpl} {r : HRead} {d : Dev} (hr : s.dev.takeRead (badCpl c).1 = some (r, d)) :
    exec (.poisonedCompletion c) s = .next (s.endsWith (((d.bump (hifCount r.func.link 0x10)).aerReport r.func (badCpl c).2 true).readOver
      r fun d => (d.readFailed r 0x0A).blkPump)) := by
  simp only [exec, execPoisonedCompletion]
  refine State.act_of hl ?_
  simp only [hr]

theorem exec_lateCompletion {id k : Nat} (hk : s.dev.late.find id = some k) : exec (.lateCompletion id) s = .next (s.endsWith
    ((({ s.dev with late := s.dev.late.erase id } : Dev).bump (hifCount (fkeyFunc k).link 8)).aerReport (fkeyFunc k) 16 true)) := by
  simp only [exec, execLateCompletion]
  refine State.act_of hl ?_
  simp only [hk]

/-! ### Invalidate Requests (R531) -/

/-- A link with address translation takes an Invalidate Request, which completes once no read holds it. -/
theorem exec_invalidateRequest {f : Func} {itag addr : Nat} (hats : s.dev.bit (reg .hif f.link 0x100) 8 = true) {l : LinkSt} {d : Dev}
    (hlk : l = { s.dev.link f.link with invals := (s.dev.link f.link).invals ++ [(f, itag, addr)] })
    (hd : d = (s.dev.setLink f.link l).invalSettle f.link) :
    exec (.invalidateRequest f itag addr) s = .next { s with dev := d } := by
  subst hlk hd
  simp only [exec, execInvalidateRequest]
  exact State.onDev_of hl (if_pos hats)

theorem exec_invalidateRequest_off {f : Func} (itag addr : Nat) (hats : s.dev.bit (reg .hif f.link 0x100) 8 = false) :
    exec (.invalidateRequest f itag addr) s = .next { s with dev := s.dev.emit (.unsupported f.link) } := by
  simp only [exec, execInvalidateRequest]
  exact State.onDev_of hl (if_neg (by simp [hats]))

end

/-- A run of messages leaves the links as they are. -/
theorem Dev.links_foldl_emit {A : Type} (o : A → Out) (as : List A) (d : Dev) :
    (as.foldl (fun d a => d.emit (o a)) d).links = d.links := by
  induction as generalizing d with
  | nil => rfl
  | cons a as ih => exact ih (d.emit (o a))

/-- The Invalidate Requests left on a link are those that a read holds. -/
theorem Dev.invals_invalSettle (d : Dev) (k : Nat) :
    ((d.invalSettle k).link k).invals = (d.link k).invals.filter fun q => d.pageRead q.1 q.2.2 := by
  simp only [Dev.invalSettle, Dev.link, Dev.links_foldl_emit, Dev.setLink_links, NMap.getD_set_self]

/-! ### Where an address leads (R519, R520) -/

/-- An address in BAR `i` of VF `n`, outside every BAR before it, leads to that VF. -/
theorem Dev.route_vf {d : Dev} {k n i x a : Nat} (hmem : (d.link k).vfMemOn = true) (hen : (d.link k).vfEnable = true) (hfirst : 1 ≤ n)
    (hlast : n ≤ (d.link k).numVfs) (hx : x < 0x10000) (hi : i < 2) (ha : a = barBase (d.link k).vfBar i + (n - 1) * 0x10000 + x)
    (hpf : ∀ j < 3, (d.link k).memOn = true → d.awake (pf0 k) = true →
      ¬ (barBase (d.link k).bar j ≤ a ∧ a < barBase (d.link k).bar j + d.barSize k j))
    (hvf : ∀ j < i, ¬ (barBase (d.link k).vfBar j ≤ a ∧ a < barBase (d.link k).vfBar j + (d.link k).numVfs * 0x10000)) :
    d.route k a = some (⟨k, n⟩, 2 * i, x) := by
  have hnone : ((rangeFrom 0 3).find? fun j => (d.link k).memOn && d.awake (pf0 k) &&
      decide (barBase (d.link k).bar j ≤ a ∧ a < barBase (d.link k).bar j + d.barSize k j)) = none := by
    refine List.find?_eq_none.2 fun j hj hhit => ?_
    simp only [Bool.and_eq_true, decide_eq_true_eq] at hhit
    obtain ⟨⟨hon, hawake⟩, hin⟩ := hhit
    have hj3 : j < 3 := by
      simp only [rangeFrom, List.mem_cons, List.not_mem_nil, or_false] at hj
      omega
    exact hpf j hj3 hon hawake hin
  have hin : barBase (d.link k).vfBar i ≤ a ∧ a < barBase (d.link k).vfBar i + (d.link k).numVfs * 0x10000 := by omega
  have hfound : ((rangeFrom 0 2).find? fun j => (d.link k).vfMemOn && (d.link k).vfEnable &&
      decide (barBase (d.link k).vfBar j ≤ a ∧ a < barBase (d.link k).vfBar j + (d.link k).numVfs * 0x10000)) = some i := by
    simp only [hmem, hen, Bool.and_self, Bool.true_and, rangeFrom]
    obtain rfl | rfl : i = 0 ∨ i = 1 := by omega
    · exact List.find?_cons_of_pos (decide_eq_true hin)
    · rw [List.find?_cons_of_neg (by simpa using hvf 0 (by omega))]
      exact List.find?_cons_of_pos (decide_eq_true hin)
  have hoff : a - barBase (d.link k).vfBar i = (n - 1) * 0x10000 + x := by omega
  have hnum : ((n - 1) * 0x10000 + x) / 0x10000 + 1 = n := by omega
  have hrest : ((n - 1) * 0x10000 + x) % 0x10000 = x := by omega
  simp only [Dev.route, hnone, hfound, hoff, hnum, hrest]

/-- Settles O48, by the event or configuration write each clause is about.  That no translation is kept beyond its read, so that an
Invalidate Request waits for reads alone, is the model's choice (log entry 222); the forms of the configuration registers are
presumed (log entry 202). -/
theorem hostLinksComplete : Obligations.HostLinksComplete := by
  refine ⟨fun s k hl => ⟨exec_linkFundamentalReset hl, exec_hotReset hl, exec_linkDown hl, exec_perstDeassert hl, ?up,
    fun q => exec_unsupportedRequest_of_mem hl, fun a => exec_unsupportedRequest_memory hl⟩,
    fun s f hl h hf => ⟨exec_bmeClear_master hl h hf, exec_bmeClear_idle hl h hf, exec_bmeSet_awake hl h hf, exec_bmeSet_asleep hl h hf,
      exec_flr hl h hf⟩, fun s f d hl => exec_flrComplete hl,
    fun s k hl h => ⟨exec_vfEnableClear hl h, fun hen d => exec_vfEnableSet hl h hen, ?config⟩,
    fun s r d hl => ⟨fun id e => exec_completionTimeout hl, fun c => exec_poisonedCompletion hl⟩, fun s id k hl => exec_lateCompletion hl,
    fun s f itag addr hl => ⟨fun hats l d => exec_invalidateRequest hl hats, exec_invalidateRequest_off hl itag addr⟩, ?held,
    fun d k n i x a => Dev.route_vf⟩
  case up =>
    intro rate width cfg m flit hcfg hdown hout hen hrate href hm
    exact ⟨exec_linkUp_narrow hl flit hcfg hdown hout hen hrate href hm, fun w => exec_linkUp hl flit hcfg hdown hout hen hrate href hm⟩
  case config =>
    intro v n l hn hlk
    exact ⟨exec_configWrite_numVfs hl h hn hlk, exec_configWrite_numVfs_bad hl h hn hlk, exec_configWrite_pageSize hl h hn hlk,
      exec_configWrite_pageSize_bad hl h hn, exec_configWrite_command hl h hn hlk, exec_configWrite_sriovControl hl h hn hlk,
      exec_configWrite_control hl h hn,
      fun f t hk hf ht => ⟨exec_configWrite_control2 hl h hn hk hf ht, exec_configWrite_cap hl h hn hk hf⟩,
      fun i => ⟨exec_configWrite_bar hl h hn hlk i, exec_configWrite_vfBar hl h hn hlk i⟩⟩
  case held =>
    intro d k q hq
    rw [Dev.invals_invalSettle] at hq
    exact (List.mem_filter.1 hq).2

end Sys2Proof.Machine
end

section
/-! PROOF. Virtual functions: the VFM commands, quiesce, dirty-page harvests, the mailbox (R539 to R558). -/

namespace Sys2Proof.Machine

/-! ### VFM commands (R539 to R541) -/

section
variable {s : State} {r op : Nat} {w : Work} (hl : s.live = true)
include hl

/-- The first run of a VFM command reads its parameter block. -/
theorem State.act_vfmBlock_issues (f : Dev → Work → List Byte → Dev) (hkind : s.dev.ringKind r = 7) (hlen : w.entry.length = 32)
    (hs : w.started = false) (hhead : s.dev.workHead r op = some w) : s.act (fun d => d.vfmBlock r op f) =
      .next (s.endsWith ((s.dev.setWork r w.id fun x => { x with started := true }).workRead w 0 (mbxAddr w) 64)) := by
  refine State.act_of hl ?_
  simp only [Dev.vfmBlock, hhead, hkind, hlen, hs, ne_eq, not_true_eq_false, if_false, Bool.not_false, if_true]

/-- The run after its block has come has its effect on it. -/
theorem State.act_vfmBlock_takes {b : List Byte} {f : Dev → Work → List Byte → Dev} {d : Dev} (h : s.dev.vfmReady r op w b)
    (hd : f s.dev w b = d) : s.act (fun d => d.vfmBlock r op f) = .next (s.endsWith d) := by
  obtain ⟨hhead, hkind, hlen, hs, hw, htakes, rfl⟩ := h
  refine State.act_of hl ?_
  simp only [Dev.vfmBlock, hhead, hkind, hlen, hs, hw, htakes, ne_eq, not_true_eq_false, Bool.not_true, Bool.false_eq_true, or_self,
    if_false, hd]

/-- A command for a VF that exists, from a manager of it, has its effect on that VF. -/
theorem State.act_vfmExisting {b : List Byte} {f : Func} {g : Dev → Work → List Byte → Func → Dev} {d : Dev}
    (h : s.dev.vfmFor r op w b f) (hd : g s.dev w b f = d) : s.act (fun d => d.vfmExisting r op g) = .next (s.endsWith d) := by
  obtain ⟨hready, rfl, hmanages, hnum, hexists⟩ := h
  refine State.act_vfmBlock_takes hl hready ?_
  simp only [hmanages, hexists, hnum, Bool.not_true, Bool.false_eq_true, or_self, if_false, hd]

/-- Every VFM command reads its parameter block first. -/
theorem exec_of_mem_vfmCmds {q : Instr × Nat}
    (hq : q ∈ [(Instr.vfmGrant r, 0x60), (.vfmQuiesce r, 0x61), (.vfmResume r, 0x62), (.vfmDirtyStart r, 0x63), (.vfmDirtyHarvest r, 0x64),
      (.vfmDirtyStop r, 0x65), (.vfmInfo r, 0x66)])
    (hkind : s.dev.ringKind r = 7) (hlen : w.entry.length = 32) (hs : w.started = false) (hhead : s.dev.workHead r q.2 = some w) :
    exec q.1 s =
      .next (s.endsWith ((s.dev.setWork r w.id fun x => { x with started := true }).workRead w 0 (mbxAddr w) 64)) := by
  have hissues (op : Nat) (f : Dev → Work → List Byte → Dev) (hhead : s.dev.workHead r op = some w) :=
    State.act_vfmBlock_issues hl f hkind hlen hs hhead
  simp only [List.mem_cons, List.not_mem_nil, or_false] at hq
  obtain rfl | rfl | rfl | rfl | rfl | rfl | rfl := hq
  · simp only [exec, execVfmGrant]
    exact hissues _ _ hhead
  · simp only [exec, execVfmQuiesce, Dev.vfmExisting]
    exact hissues _ _ hhead
  · simp only [exec, execVfmResume, Dev.vfmExisting]
    exact hissues _ _ hhead
  · simp only [exec, execVfmDirtyStart, Dev.vfmExisting]
    exact hissues _ _ hhead
  · simp only [exec, execVfmDirtyHarvest, Dev.vfmExisting]
    exact hissues _ _ hhead
  · simp only [exec, execVfmDirtyStop, Dev.vfmExisting]
    exact hissues _ _ hhead
  · simp only [exec, execVfmInfo]
    exact hissues _ _ hhead

end

/-- An order with no rival of the other manager is taken for the next boundary. -/
theorem Dev.vfOrder_of_open {d : Dev} {f : Func} {r : Nat} (h : d.orderOpen f r) (kind : Nat) (w : Work) (b : List Byte) :
    d.vfOrder f kind r w b = d.withOrder f kind r w b := by
  have hmine : ((d.vf f).orders.filter fun o => decide ((d.ringFunc o.ring).link = (d.ringFunc r).link)) = (d.vf f).orders := by
    refine List.filter_eq_self.2 fun o ho => ?_
    have hnot := List.filter_eq_nil_iff.1 h o ho
    simpa using hnot
  simp only [Dev.vfOrder, show _ = _ from h, hmine, ne_eq, not_true_eq_false, false_and, if_false, List.foldl_nil, Dev.withOrder]

/-- A harvest queues behind a log or its start, unless one queued already ends the log. -/
theorem Dev.harvest_queues {d : Dev} {r : Nat} {w : Work} {b : List Byte} {f : Func} {stop : Bool}
    (hlog : (d.vf f).log.isSome = true ∨ ((d.vf f).orders.any fun o => decide (o.kind = 3)) = true)
    (hopen : ((d.vf f).harvests.any (·.stop)) = false) : d.harvest r w b f stop =
      (d.setVf f { d.vf f with harvests := (d.vf f).harvests ++
        [{ ring := r, work := w.id, mgr := d.ringFunc r, dest := leAt b 8 8, stop := stop }] }).setWork
        r w.id fun x => { x with note := [1] } := by
  have hgo : ¬ (((d.vf f).log.isNone && (d.vf f).orders.all fun o => decide (o.kind ≠ 3)) || (d.vf f).harvests.any (·.stop)) = true := by
    rw [hopen, Bool.or_false, Bool.and_eq_true]
    rintro ⟨hnone, hall⟩
    obtain hsome | hstart := hlog
    · simp only [Option.isNone_iff_eq_none.1 hnone, Option.isSome_none, Bool.false_eq_true] at hsome
    · obtain ⟨o, ho, hkind⟩ := List.any_eq_true.1 hstart
      exact of_decide_eq_true (List.all_eq_true.1 hall o ho) (of_decide_eq_true hkind)
  exact if_neg hgo

section
variable {s : State} {r : Nat} {w : Work} {b : List Byte} {f : Func} (hl : s.live = true)
include hl

/-! ### Grants (R541 to R545) -/

section
variable {g : List Byte} (h : s.dev.vfmReady r 0x60 w b) (hg : g = grantClean b) (hf : f = blockVf g) (hm : s.dev.mayManage r f = true)
include h hg hf hm

/-- A grant that passes its checks waits for the next boundary, and one behind another order waits unchecked. -/
theorem exec_vfmGrant_waits (hpass : (s.dev.vf f).orders ≠ [] ∨ s.dev.grantCheck g = none) (hopen : s.dev.orderOpen f r) :
    exec (.vfmGrant r) s = .next (s.endsWith (s.dev.withOrder f 0 r w g)) := by
  subst hg hf
  simp only [exec, execVfmGrant]
  refine State.act_vfmBlock_takes hl h ?_
  simp only [hm, Bool.not_true, Bool.false_eq_true, if_false]
  split
  case h_1 st horders hcheck =>
    obtain hbusy | hgood := hpass
    · exact absurd horders hbusy
    · simp [hgood] at hcheck
  case h_2 => exact Dev.vfOrder_of_open hopen _ _ _

theorem exec_vfmGrant_fails {st : Nat} (hfirst : (s.dev.vf f).orders = []) (hbad : s.dev.grantCheck g = some st) :
    exec (.vfmGrant r) s = .next (s.endsWith (s.dev.finish r w.id st)) := by
  subst hg hf
  simp only [exec, execVfmGrant]
  refine State.act_vfmBlock_takes hl h ?_
  simp only [hm, hfirst, hbad, Bool.not_true, Bool.false_eq_true, if_false]

end

/-! ### Quiesce and resume (R551, R552) -/

theorem exec_vfmQuiesce_waits (h : s.dev.vfmFor r 0x61 w b f)
    (hst : (s.dev.vf f).state = .active ∨ (s.dev.vf f).state = .quiescing ∨
      ((s.dev.vf f).state = .quiesced ∧ (s.dev.vf f).orders ≠ []))
    (hopen : s.dev.orderOpen f r) : exec (.vfmQuiesce r) s = .next (s.endsWith (s.dev.withOrder f 1 r w b)) := by
  simp only [exec, execVfmQuiesce]
  refine State.act_vfmExisting hl h ?_
  obtain hst | hst | ⟨hst, hbusy⟩ := hst
  · simp only [hst, Dev.vfOrder_of_open hopen]
  · simp only [hst, Dev.vfOrder_of_open hopen]
  · simp only [hst, if_neg hbusy, Dev.vfOrder_of_open hopen]

/-- A quiesce of a QUIESCED VF without orders completes at once. -/
theorem exec_vfmQuiesce_quiesced (h : s.dev.vfmFor r 0x61 w b f) (hst : (s.dev.vf f).state = .quiesced)
    (hidle : (s.dev.vf f).orders = []) :
    exec (.vfmQuiesce r) s = .next (s.endsWith (s.dev.finish r w.id 0 (toLE 4 (s.dev.vfHeld f)))) := by
  simp only [exec, execVfmQuiesce]
  refine State.act_vfmExisting hl h ?_
  simp only [hst, if_pos hidle]

theorem exec_vfmResume (h : s.dev.vfmFor r 0x62 w b f) (hst : (s.dev.vf f).state = .quiesced ∨ (s.dev.vf f).orders ≠ [])
    (hopen : s.dev.orderOpen f r) : exec (.vfmResume r) s = .next (s.endsWith (s.dev.withOrder f 2 r w b)) := by
  simp only [exec, execVfmResume]
  exact State.act_vfmExisting hl h ((if_pos hst).trans (Dev.vfOrder_of_open hopen _ _ _))

/-- A QUIESCING VF whose completions have been posted as far as they find a place, and that has nothing left, is QUIESCED. -/
theorem exec_vfQuiesced {d : Dev} (hd : d = s.dev.qrnFlush f Dev.cplWrite) (hst : (s.dev.vf f).state = .quiescing)
    (hwork : ((d.ringsOf f).all fun r => (d.ring r).work.all fun w => w.done.isSome) = true)
    (hcmds : (d.qcmds.all fun c => !(decide (c.func = f) && c.started && c.done.isNone)) = true)
    (hreads : (d.reads.all fun h => decide (h.func ≠ f)) = true) : exec (.vfQuiesced f) s =
      .next (s.endsWith ((s.dev.vf f).quiesce.foldl (fun e w => e.finishNow w.1 w.2 0 (toLE 4 (d.vfHeld f)))
        (d.setVf f { s.dev.vf f with state := .quiesced, quiesce := [] }))) := by
  simp only [exec, execVfQuiesced]
  refine State.act_of hl ?_
  rw [if_pos hst, ← hd, if_pos ⟨hst, hwork, hcmds, hreads⟩]

/-! ### Dirty-page logging (R555 to R558) -/

theorem exec_vfmDirtyStart (h : s.dev.vfmFor r 0x63 w b f) (hbase : leAt b 8 8 % 4096 = 0) (hunit : leAt b 16 4 % 64 = 0)
    (hsome : 0 < leAt b 16 4) (hmax : leAt b 16 4 ≤ 268435456) (hhbm : leAt b 24 8 % 65536 = 0) (hlog : (s.dev.vf f).log = none)
    (hstarts : ((s.dev.vf f).orders.any fun o => decide (o.kind = 3)) = false) (hroom : s.dev.loggers < 64)
    (hopen : s.dev.orderOpen f r) : exec (.vfmDirtyStart r) s = .next (s.endsWith (s.dev.withOrder f 3 r w b)) := by
  have hgood : ¬ (leAt b 8 8 % 4096 ≠ 0 ∨ leAt b 16 4 % 64 ≠ 0 ∨ leAt b 16 4 = 0 ∨ 268435456 < leAt b 16 4 ∨
      leAt b 24 8 % 65536 ≠ 0) := by omega
  have hidle : ¬ ((s.dev.vf f).log.isSome = true ∨ ((s.dev.vf f).orders.any fun o => decide (o.kind = 3)) = true) := by
    rw [hlog, hstarts]
    simp
  simp only [exec, execVfmDirtyStart]
  exact State.act_vfmExisting hl h ((if_neg hgood).trans ((if_neg hidle).trans ((if_neg (Nat.not_le.2 hroom)).trans
    (Dev.vfOrder_of_open hopen _ _ _))))

/-- VFM_DIRTY_HARVEST and VFM_DIRTY_STOP queue their harvest. -/
theorem exec_of_mem_harvests {q : Instr × Nat × Bool}
    (hq : q ∈ [(Instr.vfmDirtyHarvest r, 0x64, false), (.vfmDirtyStop r, 0x65, true)]) (h : s.dev.vfmFor r q.2.1 w b f)
    (hlog : (s.dev.vf f).log.isSome = true ∨ ((s.dev.vf f).orders.any fun o => decide (o.kind = 3)) = true)
    (hopen : ((s.dev.vf f).harvests.any (·.stop)) = false) :
    exec q.1 s = .next (s.endsWith ((s.dev.setVf f { s.dev.vf f with harvests := (s.dev.vf f).harvests ++
      [{ ring := r, work := w.id, mgr := s.dev.ringFunc r, dest := leAt b 8 8, stop := q.2.2 }] }).setWork
        r w.id fun x => { x with note := [1] })) := by
  simp only [List.mem_cons, List.not_mem_nil, or_false] at hq
  obtain rfl | rfl := hq
  · simp only [exec, execVfmDirtyHarvest]
    exact State.act_vfmExisting hl h (Dev.harvest_queues hlog hopen)
  · simp only [exec, execVfmDirtyStop]
    exact State.act_vfmExisting hl h (Dev.harvest_queues hlog hopen)

/-- A switched harvest is written out and completed. -/
theorem exec_harvestDone {lg : DirtyLog} {x : Harvest} {hs : List Harvest} (hlog : (s.dev.vf f).log = some lg)
    (hfirst : (s.dev.vf f).harvests = x :: hs) (hswitched : x.switched = true) :
    exec (.harvestDone f) s = .next (s.endsWith (s.dev.harvested f lg x hs)) := by
  simp only [exec, execHarvestDone]
  refine State.act_of hl ?_
  simp only [hlog, hfirst, hswitched, Bool.not_true, Bool.false_eq_true, if_false]

/-! ### Information (R540) -/

theorem exec_vfmInfo (h : s.dev.vfmReady r 0x66 w b) (hf : f = blockVf b) (hm : s.dev.mayManage r f = true) (hnum : f.num ≠ 0)
    (hmax : f.num ≤ 2048) : exec (.vfmInfo r) s = .next (s.endsWith (s.dev.finishPut r w.id (leAt b 8 8)
      (s.dev.grantRecord f ++ toLE 4 (s.dev.vfStateWord f) ++ toLE 4 (s.dev.flowsOwned f) ++ toLE 4 (s.dev.keysOwned f) ++ zeros 52))) := by
  subst hf
  have hgood : ¬ ((blockVf b).num = 0 ∨ 2048 < (blockVf b).num) := by omega
  simp only [exec, execVfmInfo]
  exact State.act_vfmBlock_takes hl h ((if_neg (by simp [hm])).trans (if_neg hgood))

end

/-! ### The mailbox (R550) -/

section
variable {d : Dev} {t : Tgt} {f : Func}

theorem vfMbxCtrlW_sends (hsend : bitOf t.acc.data 0 = true) (hack : bitOf t.acc.data 1 = false) (hempty : (d.vf f).outFull = false) :
    vfMbxCtrlW d t f =
      (d.setVf f { d.vf f with outMsg := d.words16 (vfKey f 0x2000), outFull := true }).raise .vfm f.link 0 8 := by
  simp only [vfMbxCtrlW, hsend, hack, hempty, Bool.false_eq_true, if_false, if_true]

theorem vfMbxCtrlW_acks (hsend : bitOf t.acc.data 0 = false) (hack : bitOf t.acc.data 1 = true) (hfull : (d.vf f).inFull = true) :
    vfMbxCtrlW d t f = (d.setVf f { d.vf f with inFull := false }).raise .vfm f.link 0 9 := by
  simp only [vfMbxCtrlW, hsend, hack, hfull, Bool.false_eq_true, if_false, if_true]

section
variable (hsel : f.num = d.fld (reg .vfm f.link 0x300) 0 12)
include hsel

theorem vfmMbxCmdW_sends (hcmd : bitsOf t.acc.data 0 2 = 1) (hempty : (d.vf f).inFull = false) : vfmMbxCmdW d t f.link =
    (d.setVf f { d.vf f with inMsg := d.words16 (reg .vfm f.link 0x380), inFull := true }).vfMessage f := by
  simp only [vfmMbxCmdW, hcmd, ← hsel, hempty, Bool.false_eq_true, if_false]

theorem vfmMbxCmdW_acks (hcmd : bitsOf t.acc.data 0 2 = 2) (hfull : (d.vf f).outFull = true) :
    vfmMbxCmdW d t f.link = (d.setVf f { d.vf f with outFull := false }).vfMessage f := by
  simp only [vfmMbxCmdW, hcmd, ← hsel, hfull, if_true]

end

end

section
variable {s : State} {f : Func} {v : BitVec 32} {t : Tgt} {d : Dev}

theorem exec_vfMbxSend (h : s.permits (.vf f) 0x2080 4 (putBits v.toNat 0 1 1) t) (hd : vfMbxCtrlW s.dev t f = d) :
    exec (.vfMbxSend f v) s = .next (s.endsWith d) := by
  simp only [exec, execVfMbxSend]
  exact State.act_ownWrite h hd

theorem exec_vfMbxAck (h : s.permits (.vf f) 0x2080 4 (putBits v.toNat 1 1 1) t) (hd : vfMbxCtrlW s.dev t f = d) :
    exec (.vfMbxAck f v) s = .next (s.endsWith d) := by
  simp only [exec, execVfMbxAck]
  exact State.act_ownWrite h hd

theorem exec_vfmMbxSend {pt : Party} {k : Nat} (h : s.permits pt (reg .vfm k 0x304) 4 (putBits v.toNat 0 1 1) t)
    (hd : vfmMbxCmdW s.dev t k = d) : exec (.vfmMbxSend pt k v) s = .next (s.endsWith d) := by
  simp only [exec, execVfmMbxSend]
  exact State.act_ownWrite h hd

theorem exec_vfmMbxAck {pt : Party} {k : Nat} (h : s.permits pt (reg .vfm k 0x304) 4 (putBits v.toNat 1 1 1) t)
    (hd : vfmMbxCmdW s.dev t k = d) : exec (.vfmMbxAck pt k v) s = .next (s.endsWith d) := by
  simp only [exec, execVfmMbxAck]
  exact State.act_ownWrite h hd

end

/-- Settles O50, by the command, event or mailbox write each clause is about.  That an order stands until the boundary, and what an
order of the other manager does to it, are deduced (log entry 137). -/
theorem virtualFunctionsComplete : Obligations.VirtualFunctionsComplete := by
  refine ⟨fun s r w hl hkind hlen hs q hq => exec_of_mem_vfmCmds hl hq hkind hlen hs, fun s r w b f hl =>
    ⟨fun g h hg hf hm => ⟨exec_vfmGrant_waits hl h hg hf hm, fun st => exec_vfmGrant_fails hl h hg hf hm⟩,
      fun h => ⟨exec_vfmQuiesce_waits hl h, exec_vfmQuiesce_quiesced hl h⟩, exec_vfmResume hl, exec_vfmDirtyStart hl,
      fun q => exec_of_mem_harvests hl, exec_vfmInfo hl⟩,
    fun s f hl => ⟨fun d => exec_vfQuiesced hl, fun lg x hs => exec_harvestDone hl, ?vfMailbox⟩, ?mailbox⟩
  case vfMailbox =>
    intro v t
    exact ⟨fun h _ hsend hack hempty => exec_vfMbxSend h (vfMbxCtrlW_sends hsend hack hempty),
      fun h hsend hack hfull => exec_vfMbxAck h (vfMbxCtrlW_acks hsend hack hfull)⟩
  case mailbox =>
    intro s pt v t f hsel
    exact ⟨fun h hcmd hempty => exec_vfmMbxSend h (vfmMbxCmdW_sends hsel hcmd hempty),
      fun h hcmd hfull => exec_vfmMbxAck h (vfmMbxCmdW_acks hsel hcmd hfull)⟩

end Sys2Proof.Machine
end

section
/-! PROOF. The test port: what Capture-DR of REG_ACCESS returns (R665). -/

namespace Sys2Proof.Machine

theorem rangeFrom_eq_range' (a n : Nat) : rangeFrom a n = List.range' a n := by
  induction n generalizing a with
  | zero => rfl
  | succ n ih => rw [rangeFrom, ih, List.range'_succ]

/-- What is shifted out in place `i` is bit `i`. -/
theorem bitList_getElem? {n i : Nat} (h : i < n) (v : Nat) : (bitList v n)[i]? = some (bitOf v i) := by
  simp [bitList, rangeFrom_eq_range', h]

/-- Equal shifts carry equal bits. -/
theorem bitOf_eq_of_bitList_eq {u v n i : Nat} (h : bitList u n = bitList v n) (hi : i < n) : bitOf u i = bitOf v i := by
  have hplace := congrArg (·[i]?) h
  simpa only [bitList_getElem? hi, Option.some.injEq] using hplace

/-- A device whose TAP holds a DATA outside 32 bits, of a read that is not done. -/
def wideCapture : Dev := { tap := { done := false, read := true, data := 2 ^ 61 } }

/-- Refutes O56: its clause on Capture-DR takes bit 61 for DONE on every device, also on one whose DATA has more than 32 bits.  The
word captured is DATA with DONE added at bit 61, so the DATA `2 ^ 61` of `wideCapture` shows there while DONE is 0.  REG_ACCESS
itself keeps DATA below `2 ^ 32`. -/
theorem not_testAccessCompletes : ¬ Obligations.TestAccessCompletes := by
  rintro ⟨-, -, -, -, hcapture, -⟩
  obtain ⟨e, x, bits, hdraw, hshift, hdone, -⟩ := hcapture wideCapture
  have he : { wideCapture with draws := wideCapture.draws + 1 } = e := (Prod.mk.inj hdraw).1
  have htap : e.tap = wideCapture.tap := by rw [← he]
  have hsent : Out.tdo (bitList (2 ^ 61 + p32 * (x / p32 % 0x20000000)) 62) = Out.tdo (bitList bits 62) := by
    have hout := congrArg Dev.out hshift
    simp only [Dev.tapCapture, hdraw, Dev.emit_out, List.append_cancel_left_eq, List.cons.injEq, and_true, htap] at hout
    exact hout
  have hbit := bitOf_eq_of_bitList_eq (Out.tdo.inj hsent) (i := 61) (by omega)
  have hset : bitOf (2 ^ 61 + p32 * (x / p32 % 0x20000000)) 61 = true := by
    simp only [bitOf, p32, decide_eq_true_eq]
    omega
  rw [hset, hdone] at hbit
  exact absurd hbit (by decide)

end Sys2Proof.Machine
end
